-- ==== Sys2Proof/Word.lean ====
section
/-! DEFINITION. The words of the machine. A general register is 32 bits (00 R9, R11), a pair 64 bits with
the high word in the odd register, a byte 8 bits. Addresses, counts and indexes are natural numbers. -/
namespace Sys2Proof

/-- A general register of a lane (00 R11). -/
abbrev Word := BitVec 32

/-- A register pair, or a doubleword of memory (00 R11). -/
abbrev DWord := BitVec 64

/-- One byte of memory. -/
abbrev Byte := BitVec 8

/-- A lane mask: bit i for LANE i (06 R108). -/
abbrev Mask := BitVec 64

/-- A register number, 0 to 127 (05 R91). -/
abbrev Reg := Fin 128

end Sys2Proof
end

