-- ==== Sys2Proof/Config.lean ====
section
/-! DEFINITION. The free values of the model: what the manual leaves open (INVENTORY.md, "What the manual
leaves open"). Each is an opaque constant: nothing in Lean can evaluate it, so a theorem holds whatever it is.
Most are applied to `State.tick`, a counter that every step advances. -/
namespace Sys2Proof.Config

/-- An undefined word: a register at gang start (06 R108), or a read at or above 8 x REGS (01 R16).
Applied to the tick, a lane and a register. -/
opaque freeReg : Nat → Nat → Nat → Word

/-- Which of several enabled steps, or of several allowed outcomes, is taken (06 R111, 09 R206, 08 R185).
Applied to the tick and a number that tells choices of one step apart. -/
opaque freePick : Nat → Nat → Nat

/-- How many a-cycles a step takes (00 R3, 07 R137: the figures bind no result). -/
opaque freeElapsed : Nat → Nat

/-- The result bits of a transcendental (07 R150, R151: one fixed function of the operand's bits),
applied to the fn of major 0x1A and the operand. It is used only inside the stated error bound. -/
opaque freeTrans : Nat → Word → Word

/-- A word the manual gives no value for: a measured figure, a digest, a signature (19 R366, R367) or a
doubleword of the owner space (17 R332).
Applied to a selector and an index. -/
opaque freeFigure : Nat → Nat → Nat

end Sys2Proof.Config
end

