-- ==== Sys2Proof/Machine/Bits.lean ====
section
/-! DEFINITION. Bit fields, sign extension, byte order and small list helpers. -/
namespace Sys2Proof.Machine

/-- Bits [hi:lo] of a number, as 00 R11's x[hi:lo]. -/
def bits (w hi lo : Nat) : Nat := w / 2 ^ lo % 2 ^ (hi - lo + 1)

/-- Bit i of a number. -/
def bit (w i : Nat) : Bool := w / 2 ^ i % 2 == 1

/-- 1 or 0. -/
def ofBool (b : Bool) : Nat := if b then 1 else 0

/-- A w-bit field read as two's complement. -/
def sext (w x : Nat) : Int :=
  if x % 2 ^ w < 2 ^ (w - 1) then (x % 2 ^ w : Nat) else (x % 2 ^ w : Nat) - (2 ^ w : Nat)

/-- An integer wrapped to w bits (00 R11: wrapping happens only where stated). -/
def wrap (w : Nat) (x : Int) : Nat := (x % (2 ^ w : Nat)).toNat

/-- A 32-bit word from an integer, wrapped. -/
def word (x : Int) : Word := BitVec.ofNat 32 (wrap 32 x)

/-- All ones or zero: how compares and votes write a truth value (07 R142). -/
def truth (b : Bool) : Word := if b then 0xFFFFFFFF else 0

/-- An integer clamped to a range. -/
def clampInt (lo hi x : Int) : Int := if x < lo then lo else if hi < x then hi else x

/-- n bytes of a number, little-endian (00 R10). -/
def leBytes : Nat → Nat → List Byte
  | 0, _ => []
  | n + 1, x => BitVec.ofNat 8 (x % 256) :: leBytes n (x / 256)

/-- The number that little-endian bytes hold. -/
def ofLeBytes : List Byte → Nat
  | [] => 0
  | b :: bs => b.toNat + 256 * ofLeBytes bs

/-- The number of one bits among the low n bits. -/
def popCount : Nat → Nat → Nat
  | 0, _ => 0
  | n + 1, x => x % 2 + popCount n (x / 2)

/-- The lowest set bit among the low n bits, or n. -/
def lowBit : Nat → Nat → Nat
  | 0, _ => 0
  | n + 1, x => if x % 2 == 1 then 0 else lowBit n (x / 2) + 1

/-- Bit i of the result is bit n - 1 - i of x. -/
def revBits : Nat → Nat → Nat
  | 0, _ => 0
  | n + 1, x => x % 2 * 2 ^ n + revBits n (x / 2)

/-- The integer square root, by n bits from the top. -/
def isqrtAux (x : Nat) : Nat → Nat → Nat
  | 0, r => r
  | n + 1, r => isqrtAux x n (if (r + 2 ^ n) * (r + 2 ^ n) ≤ x then r + 2 ^ n else r)

def isqrt (x : Nat) : Nat := isqrtAux x (Nat.log2 x / 2 + 1) 0

/-- The lanes a mask names, ascending (09 R347: ascending LANE). -/
def lanesOf (m : Mask) : List Nat := (List.range 64).filter (fun i => m.getLsbD i)

/-- The mask of a list of lanes. -/
def maskOf (ls : List Nat) : Mask := ls.foldl (fun m l => m ||| (1#64 <<< l)) 0

/-- Look up a key in a list of pairs. -/
def assocGet? {α : Type} (xs : List (Nat × α)) (k : Nat) : Option α :=
  match xs with
  | [] => none
  | (j, v) :: rest => if j = k then some v else assocGet? rest k

def assocGet {α : Type} (d : α) (xs : List (Nat × α)) (k : Nat) : α := (assocGet? xs k).getD d

/-- Set a key, keeping the keys strictly rising. -/
def assocSet {α : Type} (xs : List (Nat × α)) (k : Nat) (v : α) : List (Nat × α) :=
  match xs with
  | [] => [(k, v)]
  | (j, w) :: rest =>
    if k < j then (k, v) :: (j, w) :: rest
    else if j = k then (k, v) :: rest
    else (j, w) :: assocSet rest k v

def assocErase {α : Type} (xs : List (Nat × α)) (k : Nat) : List (Nat × α) :=
  xs.filter (fun p => p.1 != k)

/-- Replace the i-th element. -/
def setAt {α : Type} (xs : List α) (i : Nat) (v : α) : List α := xs.set i v

/-- The first index at which p holds. -/
def findIdxAux {α : Type} (p : α → Bool) : List α → Nat → Option Nat
  | [], _ => none
  | x :: xs, i => if p x then some i else findIdxAux p xs (i + 1)

def findIdx {α : Type} (p : α → Bool) (xs : List α) : Option Nat := findIdxAux p xs 0

/-- The element with the least key; the first of them when several are least. -/
def minBy {α : Type} (key : α → Nat) : List α → Option α
  | [] => none
  | x :: xs => match minBy key xs with
    | none => some x
    | some y => if key y < key x then some y else some x

end Sys2Proof.Machine
end

