-- ==== Sys2Proof/Syntax.lean ====
section
/-! DEFINITION. The syntax of the machine's steps: one constructor of `Instr` for every row of
spec/opcode_table.json. The instruction words (05 R96 to R99) come first, their arguments being the raw
encoding fields in the table's order; the steps of the other agents follow, their arguments naming the
thing they act on (a queue, a gang, an access under way, a command). -/
namespace Sys2Proof

/-- Whose queues a dispatcher step serves: a tenant of a lease, or the lease service queue (17 R325). -/
inductive Dom where
  | tenant (lease n : Nat)
  | lsq (lease : Nat)
deriving DecidableEq, Repr

/-- A fault buffer (17 R337): a tenant's, a lease's or the owner's. -/
inductive FbRef where
  | tenant (lease n : Nat)
  | lease (lease : Nat)
  | owner
deriving DecidableEq, Repr

/-- The party that writes a configuration register: a level with its lease and tenant (17 R332), or the
host through the BAR0 of a function (03 R52). -/
inductive Writer where
  | tenant (lease n : Nat)
  | lease (lease : Nat)
  | bar (port vfn : Nat)
deriving DecidableEq, Repr

/-- What owner firmware states when it creates a lease (19 R359, 08 R180, 17 R325, 19 R369). -/
structure LeaseSpec where
  rows : Nat
  cols : Nat
  row0 : Nat
  col0 : Nat
  qbase : Nat
  qcnt : Nat
  extents : List (Nat × Nat)
  save : Nat
  latmat : Nat
  port : Nat
  vfn : Nat
  tvec : Nat
  peers : List (Nat × Nat)
deriving DecidableEq, Repr

/-- One step of the machine: a row of spec/opcode_table.json. -/
inductive Instr where
  /-- NOP (R134) -/
  | nop
  /-- IADD (R138) -/
  | iadd (d : Fin 128) (a : Fin 128) (b : Fin 128)
  /-- ISUB (R138) -/
  | isub (d : Fin 128) (a : Fin 128) (b : Fin 128)
  /-- IMUL (R138) -/
  | imul (d : Fin 128) (a : Fin 128) (b : Fin 128)
  /-- IMULH (R138) -/
  | imulh (d : Fin 128) (a : Fin 128) (b : Fin 128)
  /-- UMULH (R138) -/
  | umulh (d : Fin 128) (a : Fin 128) (b : Fin 128)
  /-- IMAD (R138) -/
  | imad (d : Fin 128) (a : Fin 128) (b : Fin 128)
  /-- IMIN (R138) -/
  | imin (d : Fin 128) (a : Fin 128) (b : Fin 128)
  /-- IMAX (R138) -/
  | imax (d : Fin 128) (a : Fin 128) (b : Fin 128)
  /-- UMIN (R138) -/
  | umin (d : Fin 128) (a : Fin 128) (b : Fin 128)
  /-- UMAX (R138) -/
  | umax (d : Fin 128) (a : Fin 128) (b : Fin 128)
  /-- IABS (R138) -/
  | iabs (d : Fin 128) (a : Fin 128)
  /-- INEG (R138) -/
  | ineg (d : Fin 128) (a : Fin 128)
  /-- IDIV (R139) -/
  | idiv (d : Fin 128) (a : Fin 128) (b : Fin 128)
  /-- UDIV (R139) -/
  | udiv (d : Fin 128) (a : Fin 128) (b : Fin 128)
  /-- IREM (R139) -/
  | irem (d : Fin 128) (a : Fin 128) (b : Fin 128)
  /-- UREM (R139) -/
  | urem (d : Fin 128) (a : Fin 128) (b : Fin 128)
  /-- AND (R140) -/
  | andv (d : Fin 128) (a : Fin 128) (b : Fin 128)
  /-- OR (R140) -/
  | orv (d : Fin 128) (a : Fin 128) (b : Fin 128)
  /-- XOR (R140) -/
  | xorv (d : Fin 128) (a : Fin 128) (b : Fin 128)
  /-- ANDN (R140) -/
  | andn (d : Fin 128) (a : Fin 128) (b : Fin 128)
  /-- ORN (R140) -/
  | orn (d : Fin 128) (a : Fin 128) (b : Fin 128)
  /-- XNOR (R140) -/
  | xnor (d : Fin 128) (a : Fin 128) (b : Fin 128)
  /-- SHL (R141) -/
  | shl (d : Fin 128) (a : Fin 128) (b : Fin 128)
  /-- SHR (R141) -/
  | shr (d : Fin 128) (a : Fin 128) (b : Fin 128)
  /-- SAR (R141) -/
  | sar (d : Fin 128) (a : Fin 128) (b : Fin 128)
  /-- ROTL (R141) -/
  | rotl (d : Fin 128) (a : Fin 128) (b : Fin 128)
  /-- POPC (R140) -/
  | popc (d : Fin 128) (a : Fin 128)
  /-- CLZ (R140) -/
  | clz (d : Fin 128) (a : Fin 128)
  /-- CTZ (R140) -/
  | ctz (d : Fin 128) (a : Fin 128)
  /-- BREV (R140) -/
  | brev (d : Fin 128) (a : Fin 128)
  /-- SEL (R140) -/
  | sel (d : Fin 128) (a : Fin 128) (b : Fin 128)
  /-- MOV (R140) -/
  | mov (d : Fin 128) (a : Fin 128)
  /-- ICMP (R142) -/
  | icmp (c : Fin 16) (d : Fin 128) (a : Fin 128) (b : Fin 128)
  /-- AADD (R143) -/
  | aadd (d : Fin 128) (a : Fin 128) (b : Fin 128)
  /-- AADDZ (R143) -/
  | aaddz (d : Fin 128) (a : Fin 128) (b : Fin 128)
  /-- ASUB (R143) -/
  | asub (d : Fin 128) (a : Fin 128) (b : Fin 128)
  /-- AMOV (R143) -/
  | amov (d : Fin 128) (a : Fin 128)
  /-- ACMPEQ (R143) -/
  | acmpeq (d : Fin 128) (a : Fin 128) (b : Fin 128)
  /-- ACMPLT (R143) -/
  | acmplt (d : Fin 128) (a : Fin 128) (b : Fin 128)
  /-- ASHL (R143) -/
  | ashl (d : Fin 128) (a : Fin 128) (b : Fin 128)
  /-- AMUL (R143) -/
  | amul (d : Fin 128) (a : Fin 128) (b : Fin 128)
  /-- IADDI (R144) -/
  | iaddi (d : Fin 128) (a : Fin 128) (i : Fin 2048)
  /-- ANDI (R144) -/
  | andi (d : Fin 128) (a : Fin 128) (i : Fin 2048)
  /-- ORI (R144) -/
  | ori (d : Fin 128) (a : Fin 128) (i : Fin 2048)
  /-- XORI (R144) -/
  | xori (d : Fin 128) (a : Fin 128) (i : Fin 2048)
  /-- SHLI (R144) -/
  | shli (d : Fin 128) (a : Fin 128) (i : Fin 2048)
  /-- SHRI (R144) -/
  | shri (d : Fin 128) (a : Fin 128) (i : Fin 2048)
  /-- SARI (R144) -/
  | sari (d : Fin 128) (a : Fin 128) (i : Fin 2048)
  /-- ICMPI (R142) -/
  | icmpi (d : Fin 128) (a : Fin 128) (c : Fin 16) (i : Fin 128)
  /-- AADDI (R143) -/
  | aaddi (d : Fin 128) (a : Fin 128) (i : Fin 2048)
  /-- BFX (R145) -/
  | bfx (d : Fin 128) (a : Fin 128) (x : Fin 2) (s : Fin 32) (l : Fin 32)
  /-- BFI (R145) -/
  | bfi (d : Fin 128) (a : Fin 128) (x : Fin 2) (s : Fin 32) (l : Fin 32)
  /-- IMULI (R144) -/
  | imuli (d : Fin 128) (a : Fin 128) (i : Fin 2048)
  /-- MOVI (R144) -/
  | movi (d : Fin 128) (i : Fin 262144)
  /-- MOVH (R144) -/
  | movh (d : Fin 128) (i : Fin 65536)
  /-- FADD (R146) -/
  | fadd (d : Fin 128) (a : Fin 128) (b : Fin 128)
  /-- FSUB (R146) -/
  | fsub (d : Fin 128) (a : Fin 128) (b : Fin 128)
  /-- FMUL (R146) -/
  | fmul (d : Fin 128) (a : Fin 128) (b : Fin 128)
  /-- FMA (R146) -/
  | fma (d : Fin 128) (a : Fin 128) (b : Fin 128)
  /-- FMS (R146) -/
  | fms (d : Fin 128) (a : Fin 128) (b : Fin 128)
  /-- FNMA (R146) -/
  | fnma (d : Fin 128) (a : Fin 128) (b : Fin 128)
  /-- FMIN (R146) -/
  | fmin (d : Fin 128) (a : Fin 128) (b : Fin 128)
  /-- FMAX (R146) -/
  | fmax (d : Fin 128) (a : Fin 128) (b : Fin 128)
  /-- FABS (R146) -/
  | fabs (d : Fin 128) (a : Fin 128)
  /-- FNEG (R146) -/
  | fneg (d : Fin 128) (a : Fin 128)
  /-- FCPSGN (R146) -/
  | fcpsgn (d : Fin 128) (a : Fin 128) (b : Fin 128)
  /-- FRND (R148) -/
  | frnd (d : Fin 128) (a : Fin 128) (m : Fin 8)
  /-- FDIV (R146) -/
  | fdiv (d : Fin 128) (a : Fin 128) (b : Fin 128)
  /-- FSQRT (R146) -/
  | fsqrt (d : Fin 128) (a : Fin 128)
  /-- FSAT (R146) -/
  | fsat (d : Fin 128) (a : Fin 128)
  /-- FCLASS (R147) -/
  | fclass (d : Fin 128) (a : Fin 128)
  /-- FCMP (R149) -/
  | fcmp (c : Fin 8) (d : Fin 128) (a : Fin 128) (b : Fin 128)
  /-- FRCP (R150) -/
  | frcp (d : Fin 128) (a : Fin 128)
  /-- FRSQ (R150) -/
  | frsq (d : Fin 128) (a : Fin 128)
  /-- FEXP2 (R150) -/
  | fexp2 (d : Fin 128) (a : Fin 128)
  /-- FLOG2 (R150) -/
  | flog2 (d : Fin 128) (a : Fin 128)
  /-- FSINPI (R150) -/
  | fsinpi (d : Fin 128) (a : Fin 128)
  /-- FCOSPI (R150) -/
  | fcospi (d : Fin 128) (a : Fin 128)
  /-- FTANH (R150) -/
  | ftanh (d : Fin 128) (a : Fin 128)
  /-- FSIG (R150) -/
  | fsig (d : Fin 128) (a : Fin 128)
  /-- HADD2 (R152) -/
  | hadd2 (d : Fin 128) (a : Fin 128) (b : Fin 128)
  /-- HSUB2 (R152) -/
  | hsub2 (d : Fin 128) (a : Fin 128) (b : Fin 128)
  /-- HMUL2 (R152) -/
  | hmul2 (d : Fin 128) (a : Fin 128) (b : Fin 128)
  /-- HFMA2 (R152) -/
  | hfma2 (d : Fin 128) (a : Fin 128) (b : Fin 128)
  /-- HMIN2 (R152) -/
  | hmin2 (d : Fin 128) (a : Fin 128) (b : Fin 128)
  /-- HMAX2 (R152) -/
  | hmax2 (d : Fin 128) (a : Fin 128) (b : Fin 128)
  /-- BADD2 (R152) -/
  | badd2 (d : Fin 128) (a : Fin 128) (b : Fin 128)
  /-- BSUB2 (R152) -/
  | bsub2 (d : Fin 128) (a : Fin 128) (b : Fin 128)
  /-- BMUL2 (R152) -/
  | bmul2 (d : Fin 128) (a : Fin 128) (b : Fin 128)
  /-- BFMA2 (R152) -/
  | bfma2 (d : Fin 128) (a : Fin 128) (b : Fin 128)
  /-- BMIN2 (R152) -/
  | bmin2 (d : Fin 128) (a : Fin 128) (b : Fin 128)
  /-- BMAX2 (R152) -/
  | bmax2 (d : Fin 128) (a : Fin 128) (b : Fin 128)
  /-- DP4I (R153) -/
  | dp4i (d : Fin 128) (a : Fin 128) (b : Fin 128)
  /-- DP4N (R153) -/
  | dp4n (d : Fin 128) (a : Fin 128) (b : Fin 128)
  /-- DP2H (R154) -/
  | dp2h (d : Fin 128) (a : Fin 128) (b : Fin 128)
  /-- DP2B (R154) -/
  | dp2b (d : Fin 128) (a : Fin 128) (b : Fin 128)
  /-- DP4E (R154) -/
  | dp4e (d : Fin 128) (a : Fin 128) (b : Fin 128)
  /-- DP4F (R154) -/
  | dp4f (d : Fin 128) (a : Fin 128) (b : Fin 128)
  /-- I2F (R155) -/
  | i2f (d : Fin 128) (a : Fin 128) (s : Fin 2)
  /-- N2F (R156) -/
  | n2f (d : Fin 128) (a : Fin 128) (k : Fin 4) (j : Fin 32)
  /-- F2I (R155) -/
  | f2i (d : Fin 128) (a : Fin 128) (m : Fin 4)
  /-- F2N (R156) -/
  | f2n (d : Fin 128) (a : Fin 128) (k : Fin 4) (j : Fin 32)
  /-- PKH (R157) -/
  | pkh (d : Fin 128) (a : Fin 128) (j : Fin 2)
  /-- PKB (R157) -/
  | pkb (d : Fin 128) (a : Fin 128) (j : Fin 2)
  /-- UNH (R157) -/
  | unh (d : Fin 128) (a : Fin 128) (j : Fin 2)
  /-- UNB (R157) -/
  | unb (d : Fin 128) (a : Fin 128) (j : Fin 2)
  /-- PK8E (R157) -/
  | pk8e (d : Fin 128) (a : Fin 128) (j : Fin 4)
  /-- PK8F (R157) -/
  | pk8f (d : Fin 128) (a : Fin 128) (j : Fin 4)
  /-- UN8E (R157) -/
  | un8e (d : Fin 128) (a : Fin 128) (j : Fin 4)
  /-- UN8F (R157) -/
  | un8f (d : Fin 128) (a : Fin 128) (j : Fin 4)
  /-- PK6 (R157) -/
  | pk6 (d : Fin 128) (a : Fin 128) (j : Fin 8)
  /-- UN6 (R157) -/
  | un6 (d : Fin 128) (a : Fin 128) (j : Fin 8)
  /-- PK4 (R157) -/
  | pk4 (d : Fin 128) (a : Fin 128) (j : Fin 8)
  /-- UN4 (R157) -/
  | un4 (d : Fin 128) (a : Fin 128) (j : Fin 8)
  /-- SX8 (R158) -/
  | sx8 (d : Fin 128) (a : Fin 128)
  /-- SX16 (R158) -/
  | sx16 (d : Fin 128) (a : Fin 128)
  /-- SAT8 (R158) -/
  | sat8 (d : Fin 128) (a : Fin 128)
  /-- SATZ8 (R158) -/
  | satz8 (d : Fin 128) (a : Fin 128)
  /-- SAT16 (R158) -/
  | sat16 (d : Fin 128) (a : Fin 128)
  /-- SATZ16 (R158) -/
  | satz16 (d : Fin 128) (a : Fin 128)
  /-- FXF (R158) -/
  | fxf (d : Fin 128) (a : Fin 128) (q : Fin 64)
  /-- LANEID (R160) -/
  | laneid (d : Fin 128)
  /-- GWIDTH (R160) -/
  | gwidth (d : Fin 128)
  /-- COHORT (R160) -/
  | cohort (d : Fin 128)
  /-- VANY (R160) -/
  | vany (d : Fin 128) (a : Fin 128)
  /-- VALL (R160) -/
  | vall (d : Fin 128) (a : Fin 128)
  /-- BALLOT (R160) -/
  | ballot (d : Fin 128) (a : Fin 128)
  /-- MATCH (R160) -/
  | matchEq (d : Fin 128) (a : Fin 128)
  /-- SHFL (R161) -/
  | shfl (d : Fin 128) (a : Fin 128) (b : Fin 128)
  /-- SHUP (R161) -/
  | shup (d : Fin 128) (a : Fin 128) (k : Fin 64)
  /-- SHDN (R161) -/
  | shdn (d : Fin 128) (a : Fin 128) (k : Fin 64)
  /-- SHXOR (R161) -/
  | shxor (d : Fin 128) (a : Fin 128) (k : Fin 64)
  /-- REDADD (R160) -/
  | redadd (d : Fin 128) (a : Fin 128)
  /-- REDMIN (R160) -/
  | redmin (d : Fin 128) (a : Fin 128)
  /-- REDMAX (R160) -/
  | redmax (d : Fin 128) (a : Fin 128)
  /-- BCAST (R160) -/
  | bcast (d : Fin 128) (a : Fin 128)
  /-- REDAND (R160) -/
  | redand (d : Fin 128) (a : Fin 128)
  /-- FREDADD (R162) -/
  | fredadd (d : Fin 128) (a : Fin 128)
  /-- FREDMIN (R162) -/
  | fredmin (d : Fin 128) (a : Fin 128)
  /-- FREDMAX (R162) -/
  | fredmax (d : Fin 128) (a : Fin 128)
  /-- REDOR (R160) -/
  | redor (d : Fin 128) (a : Fin 128)
  /-- REDXOR (R160) -/
  | redxor (d : Fin 128) (a : Fin 128)
  /-- SREG (R163) -/
  | sreg (d : Fin 128) (i : Fin 2048)
  /-- SREGW (R165) -/
  | sregw (a : Fin 128) (i : Fin 2048)
  /-- LD_B (R196) -/
  | ldB (d : Fin 128) (a : Fin 128) (i : Fin 2048)
  /-- LD_BS (R196) -/
  | ldBs (d : Fin 128) (a : Fin 128) (i : Fin 2048)
  /-- LD_H (R196) -/
  | ldH (d : Fin 128) (a : Fin 128) (i : Fin 2048)
  /-- LD_HS (R196) -/
  | ldHs (d : Fin 128) (a : Fin 128) (i : Fin 2048)
  /-- LD_W (R196) -/
  | ldW (d : Fin 128) (a : Fin 128) (i : Fin 2048)
  /-- LD_D (R196) -/
  | ldD (d : Fin 128) (a : Fin 128) (i : Fin 2048)
  /-- LD_Q (R196) -/
  | ldQ (d : Fin 128) (a : Fin 128) (i : Fin 2048)
  /-- ST_B (R196) -/
  | stB (d : Fin 128) (a : Fin 128) (i : Fin 2048)
  /-- ST_H (R196) -/
  | stH (d : Fin 128) (a : Fin 128) (i : Fin 2048)
  /-- ST_W (R196) -/
  | stW (d : Fin 128) (a : Fin 128) (i : Fin 2048)
  /-- ST_D (R196) -/
  | stD (d : Fin 128) (a : Fin 128) (i : Fin 2048)
  /-- ST_Q (R196) -/
  | stQ (d : Fin 128) (a : Fin 128) (i : Fin 2048)
  /-- LDB_W (R201) -/
  | ldbW (d : Fin 128) (a : Fin 128) (b : Fin 16) (m : Fin 2) (o : Fin 64)
  /-- LDB_D (R201) -/
  | ldbD (d : Fin 128) (a : Fin 128) (b : Fin 16) (m : Fin 2) (o : Fin 64)
  /-- LDB_Q (R201) -/
  | ldbQ (d : Fin 128) (a : Fin 128) (b : Fin 16) (m : Fin 2) (o : Fin 64)
  /-- LDA_H (R203) -/
  | ldaH (d : Fin 128) (a : Fin 128) (i : Fin 2048)
  /-- LDA_W (R203) -/
  | ldaW (d : Fin 128) (a : Fin 128) (i : Fin 2048)
  /-- LDA_Q (R203) -/
  | ldaQ (d : Fin 128) (a : Fin 128) (i : Fin 2048)
  /-- STA_H (R203) -/
  | staH (d : Fin 128) (a : Fin 128) (i : Fin 2048)
  /-- STA_W (R203) -/
  | staW (d : Fin 128) (a : Fin 128) (i : Fin 2048)
  /-- STA_Q (R203) -/
  | staQ (d : Fin 128) (a : Fin 128) (i : Fin 2048)
  /-- LDW_Q (R203) -/
  | ldwQ (d : Fin 128) (a : Fin 128) (i : Fin 2048)
  /-- STW_Q (R203) -/
  | stwQ (d : Fin 128) (a : Fin 128) (i : Fin 2048)
  /-- ATOM_ADD (R206) -/
  | atomAdd (o : Fin 4) (s : Fin 4) (d : Fin 128) (a : Fin 128) (b : Fin 128)
  /-- ATOM_MIN (R206) -/
  | atomMin (o : Fin 4) (s : Fin 4) (d : Fin 128) (a : Fin 128) (b : Fin 128)
  /-- ATOM_MAX (R206) -/
  | atomMax (o : Fin 4) (s : Fin 4) (d : Fin 128) (a : Fin 128) (b : Fin 128)
  /-- ATOM_UMIN (R206) -/
  | atomUmin (o : Fin 4) (s : Fin 4) (d : Fin 128) (a : Fin 128) (b : Fin 128)
  /-- ATOM_UMAX (R206) -/
  | atomUmax (o : Fin 4) (s : Fin 4) (d : Fin 128) (a : Fin 128) (b : Fin 128)
  /-- ATOM_AND (R206) -/
  | atomAnd (o : Fin 4) (s : Fin 4) (d : Fin 128) (a : Fin 128) (b : Fin 128)
  /-- ATOM_OR (R206) -/
  | atomOr (o : Fin 4) (s : Fin 4) (d : Fin 128) (a : Fin 128) (b : Fin 128)
  /-- ATOM_XOR (R206) -/
  | atomXor (o : Fin 4) (s : Fin 4) (d : Fin 128) (a : Fin 128) (b : Fin 128)
  /-- ATOM_XCHG (R206) -/
  | atomXchg (o : Fin 4) (s : Fin 4) (d : Fin 128) (a : Fin 128) (b : Fin 128)
  /-- ATOM_CAS (R206) -/
  | atomCas (o : Fin 4) (s : Fin 4) (d : Fin 128) (a : Fin 128) (b : Fin 128)
  /-- ATOM_FADD (R207) -/
  | atomFadd (o : Fin 4) (s : Fin 4) (d : Fin 128) (a : Fin 128) (b : Fin 128)
  /-- ATOM_ADD64 (R206) -/
  | atomAdd64 (o : Fin 4) (s : Fin 4) (d : Fin 128) (a : Fin 128) (b : Fin 128)
  /-- RED_ADD (R210) -/
  | redAdd (o : Fin 4) (s : Fin 4) (a : Fin 128) (b : Fin 128)
  /-- RED_MIN (R210) -/
  | redMin (o : Fin 4) (s : Fin 4) (a : Fin 128) (b : Fin 128)
  /-- RED_MAX (R210) -/
  | redMax (o : Fin 4) (s : Fin 4) (a : Fin 128) (b : Fin 128)
  /-- RED_AND (R210) -/
  | redAnd (o : Fin 4) (s : Fin 4) (a : Fin 128) (b : Fin 128)
  /-- RED_OR (R210) -/
  | redOr (o : Fin 4) (s : Fin 4) (a : Fin 128) (b : Fin 128)
  /-- RED_XOR (R210) -/
  | redXor (o : Fin 4) (s : Fin 4) (a : Fin 128) (b : Fin 128)
  /-- RED_FADD (R210) -/
  | redFadd (o : Fin 4) (s : Fin 4) (a : Fin 128) (b : Fin 128)
  /-- SCA_ADD (R211) -/
  | scaAdd (d : Fin 128) (a : Fin 128) (b : Fin 128)
  /-- SCA_MIN (R211) -/
  | scaMin (d : Fin 128) (a : Fin 128) (b : Fin 128)
  /-- SCA_MAX (R211) -/
  | scaMax (d : Fin 128) (a : Fin 128) (b : Fin 128)
  /-- SCA_UMIN (R211) -/
  | scaUmin (d : Fin 128) (a : Fin 128) (b : Fin 128)
  /-- SCA_UMAX (R211) -/
  | scaUmax (d : Fin 128) (a : Fin 128) (b : Fin 128)
  /-- SCA_AND (R211) -/
  | scaAnd (d : Fin 128) (a : Fin 128) (b : Fin 128)
  /-- SCA_OR (R211) -/
  | scaOr (d : Fin 128) (a : Fin 128) (b : Fin 128)
  /-- SCA_XOR (R211) -/
  | scaXor (d : Fin 128) (a : Fin 128) (b : Fin 128)
  /-- SCA_XCHG (R211) -/
  | scaXchg (d : Fin 128) (a : Fin 128) (b : Fin 128)
  /-- SCA_CAS (R211) -/
  | scaCas (d : Fin 128) (a : Fin 128) (b : Fin 128)
  /-- SCA_FADD (R211) -/
  | scaFadd (d : Fin 128) (a : Fin 128) (b : Fin 128)
  /-- SACC_W (R212) -/
  | saccW (a : Fin 128) (b : Fin 128)
  /-- SACC_F (R212) -/
  | saccF (a : Fin 128) (b : Fin 128)
  /-- FENCE (R286) -/
  | fence (s : Fin 4) (o : Fin 4)
  /-- RADV (R288) -/
  | radv (d : Fin 128) (k : Fin 32)
  /-- RACQ (R289) -/
  | racq (d : Fin 128) (a : Fin 128) (k : Fin 32)
  /-- RVIEW (R290) -/
  | rview (d : Fin 128) (k : Fin 32)
  /-- RVIEW_CNT (R290) -/
  | rviewCnt (d : Fin 128) (k : Fin 32)
  /-- MON (R291) -/
  | mon (a : Fin 128)
  /-- MWAIT (R292) -/
  | mwait (d : Fin 128) (b : Fin 128)
  /-- MWAIT_TRAP (R292) -/
  | mwaitTrap (d : Fin 128) (b : Fin 128)
  /-- MUNARM (R293) -/
  | munarm
  /-- SDRAIN (R217) -/
  | sdrain
  /-- CINV (R215) -/
  | cinv (a : Fin 128)
  /-- PFETCH (R215) -/
  | pfetch (a : Fin 128)
  /-- PFL2 (R215) -/
  | pfl2 (a : Fin 128)
  /-- PDISC (R216) -/
  | pdisc (d : Fin 128) (a : Fin 128)
  /-- BR (R117) -/
  | br (o : Fin 262144)
  /-- BRNZ (R117) -/
  | brnz (a : Fin 128) (o : Fin 262144)
  /-- BRZ (R117) -/
  | brz (a : Fin 128) (o : Fin 262144)
  /-- CALL (R118) -/
  | call (a : Fin 128) (o : Fin 262144)
  /-- JMP (R119) -/
  | jmp (a : Fin 128)
  /-- JMPL (R119) -/
  | jmpl (d : Fin 128) (a : Fin 128)
  /-- JPUSH (R123) -/
  | jpush
  /-- JWAIT (R124) -/
  | jwait
  /-- JDROP (R125) -/
  | jdrop (k : Fin 64)
  /-- JDEPTH (R126) -/
  | jdepth (d : Fin 128)
  /-- EXIT (R131) -/
  | exitv (s : Fin 4)
  /-- BAR (R128) -/
  | bar
  /-- REFILL (R130) -/
  | refill (d : Fin 128)
  /-- TRAP (R132) -/
  | trapv (c : Fin 262144)
  /-- YIELD (R133) -/
  | yield
  /-- SYSR (R326) -/
  | sysr (d : Fin 128) (n : Fin 128)
  /-- SYSW (R326) -/
  | sysw (a : Fin 128) (n : Fin 128)
  /-- CFGR (R332) -/
  | cfgr (d : Fin 128) (a : Fin 128)
  /-- CFGW (R332) -/
  | cfgw (a : Fin 128) (b : Fin 128)
  /-- TLBI_VA (R333) -/
  | tlbiVa (d : Fin 128) (a : Fin 128)
  /-- TLBI_TA (R333) -/
  | tlbiTa (d : Fin 128) (a : Fin 128)
  /-- TLBI_ALL (R333) -/
  | tlbiAll (d : Fin 128)
  /-- ERET (R329) -/
  | eret
  /-- TRLANE (R330) -/
  | trlane (d : Fin 128) (n : Fin 128) (b : Fin 128)
  /-- TWLANE (R330) -/
  | twlane (d : Fin 128) (n : Fin 128) (b : Fin 128)
  /-- HALT (R331) -/
  | halt (b : Fin 128)
  /-- HALT_LAUNCH (R331) -/
  | haltLaunch (b : Fin 128)
  /-- HALT_TENANT (R331) -/
  | haltTenant (b : Fin 128)
  /-- HALT_OTHER (R331) -/
  | haltOther (a : Fin 128) (b : Fin 128)
  /-- CPY (R231) -/
  | cpy (d : Fin 128)
  /-- CPG (R233) -/
  | cpg (d : Fin 128) (a : Fin 128)
  /-- CPS (R233) -/
  | cps (d : Fin 128) (a : Fin 128)
  /-- CPXW (R235) -/
  | cpxw (d : Fin 128)
  /-- CPXR (R235) -/
  | cpxr (d : Fin 128)
  /-- CPF (R234) -/
  | cpf (d : Fin 128)
  /-- MMUL (R240) -/
  | mmul (d : Fin 128)
  /-- MMULW (R240) -/
  | mmulw (d : Fin 128)
  /-- MMSP (R240) -/
  | mmsp (d : Fin 128)
  /-- MZERO (R243) -/
  | mzero (d : Fin 128)
  /-- MEPI (R244) -/
  | mepi (d : Fin 128)
  /-- MFENCE (R242) -/
  | mfence
  /-- ACRD (R245) -/
  | acrd (d : Fin 128) (a : Fin 128) (x : Fin 2)
  /-- ACWR (R245) -/
  | acwr (d : Fin 128) (a : Fin 128) (x : Fin 2)
  /-- ACST (R245) -/
  | acst (d : Fin 128) (k : Fin 64)
  /-- SINC (R227) -/
  | sinc (n : Fin 128) (b : Fin 128)
  /-- SWAIT (R227) -/
  | swait (n : Fin 128) (b : Fin 128)
  /-- SSET (R227) -/
  | sset (n : Fin 128) (b : Fin 128)
  /-- SGET (R227) -/
  | sget (d : Fin 128) (n : Fin 128) (w : Fin 16)
  /-- SDEC (R227) -/
  | sdec (n : Fin 128) (b : Fin 128)
  /-- RTSEND (R298) -/
  | rtsend (r : Fin 64) (a : Fin 128) (n : Fin 8)
  /-- RTRECV (R298) -/
  | rtrecv (d : Fin 128) (r : Fin 64) (n : Fin 8)
  /-- RTSENDQ (R299) -/
  | rtsendq (d : Fin 128) (a : Fin 128) (r : Fin 64)
  /-- RTRECVQ (R299) -/
  | rtrecvq (d : Fin 128) (r : Fin 64)
  /-- RTSTAT (R300) -/
  | rtstat (d : Fin 128) (r : Fin 64)
  /-- WPUSH (R303) -/
  | wpush (d : Fin 128) (a : Fin 128) (b : Fin 128)
  /-- WJOIN (R304) -/
  | wjoin (d : Fin 128) (a : Fin 128)
  /-- IPUSH (R305) -/
  | ipush (d : Fin 128) (a : Fin 128)
  /-- SHSET (R253) -/
  | shset (d : Fin 128) (a : Fin 128) (b : Fin 128)
  /-- SHINV (R254) -/
  | shinv (a : Fin 128)
  /-- REP (R115) -/
  | rep (c : Fin 64) (x : Fin 4) (y : Fin 4) (z : Fin 4)
  /-- QUEUE_APPEND (R55) -/
  | queueAppend (dom : Dom) (q addr bytes : Nat)
  /-- QUEUE_ENABLE (R53) -/
  | queueEnable (dom : Dom) (q ctl : Nat)
  /-- QUEUE_DISABLE (R53) -/
  | queueDisable (dom : Dom) (q ctl : Nat)
  /-- QUEUE_CLR (R53) -/
  | queueClr (dom : Dom) (q : Nat)
  /-- DISPATCH_TAKE (R59) -/
  | dispatchTake (dom : Dom) (q : Nat)
  /-- TEAM_RELEASE (R60) -/
  | teamRelease (dom : Dom)
  /-- COOP_BLOCK (R62) -/
  | coopBlock (dom : Dom)
  /-- HOLD_LIST_DRAIN (R58) -/
  | holdListDrain (dom : Dom) (q : Nat)
  /-- SUCCESSOR_JOIN (R20) -/
  | successorJoin (launch : Nat)
  /-- TEAM_EXIT (R131) -/
  | teamExit (team : Nat)
  /-- ITEM_CHUNK_DEAL (R129) -/
  | itemChunkDeal (core launch : Nat)
  /-- POWER_WAIT_EXPIRE (R81) -/
  | powerWaitExpire (quad : Nat)
  /-- QUAD_POWER_READY (R81) -/
  | quadPowerReady (quad : Nat)
  /-- QUAD_GATE (R81) -/
  | quadGate (quad : Nat)
  /-- SWAP_OUT_ELIGIBLE (R76) -/
  | swapOutEligible (gang : Nat)
  /-- SWAP_OUT_FORCED (R76) -/
  | swapOutForced (gang : Nat)
  /-- SWAP_IN (R75) -/
  | swapIn (gang : Nat)
  /-- QUAD_FAILURE (R66) -/
  | quadFailure (field prow pcol : Nat)
  /-- TRIM_FAILURE (R79) -/
  | trimFailure (quad cap : Nat)
  /-- BYPASS_FAILURE (R80) -/
  | bypassFailure (quad : Nat)
  /-- LATMAT_SWEEP (R70) -/
  | latmatSweep (lease : Nat) (ns : List Nat)
  /-- CAP_RAISE (R372) -/
  | capRaise (quad cap : Nat)
  /-- ENGINE_DEAD (R250) -/
  | engineDead (quad : Nat)
  /-- COHORT_FORM (R110) -/
  | cohortForm (gang slice : Nat)
  /-- PREWAIT_RELEASE (R85) -/
  | prewaitRelease (gang wait : Nat)
  /-- SWITCH_PARK_END (R86) -/
  | switchParkEnd (gang wait : Nat)
  /-- RESULT_WRITE (R114) -/
  | resultWrite (gang result : Nat)
  /-- STORE_FAULT_REPORT (R335) -/
  | storeFaultReport (acc : Nat)
  /-- SKID_COUNT_DELIVER (R335) -/
  | skidCountDeliver (gang cohort : Nat)
  /-- FAULT_RESPONSE (R339) -/
  | faultResponse (fb : FbRef) (value : Nat)
  /-- FBHEAD_WRITE (R339) -/
  | fbheadWrite (fb : FbRef) (value : Nat)
  /-- CLROVF_WRITE (R337) -/
  | clrovfWrite (fb : FbRef) (value : Nat)
  /-- HOME_READ_MISS (R263) -/
  | homeReadMiss (acc : Nat)
  /-- L1_FILL (R263) -/
  | l1Fill (acc : Nat)
  /-- HOME_STORE_APPLY (R264) -/
  | homeStoreApply (acc : Nat)
  /-- SHARER_UPDATE (R264) -/
  | sharerUpdate (acc : Nat)
  /-- STORE_ACK (R264) -/
  | storeAck (acc : Nat)
  /-- LIST_SPLICE (R265) -/
  | listSplice (core line : Nat)
  /-- L2_EVICT (R170) -/
  | l2Evict (line : Nat)
  /-- HOME_ATOMIC (R208) -/
  | homeAtomic (acc : Nat)
  /-- PIN_REFUSAL_RETRY (R267) -/
  | pinRefusalRetry (acc : Nat)
  /-- VIEW_BROADCAST (R278) -/
  | viewBroadcast (lease tenant idx : Nat)
  /-- ROUND_REFETCH (R281) -/
  | roundRefetch (acc : Nat)
  /-- MWAIT_DEADLINE (R292) -/
  | mwaitDeadline (gang wait : Nat)
  /-- HOST_COMPLETION (R188) -/
  | hostCompletion (acc : Nat) (ok : Bool)
  /-- HOST_TIMEOUT (R188) -/
  | hostTimeout (acc : Nat)
  /-- PAGE_FILL_DONE (R190) -/
  | pageFillDone (page : Nat)
  /-- TOKEN_REFILL (R191) -/
  | tokenRefill
  /-- WALKAHEAD_TRANSLATE (R186) -/
  | walkaheadTranslate (quad uid : Nat)
  /-- ENGINE_ACCEPT (R219) -/
  | engineAccept (gang cohort : Nat)
  /-- COPY_BLOCK (R230) -/
  | copyBlock (quad uid : Nat)
  /-- COPY_COMPLETE (R222) -/
  | copyComplete (quad uid : Nat)
  /-- CHURN_STEP (R247) -/
  | churnStep (quad arr : Nat)
  /-- MATRIX_COMPLETE (R240) -/
  | matrixComplete (quad uid : Nat)
  /-- ROUTE_WORD_ARRIVE (R297) -/
  | routeWordArrive (lease tenant rt seg : Nat)
  /-- ROUTE_BREAK (R301) -/
  | routeBreak (lease tenant rt seg : Nat)
  /-- ROUTE_ENABLE (R296) -/
  | routeEnable (lease tenant rt value : Nat)
  /-- ROUTE_DISABLE (R296) -/
  | routeDisable (lease tenant rt value : Nat)
  /-- ATTR_ENTRY_WRITE (R27) -/
  | attrEntryWrite (lease tenant i value : Nat)
  /-- S1ROOT_WRITE (R179) -/
  | s1rootWrite (lease tenant value : Nat)
  /-- S2ROOT_WRITE (R179) -/
  | s2rootWrite (lease tenant value : Nat)
  /-- DESC_CONFIGURE (R355) -/
  | descConfigure (lease tenant : Nat)
  /-- DESC_COMMIT (R358) -/
  | descCommit (lease tenant : Nat)
  /-- DESC_UNCOMMIT (R355) -/
  | descUncommit (lease tenant : Nat)
  /-- DESC_RUN (R355) -/
  | descRun (lease tenant : Nat)
  /-- DESC_PREEMPT (R341) -/
  | descPreempt (lease tenant : Nat)
  /-- DESC_RESTORE (R344) -/
  | descRestore (lease tenant : Nat)
  /-- DESC_HOLD_OUT (R345) -/
  | descHoldOut (lease tenant : Nat)
  /-- DESC_FREE (R355) -/
  | descFree (lease tenant : Nat)
  /-- DESC_RECOVER (R355) -/
  | descRecover (lease tenant : Nat)
  /-- QUANTUM_WRITE (R346) -/
  | quantumWrite (lease tenant value : Nat)
  /-- VMIN_RESET (R373) -/
  | vminReset (quad : Nat)
  /-- REGISTER_WRITE (R332) -/
  | registerWrite (who : Writer) (offset value : Nat)
  /-- PREEMPT_HARD_STOP (R343) -/
  | preemptHardStop (lease tenant : Nat)
  /-- ENGINE_STOP_ACK (R342) -/
  | engineStopAck (lease tenant cls : Nat)
  /-- SAVE_DONE (R343) -/
  | saveDone (lease tenant us : Nat)
  /-- PREEMPT_KILL (R343) -/
  | preemptKill (lease tenant : Nat)
  /-- QUANTUM_EXPIRE (R345) -/
  | quantumExpire (lease tenant : Nat)
  /-- PEER_ACCESS_RECEIVE (R370) -/
  | peerAccessReceive (link : Nat) (write : Bool) (addr : Nat) (data : List Nat)
  /-- FLIT_ACK (R371) -/
  | flitAck (link packet : Nat)
  /-- FLIT_REPLAY (R371) -/
  | flitReplay (link : Nat)
  /-- PACKET_TAG_DROP (R363) -/
  | packetTagDrop (lease : Nat)
  /-- VOLTAGE_SAMPLE (R373) -/
  | voltageSample (quad mv : Nat)
  /-- POWER_SAMPLE (R374) -/
  | powerSample (watts decidegrees : Nat)
  /-- SPDM_GET_MEASUREMENTS (R366) -/
  | spdmGetMeasurements (port vfn index : Nat)
  /-- TDISP_LOCK_INTERFACE (R368) -/
  | tdispLockInterface (port vfn : Nat)
  /-- BOOT (R64) -/
  | boot (defects : List Nat)
  /-- RESTORE_DONE (R344) -/
  | restoreDone (lease tenant : Nat)
  /-- LOSS_OF_LOCK (R371) -/
  | lossOfLock (link : Nat)
  /-- PEER_LINK_LOST (R235) -/
  | peerLinkLost (link : Nat)
  /-- TDISP_START_INTERFACE (R52) -/
  | tdispStartInterface (port vfn : Nat)
  /-- LEASE_CREATION (R359) -/
  | leaseCreation (lease : Nat) (spec : LeaseSpec)
deriving DecidableEq, Repr

end Sys2Proof
end

