-- ==== Sys2Proof/WellFormed.lean ====
section
/-! DEFINITION. Which instruction words are well formed: the operand rules of 05 R91 and the field limits of
05 R97 to R99. A word that breaks one traps with cause 0x02 (05 R96). The steps of the other agents have no
operand rules. -/
namespace Sys2Proof

/-- Why a word's operands are refused. -/
inductive Defect where
  /-- A field that names a pair holds an odd number (05 R91). -/
  | oddPair
  /-- A block of registers passes v127 (05 R91). -/
  | blockBound
  /-- A field lies outside the limits of the instruction's encoding (05 R96). -/
  | fieldLimit
deriving DecidableEq, Repr

/-- A pair field must be even. -/
def pair (r : Fin 128) : Option Defect := if r.val % 2 = 0 then none else some .oddPair

/-- A block of n registers from r must end at or below v127. -/
def block (r : Fin 128) (n : Nat) : Option Defect := if r.val + n ≤ 128 then none else some .blockBound

/-- A limit on a field. -/
def limit (p : Prop) [Decidable p] : Option Defect := if p then none else some .fieldLimit

/-- The first defect of an instruction's operands, none when it is well formed. -/
def Instr.defect : Instr → Option Defect
  | .nop => none
  | .iadd _ _ _ => none
  | .isub _ _ _ => none
  | .imul _ _ _ => none
  | .imulh _ _ _ => none
  | .umulh _ _ _ => none
  | .imad _ _ _ => none
  | .imin _ _ _ => none
  | .imax _ _ _ => none
  | .umin _ _ _ => none
  | .umax _ _ _ => none
  | .iabs _ _ => none
  | .ineg _ _ => none
  | .idiv _ _ _ => none
  | .udiv _ _ _ => none
  | .irem _ _ _ => none
  | .urem _ _ _ => none
  | .andv _ _ _ => none
  | .orv _ _ _ => none
  | .xorv _ _ _ => none
  | .andn _ _ _ => none
  | .orn _ _ _ => none
  | .xnor _ _ _ => none
  | .shl _ _ _ => none
  | .shr _ _ _ => none
  | .sar _ _ _ => none
  | .rotl _ _ _ => none
  | .popc _ _ => none
  | .clz _ _ => none
  | .ctz _ _ => none
  | .brev _ _ => none
  | .sel _ _ _ => none
  | .mov _ _ => none
  | .icmp c _ _ _ => limit (c.val ≤ 9)
  | .aadd d a _ => pair d <|> pair a
  | .aaddz d a _ => pair d <|> pair a
  | .asub d a b => pair d <|> pair a <|> pair b
  | .amov d a => pair d <|> pair a
  | .acmpeq _ a b => pair a <|> pair b
  | .acmplt _ a b => pair a <|> pair b
  | .ashl d a _ => pair d <|> pair a
  | .amul d _ _ => pair d
  | .iaddi _ _ _ => none
  | .andi _ _ _ => none
  | .ori _ _ _ => none
  | .xori _ _ _ => none
  | .shli _ _ _ => none
  | .shri _ _ _ => none
  | .sari _ _ _ => none
  | .icmpi _ _ c _ => limit (c.val ≤ 9)
  | .aaddi d a _ => pair d <|> pair a
  | .bfx _ _ _ _ _ => none
  | .bfi _ _ _ _ _ => none
  | .imuli _ _ _ => none
  | .movi _ _ => none
  | .movh _ _ => none
  | .fadd _ _ _ => none
  | .fsub _ _ _ => none
  | .fmul _ _ _ => none
  | .fma _ _ _ => none
  | .fms _ _ _ => none
  | .fnma _ _ _ => none
  | .fmin _ _ _ => none
  | .fmax _ _ _ => none
  | .fabs _ _ => none
  | .fneg _ _ => none
  | .fcpsgn _ _ _ => none
  | .frnd _ _ _ => none
  | .fdiv _ _ _ => none
  | .fsqrt _ _ => none
  | .fsat _ _ => none
  | .fclass _ _ => none
  | .fcmp _ _ _ _ => none
  | .frcp _ _ => none
  | .frsq _ _ => none
  | .fexp2 _ _ => none
  | .flog2 _ _ => none
  | .fsinpi _ _ => none
  | .fcospi _ _ => none
  | .ftanh _ _ => none
  | .fsig _ _ => none
  | .hadd2 _ _ _ => none
  | .hsub2 _ _ _ => none
  | .hmul2 _ _ _ => none
  | .hfma2 _ _ _ => none
  | .hmin2 _ _ _ => none
  | .hmax2 _ _ _ => none
  | .badd2 _ _ _ => none
  | .bsub2 _ _ _ => none
  | .bmul2 _ _ _ => none
  | .bfma2 _ _ _ => none
  | .bmin2 _ _ _ => none
  | .bmax2 _ _ _ => none
  | .dp4i _ _ _ => none
  | .dp4n _ _ _ => none
  | .dp2h _ _ _ => none
  | .dp2b _ _ _ => none
  | .dp4e _ _ _ => none
  | .dp4f _ _ _ => none
  | .i2f _ _ _ => none
  | .n2f _ _ k j => limit (j.val < 4 * 2 ^ k.val)
  | .f2i _ _ _ => none
  | .f2n _ _ k j => limit (j.val < 4 * 2 ^ k.val)
  | .pkh _ _ _ => none
  | .pkb _ _ _ => none
  | .unh _ _ _ => none
  | .unb _ _ _ => none
  | .pk8e _ _ _ => none
  | .pk8f _ _ _ => none
  | .un8e _ _ _ => none
  | .un8f _ _ _ => none
  | .pk6 _ _ j => limit (j.val ≤ 4)
  | .un6 _ _ j => limit (j.val ≤ 4)
  | .pk4 _ _ _ => none
  | .un4 _ _ _ => none
  | .sx8 _ _ => none
  | .sx16 _ _ => none
  | .sat8 _ _ => none
  | .satz8 _ _ => none
  | .sat16 _ _ => none
  | .satz16 _ _ => none
  | .fxf _ a _ => pair a
  | .laneid _ => none
  | .gwidth _ => none
  | .cohort d => pair d
  | .vany _ _ => none
  | .vall _ _ => none
  | .ballot d _ => pair d
  | .matchEq d _ => pair d
  | .shfl _ _ _ => none
  | .shup _ _ _ => none
  | .shdn _ _ _ => none
  | .shxor _ _ _ => none
  | .redadd _ _ => none
  | .redmin _ _ => none
  | .redmax _ _ => none
  | .bcast _ _ => none
  | .redand _ _ => none
  | .fredadd _ _ => none
  | .fredmin _ _ => none
  | .fredmax _ _ => none
  | .redor _ _ => none
  | .redxor _ _ => none
  | .sreg _ i => limit (i.val ≤ 23)
  | .sregw _ i => limit (i.val = 21 ∨ i.val = 22)
  | .ldB _ a _ => pair a
  | .ldBs _ a _ => pair a
  | .ldH _ a _ => pair a
  | .ldHs _ a _ => pair a
  | .ldW _ a _ => pair a
  | .ldD d a _ => pair a <|> pair d
  | .ldQ d a _ => pair a <|> pair d <|> block d 4
  | .stB _ a _ => pair a
  | .stH _ a _ => pair a
  | .stW _ a _ => pair a
  | .stD d a _ => pair a <|> pair d
  | .stQ d a _ => pair a <|> pair d <|> block d 4
  | .ldbW _ a _ _ _ => pair a
  | .ldbD d a _ _ _ => pair a <|> pair d
  | .ldbQ d a _ _ _ => pair a <|> pair d <|> block d 4
  | .ldaH _ _ _ => none
  | .ldaW _ _ _ => none
  | .ldaQ d _ _ => block d 4
  | .staH _ _ _ => none
  | .staW _ _ _ => none
  | .staQ d _ _ => block d 4
  | .ldwQ d _ _ => block d 4
  | .stwQ d _ _ => block d 4
  | .atomAdd _ _ _ a _ => pair a
  | .atomMin _ _ _ a _ => pair a
  | .atomMax _ _ _ a _ => pair a
  | .atomUmin _ _ _ a _ => pair a
  | .atomUmax _ _ _ a _ => pair a
  | .atomAnd _ _ _ a _ => pair a
  | .atomOr _ _ _ a _ => pair a
  | .atomXor _ _ _ a _ => pair a
  | .atomXchg _ _ _ a _ => pair a
  | .atomCas _ _ _ a _ => pair a
  | .atomFadd _ _ _ a _ => pair a
  | .atomAdd64 _ _ d a b => pair a <|> pair d <|> pair b
  | .redAdd o _ a _ => pair a <|> limit (o.val = 0 ∨ o.val = 2)
  | .redMin o _ a _ => pair a <|> limit (o.val = 0 ∨ o.val = 2)
  | .redMax o _ a _ => pair a <|> limit (o.val = 0 ∨ o.val = 2)
  | .redAnd o _ a _ => pair a <|> limit (o.val = 0 ∨ o.val = 2)
  | .redOr o _ a _ => pair a <|> limit (o.val = 0 ∨ o.val = 2)
  | .redXor o _ a _ => pair a <|> limit (o.val = 0 ∨ o.val = 2)
  | .redFadd o _ a _ => pair a <|> limit (o.val = 0 ∨ o.val = 2)
  | .scaAdd _ _ _ => none
  | .scaMin _ _ _ => none
  | .scaMax _ _ _ => none
  | .scaUmin _ _ _ => none
  | .scaUmax _ _ _ => none
  | .scaAnd _ _ _ => none
  | .scaOr _ _ _ => none
  | .scaXor _ _ _ => none
  | .scaXchg _ _ _ => none
  | .scaCas _ _ _ => none
  | .scaFadd _ _ _ => none
  | .saccW a _ => pair a
  | .saccF a _ => pair a
  | .fence _ o => limit (1 ≤ o.val)
  | .radv _ _ => none
  | .racq _ _ _ => none
  | .rview _ _ => none
  | .rviewCnt _ _ => none
  | .mon a => pair a
  | .mwait _ _ => none
  | .mwaitTrap _ _ => none
  | .munarm => none
  | .sdrain => none
  | .cinv a => pair a
  | .pfetch a => pair a
  | .pfl2 a => pair a
  | .pdisc _ a => pair a
  | .br _ => none
  | .brnz _ _ => none
  | .brz _ _ => none
  | .call a _ => pair a
  | .jmp a => pair a
  | .jmpl d a => pair d <|> pair a
  | .jpush => none
  | .jwait => none
  | .jdrop _ => none
  | .jdepth _ => none
  | .exitv _ => none
  | .bar => none
  | .refill _ => none
  | .trapv _ => none
  | .yield => none
  | .sysr _ n => limit (n.val ≤ 32)
  | .sysw _ n => limit (n.val ≤ 32)
  | .cfgr d _ => pair d
  | .cfgw _ b => pair b
  | .tlbiVa _ a => pair a
  | .tlbiTa _ a => pair a
  | .tlbiAll _ => none
  | .eret => none
  | .trlane _ _ _ => none
  | .twlane _ _ _ => none
  | .halt _ => none
  | .haltLaunch _ => none
  | .haltTenant _ => none
  | .haltOther _ _ => none
  | .cpy d => block d 4
  | .cpg d _ => block d 4
  | .cps d _ => block d 4
  | .cpxw d => block d 4
  | .cpxr d => block d 4
  | .cpf d => block d 4
  | .mmul d => block d 4
  | .mmulw d => block d 4
  | .mmsp d => block d 4
  | .mzero d => block d 2
  | .mepi d => block d 4
  | .mfence => none
  | .acrd _ _ _ => none
  | .acwr _ _ _ => none
  | .acst _ _ => none
  | .sinc _ _ => none
  | .swait _ _ => none
  | .sset _ _ => none
  | .sget _ _ w => limit (w.val ≤ 9)
  | .sdec _ _ => none
  | .rtsend _ a n => limit (a.val + n.val ≤ 127)
  | .rtrecv d _ n => limit (d.val + n.val ≤ 127)
  | .rtsendq _ _ _ => none
  | .rtrecvq d _ => pair d
  | .rtstat _ _ => none
  | .wpush _ a _ => pair a
  | .wjoin _ a => pair a
  | .ipush _ _ => none
  | .shset _ a _ => block a 16
  | .shinv _ => none
  | .rep _ _ _ _ => none
  | .queueAppend _ _ _ _ => none
  | .queueEnable _ _ _ => none
  | .queueDisable _ _ _ => none
  | .queueClr _ _ => none
  | .dispatchTake _ _ => none
  | .teamRelease _ => none
  | .coopBlock _ => none
  | .holdListDrain _ _ => none
  | .successorJoin _ => none
  | .teamExit _ => none
  | .itemChunkDeal _ _ => none
  | .powerWaitExpire _ => none
  | .quadPowerReady _ => none
  | .quadGate _ => none
  | .swapOutEligible _ => none
  | .swapOutForced _ => none
  | .swapIn _ => none
  | .quadFailure _ _ _ => none
  | .trimFailure _ _ => none
  | .bypassFailure _ => none
  | .latmatSweep _ _ => none
  | .capRaise _ _ => none
  | .engineDead _ => none
  | .cohortForm _ _ => none
  | .prewaitRelease _ _ => none
  | .switchParkEnd _ _ => none
  | .resultWrite _ _ => none
  | .storeFaultReport _ => none
  | .skidCountDeliver _ _ => none
  | .faultResponse _ _ => none
  | .fbheadWrite _ _ => none
  | .clrovfWrite _ _ => none
  | .homeReadMiss _ => none
  | .l1Fill _ => none
  | .homeStoreApply _ => none
  | .sharerUpdate _ => none
  | .storeAck _ => none
  | .listSplice _ _ => none
  | .l2Evict _ => none
  | .homeAtomic _ => none
  | .pinRefusalRetry _ => none
  | .viewBroadcast _ _ _ => none
  | .roundRefetch _ => none
  | .mwaitDeadline _ _ => none
  | .hostCompletion _ _ => none
  | .hostTimeout _ => none
  | .pageFillDone _ => none
  | .tokenRefill => none
  | .walkaheadTranslate _ _ => none
  | .engineAccept _ _ => none
  | .copyBlock _ _ => none
  | .copyComplete _ _ => none
  | .churnStep _ _ => none
  | .matrixComplete _ _ => none
  | .routeWordArrive _ _ _ _ => none
  | .routeBreak _ _ _ _ => none
  | .routeEnable _ _ _ _ => none
  | .routeDisable _ _ _ _ => none
  | .attrEntryWrite _ _ _ _ => none
  | .s1rootWrite _ _ _ => none
  | .s2rootWrite _ _ _ => none
  | .descConfigure _ _ => none
  | .descCommit _ _ => none
  | .descUncommit _ _ => none
  | .descRun _ _ => none
  | .descPreempt _ _ => none
  | .descRestore _ _ => none
  | .descHoldOut _ _ => none
  | .descFree _ _ => none
  | .descRecover _ _ => none
  | .quantumWrite _ _ _ => none
  | .vminReset _ => none
  | .registerWrite _ _ _ => none
  | .preemptHardStop _ _ => none
  | .engineStopAck _ _ _ => none
  | .saveDone _ _ _ => none
  | .preemptKill _ _ => none
  | .quantumExpire _ _ => none
  | .peerAccessReceive _ _ _ _ => none
  | .flitAck _ _ => none
  | .flitReplay _ => none
  | .packetTagDrop _ => none
  | .voltageSample _ _ => none
  | .powerSample _ _ => none
  | .spdmGetMeasurements _ _ _ => none
  | .tdispLockInterface _ _ => none
  | .boot _ => none
  | .restoreDone _ _ => none
  | .lossOfLock _ => none
  | .peerLinkLost _ => none
  | .tdispStartInterface _ _ => none
  | .leaseCreation _ _ => none

/-- Well formed: no operand rule is broken. -/
def Instr.WellFormed (i : Instr) : Bool := i.defect.isNone

end Sys2Proof
end

