-- ==== Sys2Proof/Decode.lean ====
section
/-! DEFINITION. The decoder and the encoder of instruction words, from 05 R90 to R99 and the encoding tables of
06, 07, 09, 10, 12 and 17. Decoding is total: a word that no row admits is rejected by name. The definitions marked noncomputable
build constructors past the 245th, which Lean's compiler cannot lay out (its runtime holds a constructor's number
in a byte); Lean's kernel evaluates them, and Machine/Words.lean gives the step a compiled twin. -/
namespace Sys2Proof

open Machine

/-- Why a word is not an instruction; each one is cause 0x02 at its word (05 R96). -/
inductive Reject where
  /-- The major opcode is unassigned (05 R97 to R99). -/
  | unassignedMajor
  /-- The fn value is reserved. -/
  | reservedFn
  /-- A field the instruction leaves unused is not zero (05 R91). -/
  | unusedField
  /-- An operand rule is broken. -/
  | operand (d : Defect)
deriving DecidableEq, Repr

/-- The field of w that begins at bit lo, as a number below n. -/
def fin (n w lo : Nat) [NeZero n] : Fin n := Fin.ofNat n (w / 2 ^ lo)

/-- An instruction, unless one of its unused fields is not zero. -/
def unused (p : Prop) [Decidable p] (i : Instr) : Except Reject Instr :=
  if p then .ok i else .error .unusedField

/-- Major 0x00: nop. -/
def decode00 (w : Nat) : Except Reject Instr :=
  unused (bits w 24 0 = 0) .nop

/-- Major 0x01: iadd, isub, imul, imulh, umulh, imad, imin, imax, umin, umax, iabs, ineg, idiv, udiv, irem, urem. -/
def decode01 (w : Nat) : Except Reject Instr :=
  match bits w 24 21 with
  | 0 => .ok (.iadd (fin 128 w 14) (fin 128 w 7) (fin 128 w 0))
  | 1 => .ok (.isub (fin 128 w 14) (fin 128 w 7) (fin 128 w 0))
  | 2 => .ok (.imul (fin 128 w 14) (fin 128 w 7) (fin 128 w 0))
  | 3 => .ok (.imulh (fin 128 w 14) (fin 128 w 7) (fin 128 w 0))
  | 4 => .ok (.umulh (fin 128 w 14) (fin 128 w 7) (fin 128 w 0))
  | 5 => .ok (.imad (fin 128 w 14) (fin 128 w 7) (fin 128 w 0))
  | 6 => .ok (.imin (fin 128 w 14) (fin 128 w 7) (fin 128 w 0))
  | 7 => .ok (.imax (fin 128 w 14) (fin 128 w 7) (fin 128 w 0))
  | 8 => .ok (.umin (fin 128 w 14) (fin 128 w 7) (fin 128 w 0))
  | 9 => .ok (.umax (fin 128 w 14) (fin 128 w 7) (fin 128 w 0))
  | 10 => unused (bits w 6 0 = 0) (.iabs (fin 128 w 14) (fin 128 w 7))
  | 11 => unused (bits w 6 0 = 0) (.ineg (fin 128 w 14) (fin 128 w 7))
  | 12 => .ok (.idiv (fin 128 w 14) (fin 128 w 7) (fin 128 w 0))
  | 13 => .ok (.udiv (fin 128 w 14) (fin 128 w 7) (fin 128 w 0))
  | 14 => .ok (.irem (fin 128 w 14) (fin 128 w 7) (fin 128 w 0))
  | 15 => .ok (.urem (fin 128 w 14) (fin 128 w 7) (fin 128 w 0))
  | _ => .error .reservedFn

/-- Major 0x02: and, or, xor, andn, orn, xnor, shl, shr, sar, rotl, popc, clz, ctz, brev, sel, mov. -/
def decode02 (w : Nat) : Except Reject Instr :=
  match bits w 24 21 with
  | 0 => .ok (.andv (fin 128 w 14) (fin 128 w 7) (fin 128 w 0))
  | 1 => .ok (.orv (fin 128 w 14) (fin 128 w 7) (fin 128 w 0))
  | 2 => .ok (.xorv (fin 128 w 14) (fin 128 w 7) (fin 128 w 0))
  | 3 => .ok (.andn (fin 128 w 14) (fin 128 w 7) (fin 128 w 0))
  | 4 => .ok (.orn (fin 128 w 14) (fin 128 w 7) (fin 128 w 0))
  | 5 => .ok (.xnor (fin 128 w 14) (fin 128 w 7) (fin 128 w 0))
  | 6 => .ok (.shl (fin 128 w 14) (fin 128 w 7) (fin 128 w 0))
  | 7 => .ok (.shr (fin 128 w 14) (fin 128 w 7) (fin 128 w 0))
  | 8 => .ok (.sar (fin 128 w 14) (fin 128 w 7) (fin 128 w 0))
  | 9 => .ok (.rotl (fin 128 w 14) (fin 128 w 7) (fin 128 w 0))
  | 10 => unused (bits w 6 0 = 0) (.popc (fin 128 w 14) (fin 128 w 7))
  | 11 => unused (bits w 6 0 = 0) (.clz (fin 128 w 14) (fin 128 w 7))
  | 12 => unused (bits w 6 0 = 0) (.ctz (fin 128 w 14) (fin 128 w 7))
  | 13 => unused (bits w 6 0 = 0) (.brev (fin 128 w 14) (fin 128 w 7))
  | 14 => .ok (.sel (fin 128 w 14) (fin 128 w 7) (fin 128 w 0))
  | 15 => unused (bits w 6 0 = 0) (.mov (fin 128 w 14) (fin 128 w 7))
  | _ => .error .reservedFn

/-- Major 0x03: icmp.cc. -/
def decode03 (w : Nat) : Except Reject Instr :=
  .ok (.icmp (fin 16 w 21) (fin 128 w 14) (fin 128 w 7) (fin 128 w 0))

/-- Major 0x04: aadd, aaddz, asub, amov, acmpeq, acmplt, ashl, amul. -/
def decode04 (w : Nat) : Except Reject Instr :=
  match bits w 24 21 with
  | 0 => .ok (.aadd (fin 128 w 14) (fin 128 w 7) (fin 128 w 0))
  | 1 => .ok (.aaddz (fin 128 w 14) (fin 128 w 7) (fin 128 w 0))
  | 2 => .ok (.asub (fin 128 w 14) (fin 128 w 7) (fin 128 w 0))
  | 3 => unused (bits w 6 0 = 0) (.amov (fin 128 w 14) (fin 128 w 7))
  | 4 => .ok (.acmpeq (fin 128 w 14) (fin 128 w 7) (fin 128 w 0))
  | 5 => .ok (.acmplt (fin 128 w 14) (fin 128 w 7) (fin 128 w 0))
  | 6 => .ok (.ashl (fin 128 w 14) (fin 128 w 7) (fin 128 w 0))
  | 7 => .ok (.amul (fin 128 w 14) (fin 128 w 7) (fin 128 w 0))
  | _ => .error .reservedFn

/-- Major 0x08: iaddi. -/
def decode08 (w : Nat) : Except Reject Instr :=
  .ok (.iaddi (fin 128 w 18) (fin 128 w 11) (fin 2048 w 0))

/-- Major 0x09: andi. -/
def decode09 (w : Nat) : Except Reject Instr :=
  .ok (.andi (fin 128 w 18) (fin 128 w 11) (fin 2048 w 0))

/-- Major 0x0A: ori. -/
def decode0A (w : Nat) : Except Reject Instr :=
  .ok (.ori (fin 128 w 18) (fin 128 w 11) (fin 2048 w 0))

/-- Major 0x0B: xori. -/
def decode0B (w : Nat) : Except Reject Instr :=
  .ok (.xori (fin 128 w 18) (fin 128 w 11) (fin 2048 w 0))

/-- Major 0x0C: shli. -/
def decode0C (w : Nat) : Except Reject Instr :=
  .ok (.shli (fin 128 w 18) (fin 128 w 11) (fin 2048 w 0))

/-- Major 0x0D: shri. -/
def decode0D (w : Nat) : Except Reject Instr :=
  .ok (.shri (fin 128 w 18) (fin 128 w 11) (fin 2048 w 0))

/-- Major 0x0E: sari. -/
def decode0E (w : Nat) : Except Reject Instr :=
  .ok (.sari (fin 128 w 18) (fin 128 w 11) (fin 2048 w 0))

/-- Major 0x0F: icmpi.cc. -/
def decode0F (w : Nat) : Except Reject Instr :=
  .ok (.icmpi (fin 128 w 18) (fin 128 w 11) (fin 16 w 7) (fin 128 w 0))

/-- Major 0x10: aaddi. -/
def decode10 (w : Nat) : Except Reject Instr :=
  .ok (.aaddi (fin 128 w 18) (fin 128 w 11) (fin 2048 w 0))

/-- Major 0x11: bfx. -/
def decode11 (w : Nat) : Except Reject Instr :=
  .ok (.bfx (fin 128 w 18) (fin 128 w 11) (fin 2 w 10) (fin 32 w 5) (fin 32 w 0))

/-- Major 0x12: bfi. -/
def decode12 (w : Nat) : Except Reject Instr :=
  .ok (.bfi (fin 128 w 18) (fin 128 w 11) (fin 2 w 10) (fin 32 w 5) (fin 32 w 0))

/-- Major 0x13: imuli. -/
def decode13 (w : Nat) : Except Reject Instr :=
  .ok (.imuli (fin 128 w 18) (fin 128 w 11) (fin 2048 w 0))

/-- Major 0x14: movi. -/
def decode14 (w : Nat) : Except Reject Instr :=
  .ok (.movi (fin 128 w 18) (fin 262144 w 0))

/-- Major 0x15: movh. -/
def decode15 (w : Nat) : Except Reject Instr :=
  unused (bits w 17 16 = 0) (.movh (fin 128 w 18) (fin 65536 w 0))

/-- Major 0x18: fadd, fsub, fmul, fma, fms, fnma, fmin, fmax, fabs, fneg, fcpsgn, frnd, fdiv, fsqrt, fsat, fclass. -/
def decode18 (w : Nat) : Except Reject Instr :=
  match bits w 24 21 with
  | 0 => .ok (.fadd (fin 128 w 14) (fin 128 w 7) (fin 128 w 0))
  | 1 => .ok (.fsub (fin 128 w 14) (fin 128 w 7) (fin 128 w 0))
  | 2 => .ok (.fmul (fin 128 w 14) (fin 128 w 7) (fin 128 w 0))
  | 3 => .ok (.fma (fin 128 w 14) (fin 128 w 7) (fin 128 w 0))
  | 4 => .ok (.fms (fin 128 w 14) (fin 128 w 7) (fin 128 w 0))
  | 5 => .ok (.fnma (fin 128 w 14) (fin 128 w 7) (fin 128 w 0))
  | 6 => .ok (.fmin (fin 128 w 14) (fin 128 w 7) (fin 128 w 0))
  | 7 => .ok (.fmax (fin 128 w 14) (fin 128 w 7) (fin 128 w 0))
  | 8 => unused (bits w 6 0 = 0) (.fabs (fin 128 w 14) (fin 128 w 7))
  | 9 => unused (bits w 6 0 = 0) (.fneg (fin 128 w 14) (fin 128 w 7))
  | 10 => .ok (.fcpsgn (fin 128 w 14) (fin 128 w 7) (fin 128 w 0))
  | 11 => unused (bits w 6 3 = 0) (.frnd (fin 128 w 14) (fin 128 w 7) (fin 8 w 0))
  | 12 => .ok (.fdiv (fin 128 w 14) (fin 128 w 7) (fin 128 w 0))
  | 13 => unused (bits w 6 0 = 0) (.fsqrt (fin 128 w 14) (fin 128 w 7))
  | 14 => unused (bits w 6 0 = 0) (.fsat (fin 128 w 14) (fin 128 w 7))
  | 15 => unused (bits w 6 0 = 0) (.fclass (fin 128 w 14) (fin 128 w 7))
  | _ => .error .reservedFn

/-- Major 0x19: fcmp.cc. -/
def decode19 (w : Nat) : Except Reject Instr :=
  if bits w 24 24 = 0 then .ok (.fcmp (fin 8 w 21) (fin 128 w 14) (fin 128 w 7) (fin 128 w 0)) else .error .reservedFn

/-- Major 0x1A: frcp, frsq, fexp2, flog2, fsinpi, fcospi, ftanh, fsig. -/
def decode1A (w : Nat) : Except Reject Instr :=
  match bits w 24 21 with
  | 0 => unused (bits w 6 0 = 0) (.frcp (fin 128 w 14) (fin 128 w 7))
  | 1 => unused (bits w 6 0 = 0) (.frsq (fin 128 w 14) (fin 128 w 7))
  | 2 => unused (bits w 6 0 = 0) (.fexp2 (fin 128 w 14) (fin 128 w 7))
  | 3 => unused (bits w 6 0 = 0) (.flog2 (fin 128 w 14) (fin 128 w 7))
  | 4 => unused (bits w 6 0 = 0) (.fsinpi (fin 128 w 14) (fin 128 w 7))
  | 5 => unused (bits w 6 0 = 0) (.fcospi (fin 128 w 14) (fin 128 w 7))
  | 6 => unused (bits w 6 0 = 0) (.ftanh (fin 128 w 14) (fin 128 w 7))
  | 7 => unused (bits w 6 0 = 0) (.fsig (fin 128 w 14) (fin 128 w 7))
  | _ => .error .reservedFn

/-- Major 0x1B: hadd2, hsub2, hmul2, hfma2, hmin2, hmax2, badd2, bsub2, bmul2, bfma2, bmin2, bmax2. -/
def decode1B (w : Nat) : Except Reject Instr :=
  match bits w 24 21 with
  | 0 => .ok (.hadd2 (fin 128 w 14) (fin 128 w 7) (fin 128 w 0))
  | 1 => .ok (.hsub2 (fin 128 w 14) (fin 128 w 7) (fin 128 w 0))
  | 2 => .ok (.hmul2 (fin 128 w 14) (fin 128 w 7) (fin 128 w 0))
  | 3 => .ok (.hfma2 (fin 128 w 14) (fin 128 w 7) (fin 128 w 0))
  | 4 => .ok (.hmin2 (fin 128 w 14) (fin 128 w 7) (fin 128 w 0))
  | 5 => .ok (.hmax2 (fin 128 w 14) (fin 128 w 7) (fin 128 w 0))
  | 8 => .ok (.badd2 (fin 128 w 14) (fin 128 w 7) (fin 128 w 0))
  | 9 => .ok (.bsub2 (fin 128 w 14) (fin 128 w 7) (fin 128 w 0))
  | 10 => .ok (.bmul2 (fin 128 w 14) (fin 128 w 7) (fin 128 w 0))
  | 11 => .ok (.bfma2 (fin 128 w 14) (fin 128 w 7) (fin 128 w 0))
  | 12 => .ok (.bmin2 (fin 128 w 14) (fin 128 w 7) (fin 128 w 0))
  | 13 => .ok (.bmax2 (fin 128 w 14) (fin 128 w 7) (fin 128 w 0))
  | _ => .error .reservedFn

/-- Major 0x1C: dp4i, dp4n, dp2h, dp2b, dp4e, dp4f. -/
def decode1C (w : Nat) : Except Reject Instr :=
  match bits w 24 21 with
  | 0 => .ok (.dp4i (fin 128 w 14) (fin 128 w 7) (fin 128 w 0))
  | 1 => .ok (.dp4n (fin 128 w 14) (fin 128 w 7) (fin 128 w 0))
  | 2 => .ok (.dp2h (fin 128 w 14) (fin 128 w 7) (fin 128 w 0))
  | 3 => .ok (.dp2b (fin 128 w 14) (fin 128 w 7) (fin 128 w 0))
  | 4 => .ok (.dp4e (fin 128 w 14) (fin 128 w 7) (fin 128 w 0))
  | 5 => .ok (.dp4f (fin 128 w 14) (fin 128 w 7) (fin 128 w 0))
  | _ => .error .reservedFn

/-- Major 0x1D: i2f, n2f, f2i, f2n, pkh, pkb, unh, unb, pk8e, pk8f, un8e, un8f, pk6, un6, pk4, un4. -/
def decode1D (w : Nat) : Except Reject Instr :=
  match bits w 24 21 with
  | 0 => unused (bits w 6 1 = 0) (.i2f (fin 128 w 14) (fin 128 w 7) (fin 2 w 0))
  | 1 => .ok (.n2f (fin 128 w 14) (fin 128 w 7) (fin 4 w 5) (fin 32 w 0))
  | 2 => unused (bits w 6 2 = 0) (.f2i (fin 128 w 14) (fin 128 w 7) (fin 4 w 0))
  | 3 => .ok (.f2n (fin 128 w 14) (fin 128 w 7) (fin 4 w 5) (fin 32 w 0))
  | 4 => unused (bits w 6 1 = 0) (.pkh (fin 128 w 14) (fin 128 w 7) (fin 2 w 0))
  | 5 => unused (bits w 6 1 = 0) (.pkb (fin 128 w 14) (fin 128 w 7) (fin 2 w 0))
  | 6 => unused (bits w 6 1 = 0) (.unh (fin 128 w 14) (fin 128 w 7) (fin 2 w 0))
  | 7 => unused (bits w 6 1 = 0) (.unb (fin 128 w 14) (fin 128 w 7) (fin 2 w 0))
  | 8 => unused (bits w 6 2 = 0) (.pk8e (fin 128 w 14) (fin 128 w 7) (fin 4 w 0))
  | 9 => unused (bits w 6 2 = 0) (.pk8f (fin 128 w 14) (fin 128 w 7) (fin 4 w 0))
  | 10 => unused (bits w 6 2 = 0) (.un8e (fin 128 w 14) (fin 128 w 7) (fin 4 w 0))
  | 11 => unused (bits w 6 2 = 0) (.un8f (fin 128 w 14) (fin 128 w 7) (fin 4 w 0))
  | 12 => unused (bits w 6 3 = 0) (.pk6 (fin 128 w 14) (fin 128 w 7) (fin 8 w 0))
  | 13 => unused (bits w 6 3 = 0) (.un6 (fin 128 w 14) (fin 128 w 7) (fin 8 w 0))
  | 14 => unused (bits w 6 3 = 0) (.pk4 (fin 128 w 14) (fin 128 w 7) (fin 8 w 0))
  | 15 => unused (bits w 6 3 = 0) (.un4 (fin 128 w 14) (fin 128 w 7) (fin 8 w 0))
  | _ => .error .reservedFn

/-- Major 0x1E: sx8, sx16, sat8, satz8, sat16, satz16, fxf. -/
def decode1E (w : Nat) : Except Reject Instr :=
  match bits w 24 21 with
  | 0 => unused (bits w 6 0 = 0) (.sx8 (fin 128 w 14) (fin 128 w 7))
  | 1 => unused (bits w 6 0 = 0) (.sx16 (fin 128 w 14) (fin 128 w 7))
  | 2 => unused (bits w 6 0 = 0) (.sat8 (fin 128 w 14) (fin 128 w 7))
  | 3 => unused (bits w 6 0 = 0) (.satz8 (fin 128 w 14) (fin 128 w 7))
  | 4 => unused (bits w 6 0 = 0) (.sat16 (fin 128 w 14) (fin 128 w 7))
  | 5 => unused (bits w 6 0 = 0) (.satz16 (fin 128 w 14) (fin 128 w 7))
  | 6 => unused (bits w 6 6 = 0) (.fxf (fin 128 w 14) (fin 128 w 7) (fin 64 w 0))
  | _ => .error .reservedFn

/-- Major 0x20: laneid, gwidth, cohort, vany, vall, ballot, match, shfl, shup, shdn, shxor, redadd, redmin, redmax, bcast, redand. -/
def decode20 (w : Nat) : Except Reject Instr :=
  match bits w 24 21 with
  | 0 => unused (bits w 13 0 = 0) (.laneid (fin 128 w 14))
  | 1 => unused (bits w 13 0 = 0) (.gwidth (fin 128 w 14))
  | 2 => unused (bits w 13 0 = 0) (.cohort (fin 128 w 14))
  | 3 => unused (bits w 6 0 = 0) (.vany (fin 128 w 14) (fin 128 w 7))
  | 4 => unused (bits w 6 0 = 0) (.vall (fin 128 w 14) (fin 128 w 7))
  | 5 => unused (bits w 6 0 = 0) (.ballot (fin 128 w 14) (fin 128 w 7))
  | 6 => unused (bits w 6 0 = 0) (.matchEq (fin 128 w 14) (fin 128 w 7))
  | 7 => .ok (.shfl (fin 128 w 14) (fin 128 w 7) (fin 128 w 0))
  | 8 => unused (bits w 6 6 = 0) (.shup (fin 128 w 14) (fin 128 w 7) (fin 64 w 0))
  | 9 => unused (bits w 6 6 = 0) (.shdn (fin 128 w 14) (fin 128 w 7) (fin 64 w 0))
  | 10 => unused (bits w 6 6 = 0) (.shxor (fin 128 w 14) (fin 128 w 7) (fin 64 w 0))
  | 11 => unused (bits w 6 0 = 0) (.redadd (fin 128 w 14) (fin 128 w 7))
  | 12 => unused (bits w 6 0 = 0) (.redmin (fin 128 w 14) (fin 128 w 7))
  | 13 => unused (bits w 6 0 = 0) (.redmax (fin 128 w 14) (fin 128 w 7))
  | 14 => unused (bits w 6 0 = 0) (.bcast (fin 128 w 14) (fin 128 w 7))
  | 15 => unused (bits w 6 0 = 0) (.redand (fin 128 w 14) (fin 128 w 7))
  | _ => .error .reservedFn

/-- Major 0x21: fredadd, fredmin, fredmax, redor, redxor. -/
def decode21 (w : Nat) : Except Reject Instr :=
  match bits w 24 21 with
  | 0 => unused (bits w 6 0 = 0) (.fredadd (fin 128 w 14) (fin 128 w 7))
  | 1 => unused (bits w 6 0 = 0) (.fredmin (fin 128 w 14) (fin 128 w 7))
  | 2 => unused (bits w 6 0 = 0) (.fredmax (fin 128 w 14) (fin 128 w 7))
  | 3 => unused (bits w 6 0 = 0) (.redor (fin 128 w 14) (fin 128 w 7))
  | 4 => unused (bits w 6 0 = 0) (.redxor (fin 128 w 14) (fin 128 w 7))
  | _ => .error .reservedFn

/-- Major 0x22: sreg. -/
def decode22 (w : Nat) : Except Reject Instr :=
  unused (bits w 17 11 = 0) (.sreg (fin 128 w 18) (fin 2048 w 0))

/-- Major 0x23: sregw. -/
def decode23 (w : Nat) : Except Reject Instr :=
  unused (bits w 24 18 = 0) (.sregw (fin 128 w 11) (fin 2048 w 0))

/-- Major 0x30: ld.b. -/
def decode30 (w : Nat) : Except Reject Instr :=
  .ok (.ldB (fin 128 w 18) (fin 128 w 11) (fin 2048 w 0))

/-- Major 0x31: ld.bs. -/
def decode31 (w : Nat) : Except Reject Instr :=
  .ok (.ldBs (fin 128 w 18) (fin 128 w 11) (fin 2048 w 0))

/-- Major 0x32: ld.h. -/
def decode32 (w : Nat) : Except Reject Instr :=
  .ok (.ldH (fin 128 w 18) (fin 128 w 11) (fin 2048 w 0))

/-- Major 0x33: ld.hs. -/
def decode33 (w : Nat) : Except Reject Instr :=
  .ok (.ldHs (fin 128 w 18) (fin 128 w 11) (fin 2048 w 0))

/-- Major 0x34: ld.w. -/
def decode34 (w : Nat) : Except Reject Instr :=
  .ok (.ldW (fin 128 w 18) (fin 128 w 11) (fin 2048 w 0))

/-- Major 0x35: ld.d. -/
def decode35 (w : Nat) : Except Reject Instr :=
  .ok (.ldD (fin 128 w 18) (fin 128 w 11) (fin 2048 w 0))

/-- Major 0x36: ld.q. -/
def decode36 (w : Nat) : Except Reject Instr :=
  .ok (.ldQ (fin 128 w 18) (fin 128 w 11) (fin 2048 w 0))

/-- Major 0x38: st.b. -/
def decode38 (w : Nat) : Except Reject Instr :=
  .ok (.stB (fin 128 w 18) (fin 128 w 11) (fin 2048 w 0))

/-- Major 0x39: st.h. -/
def decode39 (w : Nat) : Except Reject Instr :=
  .ok (.stH (fin 128 w 18) (fin 128 w 11) (fin 2048 w 0))

/-- Major 0x3A: st.w. -/
def decode3A (w : Nat) : Except Reject Instr :=
  .ok (.stW (fin 128 w 18) (fin 128 w 11) (fin 2048 w 0))

/-- Major 0x3B: st.d. -/
def decode3B (w : Nat) : Except Reject Instr :=
  .ok (.stD (fin 128 w 18) (fin 128 w 11) (fin 2048 w 0))

/-- Major 0x3C: st.q. -/
def decode3C (w : Nat) : Except Reject Instr :=
  .ok (.stQ (fin 128 w 18) (fin 128 w 11) (fin 2048 w 0))

/-- Major 0x3D: ldb.w. -/
def decode3D (w : Nat) : Except Reject Instr :=
  .ok (.ldbW (fin 128 w 18) (fin 128 w 11) (fin 16 w 7) (fin 2 w 6) (fin 64 w 0))

/-- Major 0x3E: ldb.d. -/
def decode3E (w : Nat) : Except Reject Instr :=
  .ok (.ldbD (fin 128 w 18) (fin 128 w 11) (fin 16 w 7) (fin 2 w 6) (fin 64 w 0))

/-- Major 0x3F: ldb.q. -/
def decode3F (w : Nat) : Except Reject Instr :=
  .ok (.ldbQ (fin 128 w 18) (fin 128 w 11) (fin 16 w 7) (fin 2 w 6) (fin 64 w 0))

/-- Major 0x40: lda.h. -/
def decode40 (w : Nat) : Except Reject Instr :=
  .ok (.ldaH (fin 128 w 18) (fin 128 w 11) (fin 2048 w 0))

/-- Major 0x41: lda.w. -/
def decode41 (w : Nat) : Except Reject Instr :=
  .ok (.ldaW (fin 128 w 18) (fin 128 w 11) (fin 2048 w 0))

/-- Major 0x42: lda.q. -/
def decode42 (w : Nat) : Except Reject Instr :=
  .ok (.ldaQ (fin 128 w 18) (fin 128 w 11) (fin 2048 w 0))

/-- Major 0x43: sta.h. -/
def decode43 (w : Nat) : Except Reject Instr :=
  .ok (.staH (fin 128 w 18) (fin 128 w 11) (fin 2048 w 0))

/-- Major 0x44: sta.w. -/
def decode44 (w : Nat) : Except Reject Instr :=
  .ok (.staW (fin 128 w 18) (fin 128 w 11) (fin 2048 w 0))

/-- Major 0x45: sta.q. -/
def decode45 (w : Nat) : Except Reject Instr :=
  .ok (.staQ (fin 128 w 18) (fin 128 w 11) (fin 2048 w 0))

/-- Major 0x46: ldw.q. -/
def decode46 (w : Nat) : Except Reject Instr :=
  .ok (.ldwQ (fin 128 w 18) (fin 128 w 11) (fin 2048 w 0))

/-- Major 0x47: stw.q. -/
def decode47 (w : Nat) : Except Reject Instr :=
  .ok (.stwQ (fin 128 w 18) (fin 128 w 11) (fin 2048 w 0))

/-- Major 0x48: atom.add. -/
def decode48 (w : Nat) : Except Reject Instr :=
  .ok (.atomAdd (fin 4 w 23) (fin 4 w 21) (fin 128 w 14) (fin 128 w 7) (fin 128 w 0))

/-- Major 0x49: atom.min. -/
def decode49 (w : Nat) : Except Reject Instr :=
  .ok (.atomMin (fin 4 w 23) (fin 4 w 21) (fin 128 w 14) (fin 128 w 7) (fin 128 w 0))

/-- Major 0x4A: atom.max. -/
def decode4A (w : Nat) : Except Reject Instr :=
  .ok (.atomMax (fin 4 w 23) (fin 4 w 21) (fin 128 w 14) (fin 128 w 7) (fin 128 w 0))

/-- Major 0x4B: atom.umin. -/
def decode4B (w : Nat) : Except Reject Instr :=
  .ok (.atomUmin (fin 4 w 23) (fin 4 w 21) (fin 128 w 14) (fin 128 w 7) (fin 128 w 0))

/-- Major 0x4C: atom.umax. -/
def decode4C (w : Nat) : Except Reject Instr :=
  .ok (.atomUmax (fin 4 w 23) (fin 4 w 21) (fin 128 w 14) (fin 128 w 7) (fin 128 w 0))

/-- Major 0x4D: atom.and. -/
def decode4D (w : Nat) : Except Reject Instr :=
  .ok (.atomAnd (fin 4 w 23) (fin 4 w 21) (fin 128 w 14) (fin 128 w 7) (fin 128 w 0))

/-- Major 0x4E: atom.or. -/
def decode4E (w : Nat) : Except Reject Instr :=
  .ok (.atomOr (fin 4 w 23) (fin 4 w 21) (fin 128 w 14) (fin 128 w 7) (fin 128 w 0))

/-- Major 0x4F: atom.xor. -/
def decode4F (w : Nat) : Except Reject Instr :=
  .ok (.atomXor (fin 4 w 23) (fin 4 w 21) (fin 128 w 14) (fin 128 w 7) (fin 128 w 0))

/-- Major 0x50: atom.xchg. -/
def decode50 (w : Nat) : Except Reject Instr :=
  .ok (.atomXchg (fin 4 w 23) (fin 4 w 21) (fin 128 w 14) (fin 128 w 7) (fin 128 w 0))

/-- Major 0x51: atom.cas. -/
def decode51 (w : Nat) : Except Reject Instr :=
  .ok (.atomCas (fin 4 w 23) (fin 4 w 21) (fin 128 w 14) (fin 128 w 7) (fin 128 w 0))

/-- Major 0x52: atom.fadd. -/
def decode52 (w : Nat) : Except Reject Instr :=
  .ok (.atomFadd (fin 4 w 23) (fin 4 w 21) (fin 128 w 14) (fin 128 w 7) (fin 128 w 0))

/-- Major 0x53: atom.add64. -/
def decode53 (w : Nat) : Except Reject Instr :=
  .ok (.atomAdd64 (fin 4 w 23) (fin 4 w 21) (fin 128 w 14) (fin 128 w 7) (fin 128 w 0))

/-- Major 0x54: red.add. -/
def decode54 (w : Nat) : Except Reject Instr :=
  unused (bits w 20 14 = 0) (.redAdd (fin 4 w 23) (fin 4 w 21) (fin 128 w 7) (fin 128 w 0))

/-- Major 0x55: red.min. -/
def decode55 (w : Nat) : Except Reject Instr :=
  unused (bits w 20 14 = 0) (.redMin (fin 4 w 23) (fin 4 w 21) (fin 128 w 7) (fin 128 w 0))

/-- Major 0x56: red.max. -/
def decode56 (w : Nat) : Except Reject Instr :=
  unused (bits w 20 14 = 0) (.redMax (fin 4 w 23) (fin 4 w 21) (fin 128 w 7) (fin 128 w 0))

/-- Major 0x57: red.and. -/
def decode57 (w : Nat) : Except Reject Instr :=
  unused (bits w 20 14 = 0) (.redAnd (fin 4 w 23) (fin 4 w 21) (fin 128 w 7) (fin 128 w 0))

/-- Major 0x58: red.or. -/
def decode58 (w : Nat) : Except Reject Instr :=
  unused (bits w 20 14 = 0) (.redOr (fin 4 w 23) (fin 4 w 21) (fin 128 w 7) (fin 128 w 0))

/-- Major 0x59: red.xor. -/
def decode59 (w : Nat) : Except Reject Instr :=
  unused (bits w 20 14 = 0) (.redXor (fin 4 w 23) (fin 4 w 21) (fin 128 w 7) (fin 128 w 0))

/-- Major 0x5A: red.fadd. -/
def decode5A (w : Nat) : Except Reject Instr :=
  unused (bits w 20 14 = 0) (.redFadd (fin 4 w 23) (fin 4 w 21) (fin 128 w 7) (fin 128 w 0))

/-- Major 0x5B: sca.add, sca.min, sca.max, sca.umin, sca.umax, sca.and, sca.or, sca.xor, sca.xchg, sca.cas, sca.fadd. -/
def decode5B (w : Nat) : Except Reject Instr :=
  match bits w 24 21 with
  | 0 => .ok (.scaAdd (fin 128 w 14) (fin 128 w 7) (fin 128 w 0))
  | 1 => .ok (.scaMin (fin 128 w 14) (fin 128 w 7) (fin 128 w 0))
  | 2 => .ok (.scaMax (fin 128 w 14) (fin 128 w 7) (fin 128 w 0))
  | 3 => .ok (.scaUmin (fin 128 w 14) (fin 128 w 7) (fin 128 w 0))
  | 4 => .ok (.scaUmax (fin 128 w 14) (fin 128 w 7) (fin 128 w 0))
  | 5 => .ok (.scaAnd (fin 128 w 14) (fin 128 w 7) (fin 128 w 0))
  | 6 => .ok (.scaOr (fin 128 w 14) (fin 128 w 7) (fin 128 w 0))
  | 7 => .ok (.scaXor (fin 128 w 14) (fin 128 w 7) (fin 128 w 0))
  | 8 => .ok (.scaXchg (fin 128 w 14) (fin 128 w 7) (fin 128 w 0))
  | 9 => .ok (.scaCas (fin 128 w 14) (fin 128 w 7) (fin 128 w 0))
  | 10 => .ok (.scaFadd (fin 128 w 14) (fin 128 w 7) (fin 128 w 0))
  | _ => .error .reservedFn

/-- Major 0x5C: sacc.w, sacc.f. -/
def decode5C (w : Nat) : Except Reject Instr :=
  match bits w 24 21 with
  | 0 => unused (bits w 20 14 = 0) (.saccW (fin 128 w 7) (fin 128 w 0))
  | 1 => unused (bits w 20 14 = 0) (.saccF (fin 128 w 7) (fin 128 w 0))
  | _ => .error .reservedFn

/-- Major 0x5D: fence. -/
def decode5D (w : Nat) : Except Reject Instr :=
  unused (bits w 20 0 = 0) (.fence (fin 4 w 23) (fin 4 w 21))

/-- Major 0x5E: radv, racq, rview, rview.cnt. -/
def decode5E (w : Nat) : Except Reject Instr :=
  match bits w 24 21 with
  | 0 => unused (bits w 13 5 = 0) (.radv (fin 128 w 14) (fin 32 w 0))
  | 1 => unused (bits w 6 5 = 0) (.racq (fin 128 w 14) (fin 128 w 7) (fin 32 w 0))
  | 2 =>
    match bits w 6 5 with
    | 0 => unused (bits w 13 7 = 0) (.rview (fin 128 w 14) (fin 32 w 0))
    | 1 => unused (bits w 13 7 = 0) (.rviewCnt (fin 128 w 14) (fin 32 w 0))
    | _ => .error (.operand .fieldLimit)
  | _ => .error .reservedFn

/-- Major 0x5F: mon, mwait, mwait.trap, munarm. -/
def decode5F (w : Nat) : Except Reject Instr :=
  match bits w 24 21 with
  | 0 => unused (bits w 20 14 = 0 ∧ bits w 6 0 = 0) (.mon (fin 128 w 7))
  | 1 =>
    match bits w 13 7 with
    | 0 => .ok (.mwait (fin 128 w 14) (fin 128 w 0))
    | 1 => .ok (.mwaitTrap (fin 128 w 14) (fin 128 w 0))
    | _ => .error (.operand .fieldLimit)
  | 2 => unused (bits w 20 0 = 0) (.munarm)
  | _ => .error .reservedFn

/-- Major 0x60: sdrain. -/
def decode60 (w : Nat) : Except Reject Instr :=
  match bits w 24 21 with
  | 0 => unused (bits w 20 0 = 0) (.sdrain)
  | _ => .error .reservedFn

/-- Major 0x61: cinv, pfetch, pfl2, pdisc. -/
def decode61 (w : Nat) : Except Reject Instr :=
  match bits w 24 21 with
  | 0 => unused (bits w 20 14 = 0 ∧ bits w 6 0 = 0) (.cinv (fin 128 w 7))
  | 1 => unused (bits w 20 14 = 0 ∧ bits w 6 0 = 0) (.pfetch (fin 128 w 7))
  | 2 => unused (bits w 20 14 = 0 ∧ bits w 6 0 = 0) (.pfl2 (fin 128 w 7))
  | 3 => unused (bits w 6 0 = 0) (.pdisc (fin 128 w 14) (fin 128 w 7))
  | _ => .error .reservedFn

/-- Major 0x68: br. -/
def decode68 (w : Nat) : Except Reject Instr :=
  unused (bits w 24 18 = 0) (.br (fin 262144 w 0))

/-- Major 0x69: brnz. -/
def decode69 (w : Nat) : Except Reject Instr :=
  .ok (.brnz (fin 128 w 18) (fin 262144 w 0))

/-- Major 0x6A: brz. -/
def decode6A (w : Nat) : Except Reject Instr :=
  .ok (.brz (fin 128 w 18) (fin 262144 w 0))

/-- Major 0x6B: call. -/
def decode6B (w : Nat) : Except Reject Instr :=
  .ok (.call (fin 128 w 18) (fin 262144 w 0))

/-- Major 0x6C: jmp, jmpl. -/
def decode6C (w : Nat) : Except Reject Instr :=
  match bits w 24 21 with
  | 0 => unused (bits w 20 14 = 0 ∧ bits w 6 0 = 0) (.jmp (fin 128 w 7))
  | 1 => unused (bits w 6 0 = 0) (.jmpl (fin 128 w 14) (fin 128 w 7))
  | _ => .error .reservedFn

/-- Major 0x6D: jpush, jwait, jdrop, jdepth. -/
def decode6D (w : Nat) : Except Reject Instr :=
  match bits w 24 21 with
  | 0 => unused (bits w 20 0 = 0) (.jpush)
  | 1 => unused (bits w 20 0 = 0) (.jwait)
  | 2 => unused (bits w 20 6 = 0) (.jdrop (fin 64 w 0))
  | 3 => unused (bits w 13 0 = 0) (.jdepth (fin 128 w 14))
  | _ => .error .reservedFn

/-- Major 0x6E: exit. -/
def decode6E (w : Nat) : Except Reject Instr :=
  if bits w 24 23 = 0 then unused (bits w 20 0 = 0) (.exitv (fin 4 w 21)) else .error .reservedFn

/-- Major 0x6F: bar. -/
def decode6F (w : Nat) : Except Reject Instr :=
  match bits w 24 21 with
  | 0 => unused (bits w 20 0 = 0) (.bar)
  | _ => .error .reservedFn

/-- Major 0x70: refill. -/
def decode70 (w : Nat) : Except Reject Instr :=
  match bits w 24 21 with
  | 0 => unused (bits w 13 0 = 0) (.refill (fin 128 w 14))
  | _ => .error .reservedFn

/-- Major 0x71: trap. -/
def decode71 (w : Nat) : Except Reject Instr :=
  unused (bits w 24 18 = 0) (.trapv (fin 262144 w 0))

/-- Major 0x72: yield. -/
def decode72 (w : Nat) : Except Reject Instr :=
  match bits w 24 21 with
  | 0 => unused (bits w 20 0 = 0) (.yield)
  | _ => .error .reservedFn

/-- Major 0x74: sysr, sysw, cfgr, cfgw, tlbi.va, tlbi.ta, tlbi.all, eret, trlane, twlane, halt, halt.launch, halt.tenant, halt.other. -/
def decode74 (w : Nat) : Except Reject Instr :=
  match bits w 24 21 with
  | 0 => unused (bits w 13 7 = 0) (.sysr (fin 128 w 14) (fin 128 w 0))
  | 1 => unused (bits w 20 14 = 0) (.sysw (fin 128 w 7) (fin 128 w 0))
  | 2 => unused (bits w 6 0 = 0) (.cfgr (fin 128 w 14) (fin 128 w 7))
  | 3 => unused (bits w 20 14 = 0) (.cfgw (fin 128 w 7) (fin 128 w 0))
  | 4 =>
    match bits w 6 0 with
    | 0 => .ok (.tlbiVa (fin 128 w 14) (fin 128 w 7))
    | 1 => .ok (.tlbiTa (fin 128 w 14) (fin 128 w 7))
    | 2 => unused (bits w 13 7 = 0) (.tlbiAll (fin 128 w 14))
    | _ => .error (.operand .fieldLimit)
  | 5 => unused (bits w 20 0 = 0) (.eret)
  | 6 => .ok (.trlane (fin 128 w 14) (fin 128 w 7) (fin 128 w 0))
  | 7 => .ok (.twlane (fin 128 w 14) (fin 128 w 7) (fin 128 w 0))
  | 8 =>
    match bits w 20 14 with
    | 0 => unused (bits w 13 7 = 0) (.halt (fin 128 w 0))
    | 1 => unused (bits w 13 7 = 0) (.haltLaunch (fin 128 w 0))
    | 2 => unused (bits w 13 7 = 0) (.haltTenant (fin 128 w 0))
    | 3 => .ok (.haltOther (fin 128 w 7) (fin 128 w 0))
    | _ => .error (.operand .fieldLimit)
  | _ => .error .reservedFn

/-- Major 0x78: cpy, cpg, cps, cpxw, cpxr, cpf. -/
noncomputable def decode78 (w : Nat) : Except Reject Instr :=
  match bits w 24 21 with
  | 0 => unused (bits w 13 0 = 0) (.cpy (fin 128 w 14))
  | 1 => unused (bits w 6 0 = 0) (.cpg (fin 128 w 14) (fin 128 w 7))
  | 2 => unused (bits w 6 0 = 0) (.cps (fin 128 w 14) (fin 128 w 7))
  | 3 => unused (bits w 13 0 = 0) (.cpxw (fin 128 w 14))
  | 4 => unused (bits w 13 0 = 0) (.cpxr (fin 128 w 14))
  | 5 => unused (bits w 13 0 = 0) (.cpf (fin 128 w 14))
  | _ => .error .reservedFn

/-- Major 0x79: mmul, mmulw, mmsp, mzero, mepi, mfence, acrd, acwr, acst. -/
noncomputable def decode79 (w : Nat) : Except Reject Instr :=
  match bits w 24 21 with
  | 0 => unused (bits w 13 0 = 0) (.mmul (fin 128 w 14))
  | 1 => unused (bits w 13 0 = 0) (.mmulw (fin 128 w 14))
  | 2 => unused (bits w 13 0 = 0) (.mmsp (fin 128 w 14))
  | 3 => unused (bits w 13 0 = 0) (.mzero (fin 128 w 14))
  | 4 => unused (bits w 13 0 = 0) (.mepi (fin 128 w 14))
  | 5 => unused (bits w 20 0 = 0) (.mfence)
  | 6 => unused (bits w 6 1 = 0) (.acrd (fin 128 w 14) (fin 128 w 7) (fin 2 w 0))
  | 7 => unused (bits w 6 1 = 0) (.acwr (fin 128 w 14) (fin 128 w 7) (fin 2 w 0))
  | 8 => unused (bits w 13 6 = 0) (.acst (fin 128 w 14) (fin 64 w 0))
  | _ => .error .reservedFn

/-- Major 0x7A: sinc, swait, sset, sget, sdec. -/
noncomputable def decode7A (w : Nat) : Except Reject Instr :=
  match bits w 24 21 with
  | 0 => unused (bits w 20 14 = 0) (.sinc (fin 128 w 7) (fin 128 w 0))
  | 1 => unused (bits w 20 14 = 0) (.swait (fin 128 w 7) (fin 128 w 0))
  | 2 => unused (bits w 20 14 = 0) (.sset (fin 128 w 7) (fin 128 w 0))
  | 3 => unused (bits w 6 4 = 0) (.sget (fin 128 w 14) (fin 128 w 7) (fin 16 w 0))
  | 4 => unused (bits w 20 14 = 0) (.sdec (fin 128 w 7) (fin 128 w 0))
  | _ => .error .reservedFn

/-- Major 0x7B: rtsend, rtrecv, rtsendq, rtrecvq, rtstat. -/
noncomputable def decode7B (w : Nat) : Except Reject Instr :=
  match bits w 24 21 with
  | 0 => unused (bits w 20 20 = 0 ∧ bits w 6 3 = 0) (.rtsend (fin 64 w 14) (fin 128 w 7) (fin 8 w 0))
  | 1 => unused (bits w 13 13 = 0 ∧ bits w 6 3 = 0) (.rtrecv (fin 128 w 14) (fin 64 w 7) (fin 8 w 0))
  | 2 => unused (bits w 6 6 = 0) (.rtsendq (fin 128 w 14) (fin 128 w 7) (fin 64 w 0))
  | 3 => unused (bits w 13 6 = 0) (.rtrecvq (fin 128 w 14) (fin 64 w 0))
  | 4 => unused (bits w 13 6 = 0) (.rtstat (fin 128 w 14) (fin 64 w 0))
  | _ => .error .reservedFn

/-- Major 0x7C: wpush, wjoin, ipush, shset, shinv. -/
noncomputable def decode7C (w : Nat) : Except Reject Instr :=
  match bits w 24 21 with
  | 0 => .ok (.wpush (fin 128 w 14) (fin 128 w 7) (fin 128 w 0))
  | 1 => unused (bits w 6 0 = 0) (.wjoin (fin 128 w 14) (fin 128 w 7))
  | 2 => unused (bits w 6 0 = 0) (.ipush (fin 128 w 14) (fin 128 w 7))
  | 3 => .ok (.shset (fin 128 w 14) (fin 128 w 7) (fin 128 w 0))
  | 4 => unused (bits w 20 14 = 0 ∧ bits w 6 0 = 0) (.shinv (fin 128 w 7))
  | _ => .error .reservedFn

/-- Major 0x7F: rep. -/
noncomputable def decode7F (w : Nat) : Except Reject Instr :=
  unused (bits w 12 0 = 0) (.rep (fin 64 w 19) (fin 4 w 17) (fin 4 w 15) (fin 4 w 13))

/-- A word of an ALU major (05 R97), before the operand rules. -/
def decodeAlu (w : Nat) : Except Reject Instr :=
  match bits w 31 25 with
  | 0x00 => decode00 w
  | 0x01 => decode01 w
  | 0x02 => decode02 w
  | 0x03 => decode03 w
  | 0x04 => decode04 w
  | 0x08 => decode08 w
  | 0x09 => decode09 w
  | 0x0A => decode0A w
  | 0x0B => decode0B w
  | 0x0C => decode0C w
  | 0x0D => decode0D w
  | 0x0E => decode0E w
  | 0x0F => decode0F w
  | 0x10 => decode10 w
  | 0x11 => decode11 w
  | 0x12 => decode12 w
  | 0x13 => decode13 w
  | 0x14 => decode14 w
  | 0x15 => decode15 w
  | 0x18 => decode18 w
  | 0x19 => decode19 w
  | 0x1A => decode1A w
  | 0x1B => decode1B w
  | 0x1C => decode1C w
  | 0x1D => decode1D w
  | 0x1E => decode1E w
  | 0x20 => decode20 w
  | 0x21 => decode21 w
  | 0x22 => decode22 w
  | 0x23 => decode23 w
  | _ => .error .unassignedMajor

/-- A word of a memory major (05 R98). -/
def decodeMem (w : Nat) : Except Reject Instr :=
  match bits w 31 25 with
  | 0x30 => decode30 w
  | 0x31 => decode31 w
  | 0x32 => decode32 w
  | 0x33 => decode33 w
  | 0x34 => decode34 w
  | 0x35 => decode35 w
  | 0x36 => decode36 w
  | 0x38 => decode38 w
  | 0x39 => decode39 w
  | 0x3A => decode3A w
  | 0x3B => decode3B w
  | 0x3C => decode3C w
  | 0x3D => decode3D w
  | 0x3E => decode3E w
  | 0x3F => decode3F w
  | 0x40 => decode40 w
  | 0x41 => decode41 w
  | 0x42 => decode42 w
  | 0x43 => decode43 w
  | 0x44 => decode44 w
  | 0x45 => decode45 w
  | 0x46 => decode46 w
  | 0x47 => decode47 w
  | 0x48 => decode48 w
  | 0x49 => decode49 w
  | 0x4A => decode4A w
  | 0x4B => decode4B w
  | 0x4C => decode4C w
  | 0x4D => decode4D w
  | 0x4E => decode4E w
  | 0x4F => decode4F w
  | 0x50 => decode50 w
  | 0x51 => decode51 w
  | 0x52 => decode52 w
  | 0x53 => decode53 w
  | 0x54 => decode54 w
  | 0x55 => decode55 w
  | 0x56 => decode56 w
  | 0x57 => decode57 w
  | 0x58 => decode58 w
  | 0x59 => decode59 w
  | 0x5A => decode5A w
  | 0x5B => decode5B w
  | 0x5C => decode5C w
  | 0x5D => decode5D w
  | 0x5E => decode5E w
  | 0x5F => decode5F w
  | 0x60 => decode60 w
  | 0x61 => decode61 w
  | _ => .error .unassignedMajor

/-- A word of a control major (05 R99). -/
def decodeCtl (w : Nat) : Except Reject Instr :=
  match bits w 31 25 with
  | 0x68 => decode68 w
  | 0x69 => decode69 w
  | 0x6A => decode6A w
  | 0x6B => decode6B w
  | 0x6C => decode6C w
  | 0x6D => decode6D w
  | 0x6E => decode6E w
  | 0x6F => decode6F w
  | 0x70 => decode70 w
  | 0x71 => decode71 w
  | 0x72 => decode72 w
  | 0x74 => decode74 w
  | _ => .error .unassignedMajor

/-- A word of an engine major, or `rep` (05 R99). -/
noncomputable def decodeEng (w : Nat) : Except Reject Instr :=
  match bits w 31 25 with
  | 0x78 => decode78 w
  | 0x79 => decode79 w
  | 0x7A => decode7A w
  | 0x7B => decode7B w
  | 0x7C => decode7C w
  | 0x7F => decode7F w
  | _ => .error .unassignedMajor

/-- The operand rules, after the fields (05 R91, R96). -/
def checked (r : Except Reject Instr) : Except Reject Instr :=
  match r with
  | .error e => .error e
  | .ok i =>
    match i.defect with
    | none => .ok i
    | some d => .error (.operand d)

/-- A word of an ALU or memory major: the words that `rep` may repeat (05 R95). -/
def decodeLow (w : Nat) : Except Reject Instr :=
  checked (if bits w 31 25 < 0x30 then decodeAlu w else decodeMem w)


/-- The instruction that a 32-bit word encodes, or why there is none (05 R89 step 5, R96). -/
noncomputable def decode (w : Nat) : Except Reject Instr :=
  if bits w 31 25 < 0x68 then decodeLow w
  else checked (if bits w 31 25 < 0x78 then decodeCtl w else decodeEng w)

/-- The instruction read from the little-endian bytes of a clause word (05 R82, 00 R10). -/
noncomputable def decodeBytes (bs : List Byte) : Except Reject Instr := decode (ofLeBytes bs)

/-- A field placed with its lowest bit at lo. -/
def put (lo f base : Nat) : Nat := base + f * 2 ^ lo

/-- The word of an instruction, from the same encodings; none for a step of another agent, which has no word. -/
def encode : Instr → Option Nat
  | .nop => some (0x00000000)
  | .iadd d a b => some (put 0 b.val (put 7 a.val (put 14 d.val 0x02000000)))
  | .isub d a b => some (put 0 b.val (put 7 a.val (put 14 d.val 0x02200000)))
  | .imul d a b => some (put 0 b.val (put 7 a.val (put 14 d.val 0x02400000)))
  | .imulh d a b => some (put 0 b.val (put 7 a.val (put 14 d.val 0x02600000)))
  | .umulh d a b => some (put 0 b.val (put 7 a.val (put 14 d.val 0x02800000)))
  | .imad d a b => some (put 0 b.val (put 7 a.val (put 14 d.val 0x02A00000)))
  | .imin d a b => some (put 0 b.val (put 7 a.val (put 14 d.val 0x02C00000)))
  | .imax d a b => some (put 0 b.val (put 7 a.val (put 14 d.val 0x02E00000)))
  | .umin d a b => some (put 0 b.val (put 7 a.val (put 14 d.val 0x03000000)))
  | .umax d a b => some (put 0 b.val (put 7 a.val (put 14 d.val 0x03200000)))
  | .iabs d a => some (put 7 a.val (put 14 d.val 0x03400000))
  | .ineg d a => some (put 7 a.val (put 14 d.val 0x03600000))
  | .idiv d a b => some (put 0 b.val (put 7 a.val (put 14 d.val 0x03800000)))
  | .udiv d a b => some (put 0 b.val (put 7 a.val (put 14 d.val 0x03A00000)))
  | .irem d a b => some (put 0 b.val (put 7 a.val (put 14 d.val 0x03C00000)))
  | .urem d a b => some (put 0 b.val (put 7 a.val (put 14 d.val 0x03E00000)))
  | .andv d a b => some (put 0 b.val (put 7 a.val (put 14 d.val 0x04000000)))
  | .orv d a b => some (put 0 b.val (put 7 a.val (put 14 d.val 0x04200000)))
  | .xorv d a b => some (put 0 b.val (put 7 a.val (put 14 d.val 0x04400000)))
  | .andn d a b => some (put 0 b.val (put 7 a.val (put 14 d.val 0x04600000)))
  | .orn d a b => some (put 0 b.val (put 7 a.val (put 14 d.val 0x04800000)))
  | .xnor d a b => some (put 0 b.val (put 7 a.val (put 14 d.val 0x04A00000)))
  | .shl d a b => some (put 0 b.val (put 7 a.val (put 14 d.val 0x04C00000)))
  | .shr d a b => some (put 0 b.val (put 7 a.val (put 14 d.val 0x04E00000)))
  | .sar d a b => some (put 0 b.val (put 7 a.val (put 14 d.val 0x05000000)))
  | .rotl d a b => some (put 0 b.val (put 7 a.val (put 14 d.val 0x05200000)))
  | .popc d a => some (put 7 a.val (put 14 d.val 0x05400000))
  | .clz d a => some (put 7 a.val (put 14 d.val 0x05600000))
  | .ctz d a => some (put 7 a.val (put 14 d.val 0x05800000))
  | .brev d a => some (put 7 a.val (put 14 d.val 0x05A00000))
  | .sel d a b => some (put 0 b.val (put 7 a.val (put 14 d.val 0x05C00000)))
  | .mov d a => some (put 7 a.val (put 14 d.val 0x05E00000))
  | .icmp c d a b => some (put 0 b.val (put 7 a.val (put 14 d.val (put 21 c.val 0x06000000))))
  | .aadd d a b => some (put 0 b.val (put 7 a.val (put 14 d.val 0x08000000)))
  | .aaddz d a b => some (put 0 b.val (put 7 a.val (put 14 d.val 0x08200000)))
  | .asub d a b => some (put 0 b.val (put 7 a.val (put 14 d.val 0x08400000)))
  | .amov d a => some (put 7 a.val (put 14 d.val 0x08600000))
  | .acmpeq d a b => some (put 0 b.val (put 7 a.val (put 14 d.val 0x08800000)))
  | .acmplt d a b => some (put 0 b.val (put 7 a.val (put 14 d.val 0x08A00000)))
  | .ashl d a b => some (put 0 b.val (put 7 a.val (put 14 d.val 0x08C00000)))
  | .amul d a b => some (put 0 b.val (put 7 a.val (put 14 d.val 0x08E00000)))
  | .iaddi d a i => some (put 0 i.val (put 11 a.val (put 18 d.val 0x10000000)))
  | .andi d a i => some (put 0 i.val (put 11 a.val (put 18 d.val 0x12000000)))
  | .ori d a i => some (put 0 i.val (put 11 a.val (put 18 d.val 0x14000000)))
  | .xori d a i => some (put 0 i.val (put 11 a.val (put 18 d.val 0x16000000)))
  | .shli d a i => some (put 0 i.val (put 11 a.val (put 18 d.val 0x18000000)))
  | .shri d a i => some (put 0 i.val (put 11 a.val (put 18 d.val 0x1A000000)))
  | .sari d a i => some (put 0 i.val (put 11 a.val (put 18 d.val 0x1C000000)))
  | .icmpi d a c i => some (put 0 i.val (put 7 c.val (put 11 a.val (put 18 d.val 0x1E000000))))
  | .aaddi d a i => some (put 0 i.val (put 11 a.val (put 18 d.val 0x20000000)))
  | .bfx d a x s l => some (put 0 l.val (put 5 s.val (put 10 x.val (put 11 a.val (put 18 d.val 0x22000000)))))
  | .bfi d a x s l => some (put 0 l.val (put 5 s.val (put 10 x.val (put 11 a.val (put 18 d.val 0x24000000)))))
  | .imuli d a i => some (put 0 i.val (put 11 a.val (put 18 d.val 0x26000000)))
  | .movi d i => some (put 0 i.val (put 18 d.val 0x28000000))
  | .movh d i => some (put 0 i.val (put 18 d.val 0x2A000000))
  | .fadd d a b => some (put 0 b.val (put 7 a.val (put 14 d.val 0x30000000)))
  | .fsub d a b => some (put 0 b.val (put 7 a.val (put 14 d.val 0x30200000)))
  | .fmul d a b => some (put 0 b.val (put 7 a.val (put 14 d.val 0x30400000)))
  | .fma d a b => some (put 0 b.val (put 7 a.val (put 14 d.val 0x30600000)))
  | .fms d a b => some (put 0 b.val (put 7 a.val (put 14 d.val 0x30800000)))
  | .fnma d a b => some (put 0 b.val (put 7 a.val (put 14 d.val 0x30A00000)))
  | .fmin d a b => some (put 0 b.val (put 7 a.val (put 14 d.val 0x30C00000)))
  | .fmax d a b => some (put 0 b.val (put 7 a.val (put 14 d.val 0x30E00000)))
  | .fabs d a => some (put 7 a.val (put 14 d.val 0x31000000))
  | .fneg d a => some (put 7 a.val (put 14 d.val 0x31200000))
  | .fcpsgn d a b => some (put 0 b.val (put 7 a.val (put 14 d.val 0x31400000)))
  | .frnd d a m => some (put 0 m.val (put 7 a.val (put 14 d.val 0x31600000)))
  | .fdiv d a b => some (put 0 b.val (put 7 a.val (put 14 d.val 0x31800000)))
  | .fsqrt d a => some (put 7 a.val (put 14 d.val 0x31A00000))
  | .fsat d a => some (put 7 a.val (put 14 d.val 0x31C00000))
  | .fclass d a => some (put 7 a.val (put 14 d.val 0x31E00000))
  | .fcmp c d a b => some (put 0 b.val (put 7 a.val (put 14 d.val (put 21 c.val 0x32000000))))
  | .frcp d a => some (put 7 a.val (put 14 d.val 0x34000000))
  | .frsq d a => some (put 7 a.val (put 14 d.val 0x34200000))
  | .fexp2 d a => some (put 7 a.val (put 14 d.val 0x34400000))
  | .flog2 d a => some (put 7 a.val (put 14 d.val 0x34600000))
  | .fsinpi d a => some (put 7 a.val (put 14 d.val 0x34800000))
  | .fcospi d a => some (put 7 a.val (put 14 d.val 0x34A00000))
  | .ftanh d a => some (put 7 a.val (put 14 d.val 0x34C00000))
  | .fsig d a => some (put 7 a.val (put 14 d.val 0x34E00000))
  | .hadd2 d a b => some (put 0 b.val (put 7 a.val (put 14 d.val 0x36000000)))
  | .hsub2 d a b => some (put 0 b.val (put 7 a.val (put 14 d.val 0x36200000)))
  | .hmul2 d a b => some (put 0 b.val (put 7 a.val (put 14 d.val 0x36400000)))
  | .hfma2 d a b => some (put 0 b.val (put 7 a.val (put 14 d.val 0x36600000)))
  | .hmin2 d a b => some (put 0 b.val (put 7 a.val (put 14 d.val 0x36800000)))
  | .hmax2 d a b => some (put 0 b.val (put 7 a.val (put 14 d.val 0x36A00000)))
  | .badd2 d a b => some (put 0 b.val (put 7 a.val (put 14 d.val 0x37000000)))
  | .bsub2 d a b => some (put 0 b.val (put 7 a.val (put 14 d.val 0x37200000)))
  | .bmul2 d a b => some (put 0 b.val (put 7 a.val (put 14 d.val 0x37400000)))
  | .bfma2 d a b => some (put 0 b.val (put 7 a.val (put 14 d.val 0x37600000)))
  | .bmin2 d a b => some (put 0 b.val (put 7 a.val (put 14 d.val 0x37800000)))
  | .bmax2 d a b => some (put 0 b.val (put 7 a.val (put 14 d.val 0x37A00000)))
  | .dp4i d a b => some (put 0 b.val (put 7 a.val (put 14 d.val 0x38000000)))
  | .dp4n d a b => some (put 0 b.val (put 7 a.val (put 14 d.val 0x38200000)))
  | .dp2h d a b => some (put 0 b.val (put 7 a.val (put 14 d.val 0x38400000)))
  | .dp2b d a b => some (put 0 b.val (put 7 a.val (put 14 d.val 0x38600000)))
  | .dp4e d a b => some (put 0 b.val (put 7 a.val (put 14 d.val 0x38800000)))
  | .dp4f d a b => some (put 0 b.val (put 7 a.val (put 14 d.val 0x38A00000)))
  | .i2f d a s => some (put 0 s.val (put 7 a.val (put 14 d.val 0x3A000000)))
  | .n2f d a k j => some (put 0 j.val (put 5 k.val (put 7 a.val (put 14 d.val 0x3A200000))))
  | .f2i d a m => some (put 0 m.val (put 7 a.val (put 14 d.val 0x3A400000)))
  | .f2n d a k j => some (put 0 j.val (put 5 k.val (put 7 a.val (put 14 d.val 0x3A600000))))
  | .pkh d a j => some (put 0 j.val (put 7 a.val (put 14 d.val 0x3A800000)))
  | .pkb d a j => some (put 0 j.val (put 7 a.val (put 14 d.val 0x3AA00000)))
  | .unh d a j => some (put 0 j.val (put 7 a.val (put 14 d.val 0x3AC00000)))
  | .unb d a j => some (put 0 j.val (put 7 a.val (put 14 d.val 0x3AE00000)))
  | .pk8e d a j => some (put 0 j.val (put 7 a.val (put 14 d.val 0x3B000000)))
  | .pk8f d a j => some (put 0 j.val (put 7 a.val (put 14 d.val 0x3B200000)))
  | .un8e d a j => some (put 0 j.val (put 7 a.val (put 14 d.val 0x3B400000)))
  | .un8f d a j => some (put 0 j.val (put 7 a.val (put 14 d.val 0x3B600000)))
  | .pk6 d a j => some (put 0 j.val (put 7 a.val (put 14 d.val 0x3B800000)))
  | .un6 d a j => some (put 0 j.val (put 7 a.val (put 14 d.val 0x3BA00000)))
  | .pk4 d a j => some (put 0 j.val (put 7 a.val (put 14 d.val 0x3BC00000)))
  | .un4 d a j => some (put 0 j.val (put 7 a.val (put 14 d.val 0x3BE00000)))
  | .sx8 d a => some (put 7 a.val (put 14 d.val 0x3C000000))
  | .sx16 d a => some (put 7 a.val (put 14 d.val 0x3C200000))
  | .sat8 d a => some (put 7 a.val (put 14 d.val 0x3C400000))
  | .satz8 d a => some (put 7 a.val (put 14 d.val 0x3C600000))
  | .sat16 d a => some (put 7 a.val (put 14 d.val 0x3C800000))
  | .satz16 d a => some (put 7 a.val (put 14 d.val 0x3CA00000))
  | .fxf d a q => some (put 0 q.val (put 7 a.val (put 14 d.val 0x3CC00000)))
  | .laneid d => some (put 14 d.val 0x40000000)
  | .gwidth d => some (put 14 d.val 0x40200000)
  | .cohort d => some (put 14 d.val 0x40400000)
  | .vany d a => some (put 7 a.val (put 14 d.val 0x40600000))
  | .vall d a => some (put 7 a.val (put 14 d.val 0x40800000))
  | .ballot d a => some (put 7 a.val (put 14 d.val 0x40A00000))
  | .matchEq d a => some (put 7 a.val (put 14 d.val 0x40C00000))
  | .shfl d a b => some (put 0 b.val (put 7 a.val (put 14 d.val 0x40E00000)))
  | .shup d a k => some (put 0 k.val (put 7 a.val (put 14 d.val 0x41000000)))
  | .shdn d a k => some (put 0 k.val (put 7 a.val (put 14 d.val 0x41200000)))
  | .shxor d a k => some (put 0 k.val (put 7 a.val (put 14 d.val 0x41400000)))
  | .redadd d a => some (put 7 a.val (put 14 d.val 0x41600000))
  | .redmin d a => some (put 7 a.val (put 14 d.val 0x41800000))
  | .redmax d a => some (put 7 a.val (put 14 d.val 0x41A00000))
  | .bcast d a => some (put 7 a.val (put 14 d.val 0x41C00000))
  | .redand d a => some (put 7 a.val (put 14 d.val 0x41E00000))
  | .fredadd d a => some (put 7 a.val (put 14 d.val 0x42000000))
  | .fredmin d a => some (put 7 a.val (put 14 d.val 0x42200000))
  | .fredmax d a => some (put 7 a.val (put 14 d.val 0x42400000))
  | .redor d a => some (put 7 a.val (put 14 d.val 0x42600000))
  | .redxor d a => some (put 7 a.val (put 14 d.val 0x42800000))
  | .sreg d i => some (put 0 i.val (put 18 d.val 0x44000000))
  | .sregw a i => some (put 0 i.val (put 11 a.val 0x46000000))
  | .ldB d a i => some (put 0 i.val (put 11 a.val (put 18 d.val 0x60000000)))
  | .ldBs d a i => some (put 0 i.val (put 11 a.val (put 18 d.val 0x62000000)))
  | .ldH d a i => some (put 0 i.val (put 11 a.val (put 18 d.val 0x64000000)))
  | .ldHs d a i => some (put 0 i.val (put 11 a.val (put 18 d.val 0x66000000)))
  | .ldW d a i => some (put 0 i.val (put 11 a.val (put 18 d.val 0x68000000)))
  | .ldD d a i => some (put 0 i.val (put 11 a.val (put 18 d.val 0x6A000000)))
  | .ldQ d a i => some (put 0 i.val (put 11 a.val (put 18 d.val 0x6C000000)))
  | .stB d a i => some (put 0 i.val (put 11 a.val (put 18 d.val 0x70000000)))
  | .stH d a i => some (put 0 i.val (put 11 a.val (put 18 d.val 0x72000000)))
  | .stW d a i => some (put 0 i.val (put 11 a.val (put 18 d.val 0x74000000)))
  | .stD d a i => some (put 0 i.val (put 11 a.val (put 18 d.val 0x76000000)))
  | .stQ d a i => some (put 0 i.val (put 11 a.val (put 18 d.val 0x78000000)))
  | .ldbW d a b m o => some (put 0 o.val (put 6 m.val (put 7 b.val (put 11 a.val (put 18 d.val 0x7A000000)))))
  | .ldbD d a b m o => some (put 0 o.val (put 6 m.val (put 7 b.val (put 11 a.val (put 18 d.val 0x7C000000)))))
  | .ldbQ d a b m o => some (put 0 o.val (put 6 m.val (put 7 b.val (put 11 a.val (put 18 d.val 0x7E000000)))))
  | .ldaH d a i => some (put 0 i.val (put 11 a.val (put 18 d.val 0x80000000)))
  | .ldaW d a i => some (put 0 i.val (put 11 a.val (put 18 d.val 0x82000000)))
  | .ldaQ d a i => some (put 0 i.val (put 11 a.val (put 18 d.val 0x84000000)))
  | .staH d a i => some (put 0 i.val (put 11 a.val (put 18 d.val 0x86000000)))
  | .staW d a i => some (put 0 i.val (put 11 a.val (put 18 d.val 0x88000000)))
  | .staQ d a i => some (put 0 i.val (put 11 a.val (put 18 d.val 0x8A000000)))
  | .ldwQ d a i => some (put 0 i.val (put 11 a.val (put 18 d.val 0x8C000000)))
  | .stwQ d a i => some (put 0 i.val (put 11 a.val (put 18 d.val 0x8E000000)))
  | .atomAdd o s d a b => some (put 0 b.val (put 7 a.val (put 14 d.val (put 21 s.val (put 23 o.val 0x90000000)))))
  | .atomMin o s d a b => some (put 0 b.val (put 7 a.val (put 14 d.val (put 21 s.val (put 23 o.val 0x92000000)))))
  | .atomMax o s d a b => some (put 0 b.val (put 7 a.val (put 14 d.val (put 21 s.val (put 23 o.val 0x94000000)))))
  | .atomUmin o s d a b => some (put 0 b.val (put 7 a.val (put 14 d.val (put 21 s.val (put 23 o.val 0x96000000)))))
  | .atomUmax o s d a b => some (put 0 b.val (put 7 a.val (put 14 d.val (put 21 s.val (put 23 o.val 0x98000000)))))
  | .atomAnd o s d a b => some (put 0 b.val (put 7 a.val (put 14 d.val (put 21 s.val (put 23 o.val 0x9A000000)))))
  | .atomOr o s d a b => some (put 0 b.val (put 7 a.val (put 14 d.val (put 21 s.val (put 23 o.val 0x9C000000)))))
  | .atomXor o s d a b => some (put 0 b.val (put 7 a.val (put 14 d.val (put 21 s.val (put 23 o.val 0x9E000000)))))
  | .atomXchg o s d a b => some (put 0 b.val (put 7 a.val (put 14 d.val (put 21 s.val (put 23 o.val 0xA0000000)))))
  | .atomCas o s d a b => some (put 0 b.val (put 7 a.val (put 14 d.val (put 21 s.val (put 23 o.val 0xA2000000)))))
  | .atomFadd o s d a b => some (put 0 b.val (put 7 a.val (put 14 d.val (put 21 s.val (put 23 o.val 0xA4000000)))))
  | .atomAdd64 o s d a b => some (put 0 b.val (put 7 a.val (put 14 d.val (put 21 s.val (put 23 o.val 0xA6000000)))))
  | .redAdd o s a b => some (put 0 b.val (put 7 a.val (put 21 s.val (put 23 o.val 0xA8000000))))
  | .redMin o s a b => some (put 0 b.val (put 7 a.val (put 21 s.val (put 23 o.val 0xAA000000))))
  | .redMax o s a b => some (put 0 b.val (put 7 a.val (put 21 s.val (put 23 o.val 0xAC000000))))
  | .redAnd o s a b => some (put 0 b.val (put 7 a.val (put 21 s.val (put 23 o.val 0xAE000000))))
  | .redOr o s a b => some (put 0 b.val (put 7 a.val (put 21 s.val (put 23 o.val 0xB0000000))))
  | .redXor o s a b => some (put 0 b.val (put 7 a.val (put 21 s.val (put 23 o.val 0xB2000000))))
  | .redFadd o s a b => some (put 0 b.val (put 7 a.val (put 21 s.val (put 23 o.val 0xB4000000))))
  | .scaAdd d a b => some (put 0 b.val (put 7 a.val (put 14 d.val 0xB6000000)))
  | .scaMin d a b => some (put 0 b.val (put 7 a.val (put 14 d.val 0xB6200000)))
  | .scaMax d a b => some (put 0 b.val (put 7 a.val (put 14 d.val 0xB6400000)))
  | .scaUmin d a b => some (put 0 b.val (put 7 a.val (put 14 d.val 0xB6600000)))
  | .scaUmax d a b => some (put 0 b.val (put 7 a.val (put 14 d.val 0xB6800000)))
  | .scaAnd d a b => some (put 0 b.val (put 7 a.val (put 14 d.val 0xB6A00000)))
  | .scaOr d a b => some (put 0 b.val (put 7 a.val (put 14 d.val 0xB6C00000)))
  | .scaXor d a b => some (put 0 b.val (put 7 a.val (put 14 d.val 0xB6E00000)))
  | .scaXchg d a b => some (put 0 b.val (put 7 a.val (put 14 d.val 0xB7000000)))
  | .scaCas d a b => some (put 0 b.val (put 7 a.val (put 14 d.val 0xB7200000)))
  | .scaFadd d a b => some (put 0 b.val (put 7 a.val (put 14 d.val 0xB7400000)))
  | .saccW a b => some (put 0 b.val (put 7 a.val 0xB8000000))
  | .saccF a b => some (put 0 b.val (put 7 a.val 0xB8200000))
  | .fence s o => some (put 21 o.val (put 23 s.val 0xBA000000))
  | .radv d k => some (put 0 k.val (put 14 d.val 0xBC000000))
  | .racq d a k => some (put 0 k.val (put 7 a.val (put 14 d.val 0xBC200000)))
  | .rview d k => some (put 0 k.val (put 14 d.val 0xBC400000))
  | .rviewCnt d k => some (put 0 k.val (put 14 d.val 0xBC400020))
  | .mon a => some (put 7 a.val 0xBE000000)
  | .mwait d b => some (put 0 b.val (put 14 d.val 0xBE200000))
  | .mwaitTrap d b => some (put 0 b.val (put 14 d.val 0xBE200080))
  | .munarm => some (0xBE400000)
  | .sdrain => some (0xC0000000)
  | .cinv a => some (put 7 a.val 0xC2000000)
  | .pfetch a => some (put 7 a.val 0xC2200000)
  | .pfl2 a => some (put 7 a.val 0xC2400000)
  | .pdisc d a => some (put 7 a.val (put 14 d.val 0xC2600000))
  | .br o => some (put 0 o.val 0xD0000000)
  | .brnz a o => some (put 0 o.val (put 18 a.val 0xD2000000))
  | .brz a o => some (put 0 o.val (put 18 a.val 0xD4000000))
  | .call a o => some (put 0 o.val (put 18 a.val 0xD6000000))
  | .jmp a => some (put 7 a.val 0xD8000000)
  | .jmpl d a => some (put 7 a.val (put 14 d.val 0xD8200000))
  | .jpush => some (0xDA000000)
  | .jwait => some (0xDA200000)
  | .jdrop k => some (put 0 k.val 0xDA400000)
  | .jdepth d => some (put 14 d.val 0xDA600000)
  | .exitv s => some (put 21 s.val 0xDC000000)
  | .bar => some (0xDE000000)
  | .refill d => some (put 14 d.val 0xE0000000)
  | .trapv c => some (put 0 c.val 0xE2000000)
  | .yield => some (0xE4000000)
  | .sysr d n => some (put 0 n.val (put 14 d.val 0xE8000000))
  | .sysw a n => some (put 0 n.val (put 7 a.val 0xE8200000))
  | .cfgr d a => some (put 7 a.val (put 14 d.val 0xE8400000))
  | .cfgw a b => some (put 0 b.val (put 7 a.val 0xE8600000))
  | .tlbiVa d a => some (put 7 a.val (put 14 d.val 0xE8800000))
  | .tlbiTa d a => some (put 7 a.val (put 14 d.val 0xE8800001))
  | .tlbiAll d => some (put 14 d.val 0xE8800002)
  | .eret => some (0xE8A00000)
  | .trlane d n b => some (put 0 b.val (put 7 n.val (put 14 d.val 0xE8C00000)))
  | .twlane d n b => some (put 0 b.val (put 7 n.val (put 14 d.val 0xE8E00000)))
  | .halt b => some (put 0 b.val 0xE9000000)
  | .haltLaunch b => some (put 0 b.val 0xE9004000)
  | .haltTenant b => some (put 0 b.val 0xE9008000)
  | .haltOther a b => some (put 0 b.val (put 7 a.val 0xE900C000))
  | .cpy d => some (put 14 d.val 0xF0000000)
  | .cpg d a => some (put 7 a.val (put 14 d.val 0xF0200000))
  | .cps d a => some (put 7 a.val (put 14 d.val 0xF0400000))
  | .cpxw d => some (put 14 d.val 0xF0600000)
  | .cpxr d => some (put 14 d.val 0xF0800000)
  | .cpf d => some (put 14 d.val 0xF0A00000)
  | .mmul d => some (put 14 d.val 0xF2000000)
  | .mmulw d => some (put 14 d.val 0xF2200000)
  | .mmsp d => some (put 14 d.val 0xF2400000)
  | .mzero d => some (put 14 d.val 0xF2600000)
  | .mepi d => some (put 14 d.val 0xF2800000)
  | .mfence => some (0xF2A00000)
  | .acrd d a x => some (put 0 x.val (put 7 a.val (put 14 d.val 0xF2C00000)))
  | .acwr d a x => some (put 0 x.val (put 7 a.val (put 14 d.val 0xF2E00000)))
  | .acst d k => some (put 0 k.val (put 14 d.val 0xF3000000))
  | .sinc n b => some (put 0 b.val (put 7 n.val 0xF4000000))
  | .swait n b => some (put 0 b.val (put 7 n.val 0xF4200000))
  | .sset n b => some (put 0 b.val (put 7 n.val 0xF4400000))
  | .sget d n w => some (put 0 w.val (put 7 n.val (put 14 d.val 0xF4600000)))
  | .sdec n b => some (put 0 b.val (put 7 n.val 0xF4800000))
  | .rtsend r a n => some (put 0 n.val (put 7 a.val (put 14 r.val 0xF6000000)))
  | .rtrecv d r n => some (put 0 n.val (put 7 r.val (put 14 d.val 0xF6200000)))
  | .rtsendq d a r => some (put 0 r.val (put 7 a.val (put 14 d.val 0xF6400000)))
  | .rtrecvq d r => some (put 0 r.val (put 14 d.val 0xF6600000))
  | .rtstat d r => some (put 0 r.val (put 14 d.val 0xF6800000))
  | .wpush d a b => some (put 0 b.val (put 7 a.val (put 14 d.val 0xF8000000)))
  | .wjoin d a => some (put 7 a.val (put 14 d.val 0xF8200000))
  | .ipush d a => some (put 7 a.val (put 14 d.val 0xF8400000))
  | .shset d a b => some (put 0 b.val (put 7 a.val (put 14 d.val 0xF8600000)))
  | .shinv a => some (put 7 a.val 0xF8800000)
  | .rep c x y z => some (put 13 z.val (put 15 y.val (put 17 x.val (put 19 c.val 0xFE000000))))
  | .queueAppend _ _ _ _ => none
  | .queueEnable _ _ _ => none
  | .queueDisable _ _ _ => none
  | .queueClr _ _ => none
  | .dispatchTake _ _ => none
  | .teamRelease _ => none
  | .coopBlock _ => none
  | .holdListDrain _ _ => none
  | .successorJoin _ => none
  | .teamExit _ => none
  | .itemChunkDeal _ _ => none
  | .powerWaitExpire _ => none
  | .quadPowerReady _ => none
  | .quadGate _ => none
  | .swapOutEligible _ => none
  | .swapOutForced _ => none
  | .swapIn _ => none
  | .quadFailure _ _ _ => none
  | .trimFailure _ _ => none
  | .bypassFailure _ => none
  | .latmatSweep _ _ => none
  | .capRaise _ _ => none
  | .engineDead _ => none
  | .cohortForm _ _ => none
  | .prewaitRelease _ _ => none
  | .switchParkEnd _ _ => none
  | .resultWrite _ _ => none
  | .storeFaultReport _ => none
  | .skidCountDeliver _ _ => none
  | .faultResponse _ _ => none
  | .fbheadWrite _ _ => none
  | .clrovfWrite _ _ => none
  | .homeReadMiss _ => none
  | .l1Fill _ => none
  | .homeStoreApply _ => none
  | .sharerUpdate _ => none
  | .storeAck _ => none
  | .listSplice _ _ => none
  | .l2Evict _ => none
  | .homeAtomic _ => none
  | .pinRefusalRetry _ => none
  | .viewBroadcast _ _ _ => none
  | .roundRefetch _ => none
  | .mwaitDeadline _ _ => none
  | .hostCompletion _ _ => none
  | .hostTimeout _ => none
  | .pageFillDone _ => none
  | .tokenRefill => none
  | .walkaheadTranslate _ _ => none
  | .engineAccept _ _ => none
  | .copyBlock _ _ => none
  | .copyComplete _ _ => none
  | .churnStep _ _ => none
  | .matrixComplete _ _ => none
  | .routeWordArrive _ _ _ _ => none
  | .routeBreak _ _ _ _ => none
  | .routeEnable _ _ _ _ => none
  | .routeDisable _ _ _ _ => none
  | .attrEntryWrite _ _ _ _ => none
  | .s1rootWrite _ _ _ => none
  | .s2rootWrite _ _ _ => none
  | .descConfigure _ _ => none
  | .descCommit _ _ => none
  | .descUncommit _ _ => none
  | .descRun _ _ => none
  | .descPreempt _ _ => none
  | .descRestore _ _ => none
  | .descHoldOut _ _ => none
  | .descFree _ _ => none
  | .descRecover _ _ => none
  | .quantumWrite _ _ _ => none
  | .vminReset _ => none
  | .registerWrite _ _ _ => none
  | .preemptHardStop _ _ => none
  | .engineStopAck _ _ _ => none
  | .saveDone _ _ _ => none
  | .preemptKill _ _ => none
  | .quantumExpire _ _ => none
  | .peerAccessReceive _ _ _ _ => none
  | .flitAck _ _ => none
  | .flitReplay _ => none
  | .packetTagDrop _ => none
  | .voltageSample _ _ => none
  | .powerSample _ _ => none
  | .spdmGetMeasurements _ _ _ => none
  | .tdispLockInterface _ _ => none
  | .boot _ => none
  | .restoreDone _ _ => none
  | .lossOfLock _ => none
  | .peerLinkLost _ => none
  | .tdispStartInterface _ _ => none
  | .leaseCreation _ _ => none

/-- An instruction word, as opposed to a step of another agent. -/
def Instr.isWord (i : Instr) : Bool := (encode i).isSome

/-- The decoder on a word of spec/opcode_table.json: every word of the machine is 32 bits, and its four bytes
lie little-endian (00 R10). -/
noncomputable def decodeTableWord (nbits w : Nat) : Option Instr :=
  if nbits = 32 then
    match decodeBytes (leBytes 4 w) with
    | .ok i => some i
    | .error _ => none
  else none

end Sys2Proof
end

