-- ==== Sys2Proof/Machine/State.lean ====
section
/-! DEFINITION. The state of the machine, as plain data, its stop reasons and the state after reset.
INVENTORY.md, "State", names for every field the rule of spec/ that gives it. Lists of pairs are maps with
strictly rising keys; an absent key holds the default that the reading operation names. -/
namespace Sys2Proof.Machine

/-- Why the machine stops with a fault. -/
inductive Fault where
  /-- Raised by an access, a fetch or an element of a copy of LEVEL 3 code at a wafer address at or above 84 x 2^35 and
  below 2^48, where 08 R168 says that no memory exists and 08 R174 gives LEVEL 3 no check. Safe. -/
  | noMemory
deriving DecidableEq, Repr

/-- Why a step has no meaning. -/
inductive Refusal where
  /-- Raised by `exec` for an instruction whose meaning is not written yet. Safe. -/
  | notModelled (mnemonic : String)
deriving DecidableEq, Repr

/-- Bytes at addresses, strictly rising, no byte equal to what an unlisted address reads as (zero). -/
abbrev Mem := List Host.Cell

/-- A vector clock: for each party, how many of its regions have been seen (11 R259, R270). -/
abbrev Clock := List (Nat × Nat)

/-- A program counter: a clause header address and a word index (05 R87). -/
structure Pc where
  addr : Nat
  idx : Nat
deriving DecidableEq, Repr

/-- A lane's monitor (12 R291, R293). `since` is when it fired. -/
structure Monitor where
  line : Nat
  va : Nat
  fired : Bool := false
  lapsed : Bool := false
  since : Nat := 0
deriving DecidableEq, Repr

/-- What a release published at a word (11 R258): the clock, the scope and the instance of the releaser. -/
structure Sync where
  vc : Clock
  scope : Nat
  team : Nat
  field : Nat
  lease : Nat
  ten : Nat
deriving DecidableEq, Repr

/-- A lane (00 R9, 06 R108). A register absent from `regs` holds the undefined value of gang start when
`fresh` gives the moment, and zero otherwise. `wseq` is the place in program order of a register's latest
write that has been written (06 R114). `sw` says that the word at which the lane parked has its SWITCH bit set
(05 R86). `yielded` is the tick of a `yield` after which the lane has issued nothing (06 R133), or zero.
`latch` is zero until the lane first reads CLKLO, then the latched high word plus one (07 R164). -/
structure Lane where
  regs : List (Nat × Word) := []
  wseq : List (Nat × Nat) := []
  fresh : Option Nat := none
  pc : Pc
  rep : Nat := 0
  level : Nat := 0
  live : Bool := true
  parked : Bool := false
  sw : Bool := false
  deferred : Bool := false
  yielded : Nat := 0
  released : Bool := false
  fpcr : Nat := 0
  seed : Nat := 0x9E3779B9
  latch : Nat := 0
  frame : Option Nat := none
  monitor : Option Monitor := none
  vc : Clock := []
  fenceSyncs : List Sync := []
  readSyncs : List Sync := []
deriving DecidableEq, Repr

/-- The repetition under way of a `rep` (05 R95, 06 R115). -/
structure RepState where
  count : Nat
  idx : Nat
  sd : Nat
  sa : Nat
  sb : Nat
deriving DecidableEq, Repr

/-- A cohort that has formed (06 R110): its lanes, its clause as fetched, and where it stands. `hold` says that
the word at `idx` has begun and waits for its accesses to be decided (09 R195, R197); `done` are the lanes for
which its word has issued before: a store in parts (09 R200), or a `mon` some of whose lanes a pin refuses, which tries again
at the enabled cycle `nextTry` (09 R197); `mark` counts those tries, or says that its word has begun; and `num` is the number of that word; `args` are the operands that an engine command read at issue while it
waits for room (10 R219), and `order` its place in issue order (10 R238). `span` are the lanes with which it formed, whose
slices it holds until it ends (06 R109), and `ready` is the tick since which it has been ready (06 R111). -/
structure Cohort where
  mask : Mask
  hdr : Nat
  count : Nat
  cls : Nat
  tail : Bool
  switches : Nat
  words : List Nat
  idx : Nat := 0
  rep : Option RepState := none
  hold : Bool := false
  done : Mask := 0
  num : Nat := 0
  args : List Word := []
  order : Nat := 0
  mark : Nat := 0
  nextTry : Nat := 0
  span : Mask := 0
  ready : Nat := 0
deriving DecidableEq, Repr

/-- An outstanding register result (06 R114). `val` is none while a load waits for its data. `pair` marks the two words of
a pair result, which are written together (07 R143). `due` is the enabled cycle of the core at which an ALU result is
written, if it has not been written before (07 R137). -/
structure Pending where
  lane : Nat
  reg : Nat
  seq : Nat
  val : Option Word
  long : Bool
  isLoad : Bool
  pair : Bool := false
  due : Option Nat := none
deriving DecidableEq, Repr

/-- A trap frame (17 R324). `kscr` holds KSCR0 to KSCR3 of its lanes, by 4 x lane + number; an absent one is zero
(log entry 29). -/
structure Frame where
  level : Nat
  prev : Nat
  mask : Mask
  cause : Nat
  sfr : Bool
  tpc : Pc
  tword : Nat
  taddr : Nat
  tinfo : Nat
  rep : Nat
  skip : Bool := false
  kscr : List (Nat × Word) := []
  fpstat : List (Nat × Nat) := []
  entered : Bool := false
  outer : Option Nat := none
deriving DecidableEq, Repr

/-- What a parked group waits for (06 R113). -/
inductive WaitKind where
  /-- The pre-wait bits WLD, WST, WENG, WLONG of a clause (05 R85). -/
  | prewait (bits : Nat)
  /-- A switch park (05 R86). -/
  | switchPark
  /-- An item value, for `refill` (06 R130). -/
  | refill (d : Nat)
  /-- The accesses that a `fence` waits for, with its order and scope codes (12 R286); order 4 is `sdrain`
  (09 R217). -/
  | fence (ord scope : Nat)
  /-- A held page request in a fault buffer (17 R323). -/
  | pageRequest (fb : FbRef) (req : Nat)
  /-- An answer that came while the sub-gang was saved (17 R344): its action, and the fault. -/
  | answered (action cause synd va : Nat)
  /-- The traps of an `sdrain` (09 R217): the lanes that took them, and the frame in which they stand when they have been
  handled. -/
  | handled (lanes : Mask) (frame : Option Nat)
  /-- Teams that a `halt.other` stops (17 R331). -/
  | halted (teams : List Nat)
  /-- A semaphore value, for `swait` and `sdec` (10 R227): the number N of the word and x. -/
  | semaphore (dec : Bool) (n : Nat) (x : Nat)
  /-- A round value m of region k, for `racq` (12 R289). -/
  | round (d k m : Nat)
  /-- A lane's monitor, for `mwait` (12 R292): the deadline on the a-cycle clock. -/
  | monitor (d : Nat) (trap : Bool) (deadline : Nat)
  /-- A route's words or room (12 R298): d and n of the word, and the words that a send read at issue. -/
  | route (send : Bool) (r d n : Nat) (vals : List Word)
  /-- A trap that waits because eight frames are held (17 R324). -/
  | frame (sfr : Bool) (cause tinfo taddr tword rep : Nat) (fpstat : List (Nat × Nat))
deriving DecidableEq, Repr

/-- A parked group of lanes of a gang (06 R113): the lanes keep the counters they hold; `next` and `nrep` say where
they go on, and `tword` is the word at which they parked. -/
structure Wait where
  mask : Mask
  kind : WaitKind
  next : Pc
  since : Nat := 0
  nrep : Nat := 0
  tword : Nat := 0
deriving DecidableEq, Repr

/-- An engine trap that is due for lanes of a gang (10 R223). -/
structure DueTrap where
  mask : Mask
  cause : Nat
  tinfo : Nat
deriving DecidableEq, Repr

/-- A gang (01 R14, 06 R108 to R131). `stack` is the join stack, innermost entry first, as expected and
arrived masks; an entry that is not among the eight innermost stands for its spill slot (06 R120). `copied` counts the
entries, from the bottom, that have a copy in their slots. `arrived` are the lanes that wait at `bar`. `readySince` and
`parkedSince` are counts of the enabled cycles of its quad (04 R76, R79). -/
structure Gang where
  team : Nat
  g : Nat
  core : Nat
  slot : Nat
  width : Nat
  nregs : Nat
  swapped : Bool := false
  readySince : Nat := 0
  lastIssue : Nat := 0
  parkedSince : Nat := 0
  stack : List (Mask × Mask) := []
  copied : Nat := 0
  gone : Mask := 0
  arrived : Mask := 0
  spillBase : Nat := 0
  spill : Nat := 0
  lanes : List Lane := []
  frames : List (Nat × Frame) := []
  cohorts : List (Nat × Cohort) := []
  waits : List (Nat × Wait) := []
  results : List (Nat × Pending) := []
  seq : Nat := 0
  floors : List (Nat × Nat) := []
  due : List DueTrap := []
deriving DecidableEq, Repr

/-- The fields of a work record that the machine uses (01 R16). -/
structure Rec where
  entry : Nat
  engerr : Bool
  item : Bool
  paired : Bool
  coop : Bool
  frame : Nat
  queue : Nat
  succ : Nat
  tx : Nat
  ty : Nat
  tz : Nat
  gangs : Nat
  wcode : Nat
  gx : Nat
  gy : Nat
  gz : Nat
  spill : Nat
  wbuf : Nat
  abuf : Nat
  regs : Nat
  affin : Nat
  icount : Nat
  ibase : Nat
deriving DecidableEq, Repr

/-- A launch: a record taken from a queue (03 R59). `tails` are its teams that have exited (01 R20). -/
structure Launch where
  dom : Dom
  queue : Nat
  addr : Nat
  desc : Rec
  spillBase : Nat := 0
  nextTeam : Nat := 0
  exited : Nat := 0
  halted : Bool := false
  joined : Bool := false
  takenAt : Nat := 0
  blocking : Bool := false
  admitted : Bool := false
  nextItem : Nat := 0
  returned : List Word := []
  vc : Clock := []
  exitVc : Clock := []
  tails : List Nat := []
deriving DecidableEq, Repr

/-- A team (01 R15, 04 R71 to R74). `xten` is the tenant through which it translates (17 R325, 20 R375). `begun` is the number
of `State.versions` when its first clause was fetched, `none` before that (05 R88). `savedA` and
`savedW` are the bytes of its windows while it is saved, by 2^20 x side + offset, and `savedMarks` what they carry: 0 and 1
poisoned units of A and W, 2 and 3 their double-bit errors (10 R248, R249). -/
structure Team where
  launch : Nat
  t : Nat
  lease : Nat
  tenant : Option Nat
  xten : Option Nat
  core : Nat
  paired : Bool
  abase : Nat := 0
  asize : Nat := 0
  wbase : Nat := 0
  wsize : Nat := 0
  abase2 : Nat := 0
  wbase2 : Nat := 0
  level : Nat := 0
  placed : Bool := true
  begun : Option Nat := none
  savedA : List Host.Cell := []
  savedW : List Host.Cell := []
  savedMarks : List (Nat × Nat) := []
  barVc : Clock := []
  halted : Bool := false
deriving DecidableEq, Repr

/-- A semaphore (10 R224, R225): the error record is eight words. -/
structure Sem where
  value : Nat := 0
  err : Bool := false
  faults : Nat := 0
  record : List Nat := []
  vc : Clock := []
deriving DecidableEq, Repr

/-- A store-fault record (17 R334) with the lane it belongs to and whether it awaits delivery. -/
structure SfRec where
  gang : Nat
  lane : Nat
  cause : Nat
  slot : Nat
  kind : Nat
  widx : Nat
  rep : Nat
  size : Nat
  synd : Nat
  clause : Nat
  addr : Nat
  value : Nat
  seq : Nat
  held : Option Nat := none
deriving DecidableEq, Repr

/-- What the writes of a word released (11 R258): `seq` by every write so far, which a later read-modify-write carries
on, and `now` by the write whose value the word holds, with the release sequences it belongs to. -/
structure WordSync where
  seq : List Sync := []
  now : List Sync := []
deriving DecidableEq, Repr

/-- A copy of a line in an L1 (08 R170, 11 R279): its 64 bytes, the partition and attribute index under which it was
reached, what the values of its words were released with and, for a round region, its stamp. -/
structure L1Line where
  data : List Byte
  syncs : List (Nat × List Sync) := []
  stamp : Nat := 0
  ten : Nat := 0
  aidx : Nat := 0
  round : Option Nat := none
  leaving : Bool := false
deriving DecidableEq, Repr

/-- A line in its home L2 slice (08 R169, R170): 32 x field + slice, whether it holds bytes that its DRAM lacks, and
whether its attribute entry names its field (PLACE). -/
structure L2Line where
  home : Nat
  dirty : Bool := false
  fixed : Bool := false
deriving DecidableEq, Repr

/-- A token bucket (08 R191): its tokens, and those that requests of the hardware have taken ahead of it. -/
structure Bucket where
  tokens : Nat
  owed : Nat := 0
deriving DecidableEq, Repr

/-- A sum-range partial of a core (09 R212, 11 R275): an exact integer, with the partition and the attribute index under
which its line was reached. -/
structure Partial where
  sum : Int
  ten : Nat := 0
  aidx : Nat := 0
deriving DecidableEq, Repr

/-- A pinned line of a core (11 R267): the team that holds it, the bytes, and the home, with PLACE. -/
structure Pin where
  team : Nat
  data : List Byte
  home : Nat := 0
  ten : Nat := 0
  aidx : Nat := 0
  fixed : Bool := false
deriving DecidableEq, Repr

/-- The entries that a walk ended at (08 R175, R185): the two leaves with their addresses and levels, and the
tenant and lease addresses. -/
structure Leaves where
  e1 : Nat := 0
  a1 : Nat := 0
  l1 : Nat := 0
  ta : Nat := 0
  e2 : Nat := 0
  a2 : Nat := 0
  l2 : Nat := 0
  la : Nat := 0
deriving DecidableEq, Repr

/-- A cached translation of a 64 KiB page (08 R185). -/
structure TlbEntry where
  ten : Nat
  lsq : Bool
  level : Nat
  vpage : Nat
  leaves : Leaves
deriving DecidableEq, Repr

/-- An entry of a walk cache (08 R185): a table entry that is no leaf, by its wafer address, under the partition and the
level of the walk. -/
structure WalkEntry where
  ten : Nat
  level : Nat
  addr : Nat
  entry : Nat
deriving DecidableEq, Repr

/-- A shape record that the engines of a quad hold (01 R25, 10 R254). -/
structure CachedShape where
  ten : Nat
  slot : Nat
  words : List Nat
deriving DecidableEq, Repr

/-- What pre-emption saves of a core beside its teams (10 R224, 17 R342). -/
structure SavedCore where
  sems : List (Nat × Sem) := []
  items : List (Nat × Word) := []
  sfq : List SfRec := []
deriving DecidableEq, Repr

/-- A 4-byte unit of a buffer or of a C-store as it was before a write that some reader may not see yet (09 R204; 10 R222,
R242): its bytes then, the offsets in it that the write changed, the gang or copy that wrote, with its party and clock, and
the cores whose `mfence` it precedes, each with the number from which their commands see it. `atomic` says that it was an A-buffer
atomic, which every lane and copy sees from then on (09 R211). -/
structure OldUnit where
  wbuf : Bool
  unit : Nat
  bytes : List Byte
  mask : List Nat
  gang : Nat
  party : Nat
  clk : Nat
  fenced : List (Nat × Nat) := []
  atomic : Bool := false
deriving DecidableEq, Repr

/-- A core (08 R171, 10 R224, 17 R334). `part` is the partition that last placed a team on it. `aBad` and `wBad` are the
64-byte units of its buffers that are poisoned (10 R249), `aErr` and `wErr` the bytes of 8-byte units with a double-bit
error (08 R173). Each partition has its own semaphores, by 64 x partition + number. Sum-range partials stand by twice
their element's address, plus one for an 8-byte element. `pipes` are the enabled cycles at which its slice pipes are free
again (06 R111), and `olds` the older contents of its buffers, the oldest first (log entry 90). -/
structure Core where
  part : Option Nat := none
  abuf : Mem := []
  wbuf : Mem := []
  aBad : List Nat := []
  wBad : List Nat := []
  aErr : List Nat := []
  wErr : List Nat := []
  sems : List (Nat × Sem) := []
  items : List (Nat × Word) := []
  sfq : List SfRec := []
  l1 : List (Nat × L1Line) := []
  pins : List (Nat × Pin) := []
  partials : List (Nat × Partial) := []
  tlb : List TlbEntry := []
  pipes : List (Nat × Nat) := []
  olds : List OldUnit := []
deriving DecidableEq, Repr

/-- What a global access does at its place of execution. -/
inductive AccOp where
  | load
  | bounded (view : Nat)
  | store
  | atomic (fn : Nat)
  | red (fn : Nat)
  | prefetch
  /-- A `sacc` on a sum-range page that waits for the revival of its page: the integer that it adds (09 R212). -/
  | sacc (v : Int)
  /-- The fill of `pfl2`: into the home L2 slice alone (09 R215). -/
  | fillL2
  /-- What a `mon` leaves behind while updates that its home applied before it are on their way (12 R294). -/
  | armed
deriving DecidableEq, Repr

/-- How far a global access has come (11 R263, R264). -/
inductive Phase where
  /-- In its core: it waits for the bytes or the line that are pending there (09 R208, 11 R264). -/
  | atCore
  /-- On its way to its home, or refused there by a pin. -/
  | toHome
  /-- The home has served it; the data travel back. -/
  | fill
  /-- Applied at the home; these sharers still have to apply the update. -/
  | updating (cores : List Nat)
  /-- Applied everywhere; the acknowledgement travels back. -/
  | acked
  /-- A store that its home has checked, and whose bytes a store of a higher lane in the same word may hide
  (09 R199). -/
  | behind
  /-- A PCIe request under way (08 R188). -/
  | host
  /-- Held for the zero fill of its page (08 R190). -/
  | reviving
  /-- An A-buffer atomic that has issued and not been applied (09 R211); its `pa` is 2^20 x core + byte of the buffer. -/
  | scratch
  /-- A fault decided remotely travels back (17 R335). -/
  | faulted (cause synd : Nat)
deriving DecidableEq, Repr

/-- A global access under way. `ten` is the coherence partition of its team, `dst` names the outstanding results
it will supply, `pubs` what its write publishes, `cohort` the cohort that waits at its word until the access is
decided (0 for none). `bound` and `trapMode` are the b and m of a bounded load (09 R201); `hidden` says that a higher lane
of the same store has written its bytes (09 R199); `nows` is what the words it moves were released with (11 R258); `held`
is its place among the requests that wait for tokens, with the bucket (08 R191). -/
structure Access where
  gang : Nat
  lane : Nat
  team : Nat
  core : Nat
  lease : Nat
  ten : Nat
  op : AccOp
  va : Nat
  pa : Nat
  kind : Nat
  mode : Nat
  attr : Nat
  size : Nat
  data : List Byte := []
  old : List Byte := []
  cmp : Nat := 0
  ord : Nat := 0
  scope : Nat := 2
  dst : List Nat := []
  signed : Bool := false
  seq : Nat := 0
  wseq : Nat := 0
  pc : Pc
  rep : Nat := 0
  issued : Nat := 0
  party : Nat := 0
  clk : Nat := 0
  vc : Clock := []
  pubs : List Sync := []
  cohort : Nat := 0
  home : Nat := 0
  aidx : Nat := 0
  level : Nat := 0
  disc : Bool := false
  leaves : Leaves := {}
  phase : Phase := .toHome
  refusals : Nat := 0
  nextTry : Nat := 0
  applied : Nat := 0
  stamp : Nat := 0
  held : Option (Nat × Nat) := none
  precise : Bool := false
  bound : Nat := 0
  trapMode : Bool := false
  hidden : Bool := false
  nows : List (Nat × List Sync) := []
deriving DecidableEq, Repr

/-- A word mark (11 R272): the party and its region, the class of the access, the place that keeps it (home slices by field
and slice, or 100000 + core for a pinned line), and whether its page has PLACE set. -/
structure Mark where
  place : Nat
  word : Nat
  lease : Nat
  ten : Nat
  party : Nat
  gang : Nat
  clk : Nat
  cls : Nat
  fixed : Bool := false
deriving DecidableEq, Repr

/-- A registration of a monitor at a home (12 R291): `ten` is the partition of the lane, `xten` the tenant whose
attribute table governs the line. -/
structure MonReg where
  line : Nat
  gang : Nat
  lane : Nat
  home : Nat := 0
  ten : Nat := 0
  xten : Nat := 0
  aidx : Nat := 0
deriving DecidableEq, Repr

/-- A copy command of a quad's copy engine (10 R219, R230). `recs` are the shape records as accepted: source,
destination, index; `args` are v[d] to v[d+3] and V(ld,a); `pos` is the next position; `writing` are the updates of its
writes that have not been performed; `poisoned` is the offset of the first poisoned element that it left unwritten, with its
position; `stopped` is
the error, its address and its syndrome. `asked` is the read of a host page that waits for its completion since `since`,
as the address of its element and the access code, and `granted` says that the completion has come (08 R188); `held` is its
place among the requests that wait for tokens, with the bucket (08 R191). -/
structure Copy where
  gang : Nat
  mask : Mask
  team : Nat
  lease : Nat
  ten : Nat
  xten : Option Nat
  level : Nat
  core : Nat
  op : Nat
  recs : List (List Nat)
  args : List Nat
  pos : Nat := 0
  clk : Nat := 0
  vc : Clock := []
  writing : List Nat := []
  poisoned : Option (Nat × Nat) := none
  stopped : Option (Nat × Nat × Nat) := none
  refusals : Nat := 0
  nextTry : Nat := 0
  asked : Option (Nat × Nat) := none
  granted : Bool := false
  since : Nat := 0
  held : Option (Nat × Nat) := none
deriving DecidableEq, Repr

/-- A command of a matrix engine (10 R237 to R247). `home` is the quad whose C-store it writes; `step` counts the
K-groups complete; `order` is its place in issue order (10 R222, R238); `guest` says that its last step ran on a guest
engine (10 R251), and `seen` is the clock of its lanes at its issue, with the copies that they observed (R222). `settled` says that the flags of its tile have changed with it (10 R246). -/
structure MCmd where
  uid : Nat
  gang : Nat
  mask : Mask
  team : Nat
  lease : Nat
  ten : Nat
  level : Nat
  core : Nat
  home : Nat
  op : Nat
  recs : List (List Nat)
  args : List Nat
  vc : Clock := []
  seen : Clock := []
  step : Nat := 0
  poisoned : List Nat := []
  ovfRows : List Nat := []
  done : Bool := false
  stopped : Option Nat := none
  order : Nat := 0
  guest : Bool := false
  settled : Bool := false
deriving DecidableEq, Repr

/-- What a C-store holds for a partition that it does not serve now, while the partition has a team on the quad (08 R173):
as in `Array`. -/
structure TileSet where
  cstore : Mem := []
  ovf : List Nat := []
  poison : List Nat := []
  cErr : List Nat := []
deriving DecidableEq, Repr

/-- An array of a matrix engine, with the C-store of its pair (10 R219, R243, R246, R249, R252): the queue of the
pair's commands, which a dead quad's neighbour runs as its guest queue (10 R250), the C-store's bytes, and the OVF and
poison flags of its rows by row number 128 x tile + row. `part` is the partition that the C-store serves, and `parked` are
the contents of others. `faulty` is a defect of the datapath, `upset` a soft error that its next step meets (10 R248), and
`cErr` are the bytes of the 8-byte units of the C-store with a double-bit error (08 R173). `olds` are the older contents that
`acwr` left, and `was` the C-store before each step of a command that is outstanding, by its number and its tile (10 R242,
R246; log entry 90). -/
structure Array where
  part : Option Nat := none
  queue : List MCmd := []
  lastGuest : Bool := false
  cstore : Mem := []
  ovf : List Nat := []
  poison : List Nat := []
  faulty : Bool := false
  upset : Bool := false
  cErr : List Nat := []
  olds : List OldUnit := []
  was : List (Nat × Nat × Mem) := []
  parked : List (Nat × TileSet) := []
deriving DecidableEq, Repr

/-- What pre-emption saves of a quad beside its teams: its cores by index, its arrays and its copies (17 R342). -/
structure SavedQuad where
  cores : List (Nat × SavedCore) := []
  arrays : List (Nat × Array) := []
  copies : List (Nat × Copy) := []
deriving DecidableEq, Repr

/-- A quad's platform state and engines (04 R67, R81; 10; 19 R373). `capBase` are the a-cycles on which it had issued when
its present CAP began, at `capSince` (04 R79). -/
structure Quad where
  pwr : Nat := 3
  cap : Nat := 0
  capSince : Nat := 0
  capBase : Nat := 0
  trim : Bool := false
  eng : Nat := 0
  guest : Bool := false
  waitSince : Nat := 0
  idleSince : Nat := 0
  vmin : Nat := 0xFFFF
  vtime : Nat := 0
  vten : Nat := 0
  noten : Bool := true
  copies : List (Nat × Copy) := []
  walkAhead : List TlbEntry := []
  walks : List WalkEntry := []
  shapes : List CachedShape := []
  arrays : List (Nat × Array) := []
deriving DecidableEq, Repr

/-- An outstanding hardware queue access that a TYPE 9 entry reports (03 R382). -/
inductive HwAccess where
  | takeEntry (q : Nat)
  | takeRecord (q addr : Nat)
  /-- The read of the frame's first doubleword, with the record as read (01 R18, R22). -/
  | takeFrame (q addr : Nat) (words : List Nat)
  | ringWrite (q slot addr : Nat)
  | joinRead (addr : Nat) (vc : Clock)
  | succ (launch : Nat)
  /-- An access for a ring that has been enabled again since: its answer does nothing (03 R53). -/
  | gone
deriving DecidableEq, Repr

/-- A queue control block and its hold list (03 R53, R58). `waiting` and `dead` name by TAIL value the entries whose
ring write waits for an answer, or was abandoned (03 R382); `vcs` holds what each append released. -/
structure Queue where
  qbase : Nat := 0
  en : Bool := false
  wm1 : Nat := 0
  prio : Nat := 0
  logsz : Nat := 0
  head : Nat := 0
  tail : Nat := 0
  drops : Nat := 0
  held : List (Nat × Clock) := []
  last : Nat := 0
  badw : Bool := false
  coophold : Bool := false
  stalled : Bool := false
  waiting : List Nat := []
  dead : List Nat := []
  vcs : List (Nat × Clock) := []
deriving DecidableEq, Repr

/-- What waits for the answer to a request in a fault buffer (17 R339). -/
inductive ReqKind where
  | page (gang wait : Nat) (cause synd va : Nat)
  | migrate
  | hw (dom : Dom) (acc : HwAccess)
deriving DecidableEq, Repr

/-- A fault buffer (17 R337). Entries held, oldest first, are their eight words. `reqs` are the outstanding requests:
number, the generation of the entry, and what waits. -/
structure FaultBuffer where
  head : Nat := 0
  tail : Nat := 0
  ovf : Bool := false
  held : List (List Nat) := []
  ovfie : Bool := false
  entie : Bool := false
  dropresp : Nat := 0
  base : Nat := 0
  count : Nat := 0
  reqs : List (Nat × Nat × ReqKind) := []
deriving DecidableEq, Repr

/-- A dispatcher's rotation: for each priority the queue at the pointer and the credits of the queues
(03 R60). -/
structure Disp where
  ptr : List (Nat × Nat) := []
  credit : List (Nat × Nat) := []
deriving DecidableEq, Repr

/-- A static route (12 R295 to R301): its sixteen doublewords, whether it broke, and for each station the LOST
count, the FIFO, and the words under way from it, oldest first. -/
structure Route where
  words : List (Nat × Nat) := []
  broken : Bool := false
  lost : List (Nat × Nat) := []
  fifos : List (Nat × List Nat) := []
  flight : List (Nat × List Nat) := []
deriving DecidableEq, Repr

/-- The pre-emption ladder of a tenant (17 R343); `owner` marks the hard stop of a quiesce, after which the tenant goes on
where it was (19 R360). -/
structure Ladder where
  t0 : Nat
  hard : Option Nat := none
  acks : List Nat := []
  sliced : Bool := false
  owner : Bool := false
deriving DecidableEq, Repr

/-- The shape words of a descriptor: rectangles, channel mask, memory extent and queue word (19 R356, R357). -/
structure ShapeWords where
  rects : List Nat
  chmask : Nat
  membase : Nat
  memsize : Nat
  queuesW : Nat
deriving DecidableEq, Repr

/-- A tenant: descriptor words, key, trap and detection state, queues, routes (19 R355 to R358 and others). `draft` are
the shape words as rewritten in state 5, which take effect at the restore (19 R357). -/
structure Tenant where
  state : Nat := 0
  flags : Nat := 0
  out : Bool := false
  rects : List Nat := []
  chmask : Nat := 0
  membase : Nat := 0
  memsize : Nat := 0
  queuesW : Nat := 0
  refill : Nat := 0
  depth : Nat := 0
  weight : Nat := 0
  quantum : Nat := 0
  s2root : Nat := 0
  vf : Nat := 0
  msix : Nat := 0
  fbbase : Nat := 0
  fbcount : Nat := 0
  tvec : Nat := 0
  shbase : Nat := 0
  shslots : Nat := 0
  status : Nat := 0
  t1 : Nat := 1000
  t2 : Nat := 100
  lastsave : Nat := 0
  rewritten : Bool := false
  draft : Option ShapeWords := none
  restoring : Bool := false
  tag : Option Nat := none
  key : Option Nat := none
  pgen : Nat := 0
  startAt : Option Nat := none
  s1root : Nat := 0
  attrs : List (Nat × Nat) := []
  hostmask : Nat := 0
  haltcode : Nat := 0
  drops : Nat := 0
  moved : Bool := false
  seen : Bool := false
  incomplete : Bool := false
  cnt : List (Nat × Nat) := []
  cntVc : List (Nat × Clock) := []
  views : List (Nat × Nat) := []
  bcasts : List (Nat × Nat × Nat) := []
  fb : FaultBuffer := {}
  queues : List (Nat × Queue) := []
  disp : Disp := {}
  routes : List (Nat × Route) := []
  counters : List (Nat × Nat) := []
  answers : List (Dom × HwAccess × Bool) := []
  saved : List (Nat × SavedQuad) := []
  ladder : Option Ladder := none
  quantumAt : Option Nat := none
  quanta : Nat := 0
deriving DecidableEq, Repr

/-- A lease (08 R180, 17 R325, 19 R359). `quiet` says that a quiesce has stopped its service code (19 R360). -/
structure Lease where
  createdAt : Nat
  rows : Nat
  cols : Nat
  row0 : Nat
  col0 : Nat
  qbase : Nat
  qcnt : Nat
  extents : List (Nat × Nat)
  mapgen : Nat := 1
  save : Nat := 0
  latmat : Nat := 0
  latGen : Nat := 0
  tvec : Nat := 0
  hostmask : Nat := 0
  port : Nat := 0
  vfn : Nat := 0
  peers : List (Nat × Nat) := []
  fb : FaultBuffer := {}
  lsq : Queue := {}
  disp : Disp := {}
  health : List (Nat × Nat) := []
  quiet : Bool := false
deriving DecidableEq, Repr

/-- A field's logical map: where each of its 64 logical positions lies, as 9 x physical row + physical column
plus one, or zero for a void position; the defective physical quads from which the map was built, as 9 x row + column;
and those that failed without a repair, whose position is void (04 R64, R66). -/
structure Field where
  map : List Nat := []
  defects : List Nat := []
  voided : List Nat := []
deriving DecidableEq, Repr

/-- A peer link at the wafer edge (19 R369, 10 R235). -/
structure PeerLink where
  lease : Option Nat := none
  tenant : Nat := 0
  down : Bool := false
deriving DecidableEq, Repr

/-- A fabric link: the packets kept until acknowledged, and failed replays (19 R371). -/
structure Link where
  dead : Bool := false
  sent : List Nat := []
  fails : Nat := 0
deriving DecidableEq, Repr

/-- A virtual function of a port (03 R52, 19 R368): 0 unlocked, 1 locked, 2 run. -/
structure Function where
  tdisp : Nat := 0
deriving DecidableEq, Repr

/-- What the device shows outside. -/
inductive Output where
  | interrupt (port vfn vector : Nat)
  | spdm (port vfn : Nat) (words signature : List Nat)
  | tdisp (port vfn : Nat) (ok : Bool)
  /-- Bytes on a peer link: those that a write carries, of each the bits of a mask, or those that a read answers. -/
  | peer (link : Nat) (write : Bool) (addr : Nat) (bytes : List Byte) (mask : Nat)
  | peerRefused (link : Nat)
  | replay (link packet : Nat)
  | machineError (kind core : Nat)
  /-- A doubleword that a `cfgw` at LEVEL 3 writes in the owner space (17 R332; log entry 81). -/
  | ownerWrite (offset value : Nat)
deriving DecidableEq, Repr

/-- The machine. `failing` are the physical quads whose failure a quiesce is about to take in, as 81 x field + 9 x row + column
(19 R360). `versions` are the bytes that the lines of memory held before each write, by line, the oldest first; the lines of a
page that has been zeroed keep none (05 R88, 08 R190; log entry 94). -/
structure State where
  tick : Nat := 0
  cur : Nat × Nat := (0, 0)
  inputs : List Instr := []
  outbox : List Output := []
  nextId : Nat := 1
  now : Nat := 0
  mem : Mem := []
  host : Mem := []
  hostErrors : List Nat := []
  badLines : List Nat := []
  l2 : List (Nat × L2Line) := []
  sharers : List (Nat × List Nat) := []
  holders : List (Nat × List Nat) := []
  marks : List Mark := []
  monRegs : List MonReg := []
  accesses : List (Nat × Access) := []
  syncs : List (Nat × WordSync) := []
  joinVcs : List (Nat × Clock) := []
  fills : List Nat := []
  buckets : List (Nat × Bucket) := []
  refillAt : Nat := 0
  booted : Bool := false
  fields : List (Nat × Field) := []
  ownerTvec : Nat := 0
  ownerFb : FaultBuffer := {}
  peerLinks : List (Nat × PeerLink) := []
  links : List (Nat × Link) := []
  failing : List Nat := []
  versions : List (Nat × List Byte) := []
  fns : List (Nat × Function) := []
  quads : List (Nat × Quad) := []
  leases : List (Nat × Lease) := []
  tenants : List (Nat × Tenant) := []
  launches : List (Nat × Launch) := []
  teams : List (Nat × Team) := []
  gangs : List (Nat × Gang) := []
  cores : List (Nat × Core) := []
deriving DecidableEq, Repr

/-- The machine right after power-on reset, before owner firmware boots it (04 R64): no lease, tenant, launch
or team exists, memory lists nothing. -/
def State.reset : State := {}

end Sys2Proof.Machine
end

