-- ==== Sys2Proof/Machine/Ops.lean ====
section
/-! DEFINITION. The named operations over memory, registers, lanes and cohorts, fault buffers, halts, and taking
a trap and returning from one. The meanings of the instructions are written over these. -/
namespace Sys2Proof.Machine

/-! ### Bytes at addresses -/

/-- The byte an address holds; an unlisted address reads zero (log entry 4). -/
def memByte (m : Mem) (a : Nat) : Byte := assocGet 0 m a

/-- Write one byte, keeping the canonical form: rising addresses, no zero listed. -/
def memSet (m : Mem) (a : Nat) (b : Byte) : Mem :=
  match m with
  | [] => if b = 0 then [] else [(a, b)]
  | (j, c) :: rest =>
    if a < j then (if b = 0 then (j, c) :: rest else (a, b) :: (j, c) :: rest)
    else if a = j then (if b = 0 then rest else (a, b) :: rest)
    else (j, c) :: memSet rest a b

/-- n bytes from an address on. -/
def memRead (m : Mem) (a : Nat) : Nat → List Byte
  | 0 => []
  | n + 1 => memByte m a :: memRead m (a + 1) n

/-- Bytes written from an address on. -/
def memWrite (m : Mem) (a : Nat) : List Byte → Mem
  | [] => m
  | b :: bs => memWrite (memSet m a b) (a + 1) bs

/-- The little-endian number in n bytes. -/
def memNat (m : Mem) (a n : Nat) : Nat := ofLeBytes (memRead m a n)

/-- A little-endian number written into n bytes. -/
def memPut (m : Mem) (a n x : Nat) : Mem := memWrite m a (leBytes n x)

/-- The listed addresses rise strictly, from above a lower bound, and no byte is zero. -/
def memCanonFrom (lo : Nat) : Mem → Bool
  | [] => true
  | (a, b) :: rest => decide (lo ≤ a) && decide (b ≠ 0) && memCanonFrom (a + 1) rest

/-- The canonical form of a memory. -/
def memCanon (m : Mem) : Bool := memCanonFrom 0 m

/-- Bytes written within a line's 64 bytes. -/
def patchLine (data : List Byte) (off : Nat) (bs : List Byte) : List Byte :=
  data.take off ++ bs ++ data.drop (off + bs.length)

/-- The 64-byte line of an address. -/
def lineOf (a : Nat) : Nat := a / 64

/-! ### Parts of the state -/

/-- Whether a number lies in a list. -/
def isIn (xs : List Nat) (x : Nat) : Bool := xs.any (· == x)

/-- A list with a number added at its head, unless it holds it. -/
def addIn (xs : List Nat) (x : Nat) : List Nat := if isIn xs x then xs else x :: xs

/-- A lane that does not exist. -/
def noLane : Lane := { pc := ⟨0, 0⟩, live := false }

def State.gang? (s : State) (g : Nat) : Option Gang := assocGet? s.gangs g
def State.team? (s : State) (t : Nat) : Option Team := assocGet? s.teams t
def State.launch? (s : State) (l : Nat) : Option Launch := assocGet? s.launches l
def State.lease? (s : State) (l : Nat) : Option Lease := assocGet? s.leases l
def State.core (s : State) (c : Nat) : Core := assocGet {} s.cores c
def State.quad (s : State) (q : Nat) : Quad := assocGet {} s.quads q
def State.tenantOf (s : State) (k : Nat) : Tenant := assocGet {} s.tenants k

def State.setGang (s : State) (g : Nat) (x : Gang) : State := { s with gangs := assocSet s.gangs g x }
def State.setTeam (s : State) (t : Nat) (x : Team) : State := { s with teams := assocSet s.teams t x }
def State.setLaunch (s : State) (l : Nat) (x : Launch) : State := { s with launches := assocSet s.launches l x }
def State.setLease (s : State) (l : Nat) (x : Lease) : State := { s with leases := assocSet s.leases l x }
def State.setCore (s : State) (c : Nat) (x : Core) : State := { s with cores := assocSet s.cores c x }
def State.setQuad (s : State) (q : Nat) (x : Quad) : State := { s with quads := assocSet s.quads q x }
def State.setTenant (s : State) (k : Nat) (x : Tenant) : State := { s with tenants := assocSet s.tenants k x }

/-- The key of tenant n of a lease in `State.tenants`; n = 16 stands for the lease service code (17 R325), whose entry
holds the rounds, the detection state and nothing else. -/
def tkey (lease n : Nat) : Nat := 17 * lease + n

/-- The lease and the tenant number of a key. -/
def keyLease (k : Nat) : Nat := k / 17
def keyNo (k : Nat) : Nat := k % 17

/-- Whether a key is that of lease service code. -/
def isService (k : Nat) : Bool := keyNo k == 16

/-- The coherence partition of a team: its tenant, or the lease service code. -/
def Team.part (t : Team) : Nat := tkey t.lease (t.tenant.getD 16)

/-- Change the gang with this number, if there is one. -/
def State.onGang (s : State) (g : Nat) (f : Gang → Gang) : State :=
  match s.gang? g with
  | none => s
  | some x => s.setGang g (f x)

def State.onTeam (s : State) (t : Nat) (f : Team → Team) : State :=
  match s.team? t with
  | none => s
  | some x => s.setTeam t (f x)

def State.onCore (s : State) (c : Nat) (f : Core → Core) : State := s.setCore c (f (s.core c))
def State.onQuad (s : State) (q : Nat) (f : Quad → Quad) : State := s.setQuad q (f (s.quad q))

/-- Change the tenant with this key, if it exists. -/
def State.onTenant (s : State) (k : Nat) (f : Tenant → Tenant) : State :=
  match assocGet? s.tenants k with
  | none => s
  | some x => s.setTenant k (f x)

/-- Change a partition; the entry of lease service code comes to be with its first change. -/
def State.onPart (s : State) (k : Nat) (f : Tenant → Tenant) : State := s.setTenant k (f (s.tenantOf k))

/-- Tenant counter i counts n more, in state 3 only, and wraps (19 R374). -/
def State.tally (s : State) (part i n : Nat) : State :=
  s.onTenant part (fun t =>
    if t.state = 3 then { t with counters := assocSet t.counters i ((assocGet 0 t.counters i + n) % 2 ^ 64) } else t)

/-- Whether an engine class of a partition has acknowledged a stop, and its state is frozen (17 R342): 0 lanes, 1 copy,
2 churn, 3 routes, 4 dispatcher, 5 item queues. -/
def State.acknowledged (s : State) (part cls : Nat) : Bool := (s.tenantOf part).ladder.any (fun l => isIn l.acks cls)

/-- Take the next unused identifier. -/
def State.fresh (s : State) : Nat × State := (s.nextId, { s with nextId := s.nextId + 1 })

/-- A free choice among n outcomes, told apart by a number within one step (Config.freePick). -/
def State.pick (s : State) (tag n : Nat) : Nat := Config.freePick s.tick tag % n

/-- The logical quad of a logical core (00 R2). -/
def quadOfCore (c : Nat) : Nat := c / 4

/-- The field of a logical quad: quad 96 x row + col lies in field 12 x (row / 8) + col / 8 (00 R2). -/
def fieldOfQuad (q : Nat) : Nat := 12 * (q / 96 / 8) + q % 96 / 8
def fieldOfCore (c : Nat) : Nat := fieldOfQuad (quadOfCore c)

/-! ### Bytes in coherence order -/

/-- The core that holds a line pinned, and the pin. -/
def State.pinOf (s : State) (line : Nat) : Option (Nat × Pin) :=
  s.cores.findSome? (fun c => (assocGet? c.2.pins line).map (fun p => (c.1, p)))

/-- The n bytes that wafer memory holds from an address on, within one line, in coherence order: in the pin of the line,
or at its home. A page that is being zeroed reads as zero (08 R190). -/
def State.hwBytes (s : State) (a n : Nat) : List Byte :=
  match s.pinOf (lineOf a) with
  | some (_, p) => (p.data.drop (a % 64)).take n
  | none => if isIn s.fills (a / 2 ^ 16) then List.replicate n 0 else memRead s.mem a n

/-- The bytes that a line holds are kept before a write changes them, for the teams that may still fetch them (05 R88; log
entry 94). -/
def State.keepLine (s : State) (line : Nat) : State :=
  { s with versions := s.versions ++ [(line, s.hwBytes (64 * line) 64)] }

/-- The byte that wafer memory holds in coherence order. -/
def State.hwByte (s : State) (a : Nat) : Byte := (s.hwBytes a 1).headD 0

/-- The aligned little-endian number of n bytes in coherence order. -/
def State.hwNat (s : State) (a n : Nat) : Nat := ofLeBytes (s.hwBytes a n)

/-- The number that stands for the hardware's own accesses where a gang is named. -/
def hwGang : Nat := 2 ^ 41

/-- Bytes within one line written by the hardware in coherence order (08 R184, 11 R264): into the pin of the line, or at
its home, from where the update travels the line's list. -/
def State.hwPut (s : State) (a : Nat) (bs : List Byte) : State :=
  let line := lineOf a
  let s : State := s.keepLine line
  match s.pinOf line with
  | some (c, p) =>
    s.setCore c { s.core c with pins := assocSet (s.core c).pins line { p with data := patchLine p.data (a % 64) bs } }
  | none =>
    let s : State := { s with
      mem := memWrite s.mem a bs
      l2 := match assocGet? s.l2 line with
        | some x => assocSet s.l2 line { x with dirty := true }
        | none => s.l2 }
    match assocGet [] s.sharers line with
    | [] => s
    | ts => { s with
        nextId := s.nextId + 1
        accesses := assocSet s.accesses s.nextId
          { gang := hwGang, lane := 0, team := hwGang, core := hwGang, lease := 0, ten := hwGang, op := .store, va := a, pa := a,
            kind := 0, mode := 0, attr := 0, size := bs.length, data := bs, pc := ⟨0, 0⟩, issued := s.now,
            phase := .updating ts, applied := s.nextId } }

/-! ### Lanes -/

def Gang.lane (g : Gang) (l : Nat) : Lane := g.lanes.getD l noLane

/-- Change the lanes of a mask, from lane number i on. -/
def mapLanesFrom (m : Mask) (f : Nat → Lane → Lane) : Nat → List Lane → List Lane
  | _, [] => []
  | i, x :: xs => (if m.getLsbD i then f i x else x) :: mapLanesFrom m f (i + 1) xs

def Gang.mapLanes (g : Gang) (m : Mask) (f : Nat → Lane → Lane) : Gang :=
  { g with lanes := mapLanesFrom m f 0 g.lanes }

/-- The mask of the lanes of a gang that satisfy p. -/
def Gang.lanesWhere (g : Gang) (p : Nat → Lane → Bool) : Mask :=
  maskOf ((List.range g.lanes.length).filter (fun i => p i (g.lane i)))

/-- V(L,r): a register at or above 8 x REGS reads as an undefined word (01 R16); a register that nothing has
written holds the undefined value of gang start (06 R108), or zero in a lane without one (log entry 11). -/
def State.reg (s : State) (g : Gang) (l r : Nat) : Word :=
  if r < 8 * g.nregs then
    match assocGet? (g.lane l).regs r with
    | some v => v
    | none =>
      match (g.lane l).fresh with
      | some t => Config.freeReg (2 * t + 1) l r
      | none => 0
  else Config.freeReg (2 * s.tick) l r

/-- P(L,r): the pair with its high word in the odd register (00 R11). -/
def State.pair (s : State) (g : Gang) (l r : Nat) : Nat :=
  (s.reg g l (r + 1)).toNat * 2 ^ 32 + (s.reg g l r).toNat

/-- The value of n registers from r on, the first lowest. -/
def State.regBytes (s : State) (g : Gang) (l r : Nat) : Nat → List Byte
  | 0 => []
  | n + 1 => leBytes 4 (s.reg g l r).toNat ++ s.regBytes g l (r + 1) n

/-- A result written: kept only when no later write in program order has been written before it (06 R114), and
when the register lies below 8 x REGS (01 R16). -/
def Lane.write (x : Lane) (nregs r seq : Nat) (v : Word) : Lane :=
  if r < 8 * nregs ∧ assocGet 0 x.wseq r ≤ seq then
    { x with regs := assocSet x.regs r v, wseq := assocSet x.wseq r seq }
  else x

/-- An exact write of a register of one lane, now: no write that is later in program order exists. -/
def Gang.writeNow (g : Gang) (l r : Nat) (v : Word) : Gang :=
  g.mapLanes (maskOf [l]) (fun _ x =>
    if r < 8 * g.nregs then { x with regs := assocSet x.regs r v, wseq := assocSet x.wseq r g.seq } else x)

/-- Outstanding results added to a gang (06 R114), numbered from n on. -/
def Gang.pend (g : Gang) (n l : Nat) (long isLoad pair : Bool) : List (Nat × Option Word) → Gang
  | [] => g
  | (r, v) :: rest =>
    Gang.pend { g with results := g.results ++ [(n, ⟨l, r, g.seq, v, long, isLoad, pair, none⟩)] } (n + 1) l long isLoad pair rest

/-- Whether a gang has results outstanding for lanes of a mask. -/
def Gang.outstanding (g : Gang) (m : Mask) : Bool := g.results.any (fun p => m.getLsbD p.2.lane)

/-! ### The acting cohort -/

/-- What a word sees of its cohort: the gang's and the cohort's numbers and contents. -/
structure Acting where
  gid : Nat
  gang : Gang
  cid : Nat
  co : Cohort
  team : Team

/-- The cohort that issues in this step. -/
def State.acting (s : State) : Option Acting :=
  match s.gang? s.cur.1 with
  | none => none
  | some g =>
    match assocGet? g.cohorts s.cur.2, s.team? g.team with
    | some c, some t => some ⟨s.cur.1, g, s.cur.2, c, t⟩
    | _, _ => none

/-- A word's effect for the acting cohort; with no cohort there is no lane and no effect. -/
def State.act (s : State) (f : Acting → State) : State :=
  match s.acting with
  | none => s
  | some a => f a

/-- The lanes of the acting cohort, ascending. -/
def Acting.lanes (a : Acting) : List Nat := lanesOf a.co.mask

/-- The leader lane: the lowest LANE of the cohort (17 R331). -/
def Acting.leader (a : Acting) : Nat := lowBit 64 a.co.mask.toNat

/-- The LEVEL of the cohort's lanes: lanes of one cohort stand in one frame or in none (06 R110). -/
def Acting.level (a : Acting) : Nat := (a.gang.lane a.leader).level

/-- The counter of the word that the cohort stands at. -/
def Acting.pc (a : Acting) : Pc := ⟨a.co.hdr, a.co.idx⟩

/-- The address of the clause that follows (06 R117: N). -/
def Cohort.after (c : Cohort) : Nat := (c.hdr + 4 * (c.count + 1)) % 2 ^ 48

/-- The counter after the word at idx (05 R83). -/
def Cohort.nextPc (c : Cohort) : Pc := if c.idx + 1 < c.count then ⟨c.hdr, c.idx + 1⟩ else ⟨c.after, 0⟩

/-- Whether the SWITCH bit of the word at idx is set (05 R86). -/
def Cohort.switchBit (c : Cohort) : Bool := bit c.switches c.idx

/-- The repetition index of the word under way (06 R115). -/
def Cohort.repIdx (c : Cohort) : Nat :=
  match c.rep with
  | some r => r.idx
  | none => 0

/-- The word at which the cohort stands, with the steps of `rep` added (05 R95). F3 and FA words step d at 14,
a at 7 and b at 0; FI words step d at 18 and a at 11; FW words step d at 18. -/
def repWord (w : Nat) (r : RepState) : Nat :=
  let major := bits w 31 25
  if bits w 31 0 = 0 then w
  else if 0x08 ≤ major ∧ major ≤ 0x13 ∨ 0x22 ≤ major ∧ major ≤ 0x23 ∨ 0x30 ≤ major ∧ major ≤ 0x47 then
    w + r.idx * (r.sd * 2 ^ 18 + r.sa * 2 ^ 11)
  else if major = 0x14 ∨ major = 0x15 then w + r.idx * (r.sd * 2 ^ 18)
  else w + r.idx * (r.sd * 2 ^ 14 + r.sa * 2 ^ 7 + r.sb)

def Cohort.word (c : Cohort) : Nat :=
  match c.rep with
  | some r => repWord (c.words.getD c.idx 0) r
  | none => c.words.getD c.idx 0

/-- The acting cohort issues its word: the gang has issued one word more (06 R111, 17 R335),
and its tenant counts it. -/
def State.issue (s : State) : State :=
  let s' : State := s.onGang s.cur.1 (fun g => { g with seq := g.seq + 1, lastIssue := s.now })
  match s.acting with
  | none => s'
  | some a => s'.tally a.team.part 0 1

/-- Change the acting cohort. -/
def State.onCohort (s : State) (f : Cohort → Cohort) : State :=
  s.onGang s.cur.1 (fun g =>
    match assocGet? g.cohorts s.cur.2 with
    | none => g
    | some c => { g with cohorts := assocSet g.cohorts s.cur.2 (f c) })

/-- End the acting cohort (06 R110). -/
def State.endCohort (s : State) : State :=
  s.onGang s.cur.1 (fun g => { g with cohorts := assocErase g.cohorts s.cur.2 })

/-- Lanes leave the acting cohort; a cohort without lanes ends (06 R110). -/
def State.leave (s : State) (m : Mask) : State :=
  s.onGang s.cur.1 (fun g =>
    match assocGet? g.cohorts s.cur.2 with
    | none => g
    | some c =>
      if c.mask &&& ~~~m = 0 then { g with cohorts := assocErase g.cohorts s.cur.2 }
      else { g with cohorts := assocSet g.cohorts s.cur.2 { c with mask := c.mask &&& ~~~m } })

/-- The a-cycles of an interval on which a quad with this CAP issues: 4 - CAP of every 4, in a fixed pattern (04 R79;
log entry 36). -/
def issueCycles (cap a b : Nat) : Nat := b * (4 - cap) / 4 - a * (4 - cap) / 4

/-- The enabled cycles of the quad of a core so far (04 R79). -/
def State.enabled (s : State) (core : Nat) : Nat :=
  let q := s.quad (quadOfCore core)
  q.capBase + issueCycles q.cap q.capSince s.now

/-- Set the counters of lanes of the acting gang. -/
def State.setPcs (s : State) (m : Mask) (pc : Nat → Pc) (rep : Nat) : State :=
  s.onGang s.cur.1 (fun g => g.mapLanes m (fun l x => { x with pc := pc l, rep := rep }))

/-- Park lanes of the acting gang in a new group (06 R113). `sw` says that they park at a word with its SWITCH bit
set, so that a switch park follows (05 R86). -/
def State.park (s : State) (m : Mask) (k : WaitKind) (next : Pc) (sw : Bool) : State :=
  if m = 0 then s
  else
    State.onGang { s with nextId := s.nextId + 1 } s.cur.1 (fun g =>
      { g.mapLanes m (fun _ x => { x with parked := true, sw := sw }) with
        waits := assocSet g.waits s.nextId ⟨m, k, next, s.now, 0, 0⟩, parkedSince := s.enabled g.core })

/-- Whether no lane of a gang may issue: each has exited or is parked. -/
def Gang.idle (g : Gang) : Bool := g.lanes.all (fun y => !y.live || y.parked)

/-- Lanes of a gang whose wait is over go on with the counters they hold: into a switch park when their word has its
SWITCH bit set, else eligible again (05 R86, 06 R113). -/
def State.wake (s : State) (gid : Nat) (m : Mask) : State :=
  match s.gang? gid with
  | none => s
  | some g =>
    let sw := m &&& g.lanesWhere (fun _ x => x.sw)
    let g : Gang := { g.mapLanes m (fun _ x => { x with parked := x.sw, sw := false }) with
      readySince := if g.idle then s.enabled g.core else g.readySince }
    if sw = 0 then s.setGang gid g
    else
      State.setGang { s with nextId := s.nextId + 1 } gid
        { g with waits := assocSet g.waits s.nextId ⟨sw, .switchPark, ⟨0, 0⟩, s.now, 0, 0⟩, parkedSince := s.enabled g.core }

/-- A parked group leaves the pool (06 R113): it goes on after its word, or holds the counters it had and issues its
word again. -/
def State.unpark (s : State) (gid w : Nat) (go : Bool) : State :=
  match s.gang? gid with
  | none => s
  | some g =>
    match assocGet? g.waits w with
    | none => s
    | some x =>
      let g : Gang := { g with
        waits := assocErase g.waits w
        readySince := if g.idle then s.enabled g.core else g.readySince }
      if go then
        (s.setGang gid (g.mapLanes x.mask (fun _ y => { y with pc := x.next, rep := x.nrep }))).wake gid x.mask
      else s.setGang gid (g.mapLanes x.mask (fun _ y => { y with parked := false, sw := false }))

/-- Where lanes stand that have done the word of a cohort (05 R83, 06 R115): its next repetition, or the next word; and
whether that was its last repetition. -/
def Cohort.doneAt (c : Cohort) : Pc × Nat × Bool :=
  match c.rep with
  | some r => if r.idx + 1 < r.count then (⟨c.hdr, c.idx⟩, r.idx + 1, false) else (c.nextPc, 0, true)
  | none => (c.nextPc, 0, true)

/-- Lanes of the acting cohort park at its word (06 R113): they hold the word's counter and go on at the next
repetition or the next word (06 R115), through a switch park after the last (05 R86). -/
def State.parkAt (s : State) (a : Acting) (m : Mask) (k : WaitKind) : State :=
  if m = 0 then s
  else
    let (next, nrep, last) := a.co.doneAt
    let s : State := (s.leave m).setPcs m (fun _ => a.pc) a.co.repIdx
    State.onGang { s with nextId := s.nextId + 1 } a.gid (fun g =>
      { g.mapLanes m (fun _ x => { x with parked := true, sw := a.co.switchBit && last }) with
        waits := assocSet g.waits s.nextId ⟨m, k, next, s.now, nrep, a.co.word⟩
        parkedSince := s.enabled g.core })

/-- Lanes of the acting cohort leave it for counters of their own, each target as a group: a switch park follows when
the word's SWITCH bit is set (05 R86). -/
def State.transfer (s : State) (c : Cohort) (ts : List (Nat × Pc)) : State :=
  let s : State := s.leave (maskOf (ts.map (·.1)))
  (ts.map (·.2)).dedup.foldl (fun s p =>
    let m := maskOf ((ts.filter (fun t => t.2 == p)).map (·.1))
    let s : State := s.setPcs m (fun _ => p) 0
    if c.switchBit then s.park m .switchPark p false else s) s

/-- Lanes of a cohort that have done its word leave it and go on by themselves. -/
def State.goOn (s : State) (c : Cohort) (m : Mask) : State :=
  let (pc, rep, last) := c.doneAt
  let s : State := (s.leave m).setPcs m (fun _ => pc) rep
  if c.switchBit && last then s.park m .switchPark pc false else s

/-- The acting cohort has finished its word with all its repetitions (05 R83, R86): the next word, or the end
of the clause, with a park when the word's SWITCH bit is set. -/
def State.finishWord (s : State) (a : Acting) : State :=
  let s : State := s.setPcs a.co.mask (fun _ => a.co.nextPc) 0
  if a.co.switchBit then (s.endCohort).park a.co.mask .switchPark a.co.nextPc false
  else if a.co.idx + 1 < a.co.count then
    s.onCohort (fun c => { c with idx := c.idx + 1, rep := none, hold := false, done := 0, args := [], mark := 0, nextTry := 0 })
  else s.endCohort

/-- The acting cohort has finished its word: the next repetition, if one is left (06 R115), or as above. -/
def State.finish (s : State) : State :=
  s.act fun a =>
    match a.co.rep with
    | some r =>
      if r.idx + 1 < r.count then
        (s.onCohort (fun c => { c with rep := some { r with idx := r.idx + 1 }, hold := false, done := 0, args := [], mark := 0, nextTry := 0 })).setPcs
          a.co.mask (fun _ => a.pc) (r.idx + 1)
      else s.finishWord a
    | none => s.finishWord a

/-! ### Happens-before (11 R258, R259) -/

/-- The party number of a lane (11 R256). -/
def laneParty (gid l : Nat) : Nat := 2 * (64 * gid + l)

/-- The party number of a copy command. -/
def copyParty (uid : Nat) : Nat := 2 * uid + 1

/-- The least clock above both. -/
def clockJoin (a b : Clock) : Clock :=
  b.foldl (fun c p => if assocGet 0 c p.1 < p.2 then assocSet c p.1 p.2 else c) a

/-- A lane's clock, released: what it publishes, and the lane in its next region. -/
def Lane.release (x : Lane) (party : Nat) : Clock × Lane :=
  (x.vc, { x with vc := assocSet x.vc party (assocGet 0 x.vc party + 1) })

/-- Release by lanes of a gang: the joined clock, and the state with each lane in its next region. -/
def State.releaseLanes (s : State) (gid : Nat) (m : Mask) : Clock × State :=
  match s.gang? gid with
  | none => ([], s)
  | some g =>
    ((lanesOf m).foldl (fun c l => clockJoin c (g.lane l).vc) [],
      s.setGang gid (g.mapLanes m (fun l x => (x.release (laneParty gid l)).2)))

/-- Acquire by lanes of a gang. -/
def State.acquireLanes (s : State) (gid : Nat) (m : Mask) (c : Clock) : State :=
  s.onGang gid (fun g => g.mapLanes m (fun _ x => { x with vc := clockJoin x.vc c }))

/-- Whether the scope instance of one party holds another (11 R256). -/
def scopeHolds (scope : Nat) (team field ten team' field' ten' : Nat) : Bool :=
  match scope with
  | 0 => team == team'
  | 1 => field == field'
  | _ => ten == ten'

/-- What an acquiring read of a word takes from the releases it reads (11 R258, first row). -/
def syncsFor (ss : List Sync) (scope team field ten : Nat) : Clock :=
  ss.foldl (fun c y =>
    if scopeHolds y.scope y.team y.field y.ten team field ten && scopeHolds scope team field ten y.team y.field y.ten
    then clockJoin c y.vc else c) []

/-- Releases joined: those of one instance, which the same acquires can take, count as one. -/
def joinSyncs (xs ys : List Sync) : List Sync :=
  ys.foldl (fun zs y =>
    let same := fun (z : Sync) => z.scope == y.scope && z.team == y.team && z.field == y.field && z.ten == y.ten &&
      z.lease == y.lease
    if zs.any same then zs.map (fun z => if same z then { z with vc := clockJoin z.vc y.vc } else z) else zs ++ [y]) xs

/-- The releases of a word set; a word without any is not listed. -/
def putSync (ss : List (Nat × WordSync)) (w : Nat) (y : WordSync) : List (Nat × WordSync) :=
  if y.seq.isEmpty then assocErase ss w else assocSet ss w y

/-- A write of a word (11 R258): a later read-modify-write belongs to the release sequence of every earlier write of the
word, any other write only to its own. -/
def syncWrite (ss : List (Nat × WordSync)) (w : Nat) (rmw : Bool) (pub : List Sync) : List (Nat × WordSync) :=
  let seq := joinSyncs (assocGet {} ss w).seq pub
  putSync ss w ⟨seq, if rmw then seq else joinSyncs [] pub⟩

/-- The publication of a word that a pin held (11 R268): the value keeps what it was released with. -/
def syncPublish (ss : List (Nat × WordSync)) (w : Nat) (pub : List Sync) : List (Nat × WordSync) :=
  let y := assocGet {} ss w
  putSync ss w ⟨joinSyncs y.seq pub, joinSyncs y.now pub⟩

/-- What the values of words were released with, for the words that were. -/
def nowsOf (ss : List (Nat × WordSync)) (ws : List Nat) : List (Nat × List Sync) :=
  ws.filterMap (fun w => match (assocGet {} ss w).now with
    | [] => none
    | y => some (w, y))

/-- The aligned words that an access touches. -/
def wordsOf (a size : Nat) : List Nat := (List.range ((a % 4 + size + 3) / 4)).map (fun i => a / 4 + i)

/-! ### Monitors and pins -/

/-- A write applied to a line fires the monitors registered for it that p selects (12 R291). -/
def State.fireMonitorsIf (s : State) (line : Nat) (p : Nat → Bool) : State :=
  (s.monRegs.filter (fun r => r.line == line && p r.gang)).foldl (fun s r =>
    s.onGang r.gang (fun g => g.mapLanes (maskOf [r.lane]) (fun _ x =>
      match x.monitor with
      | some m => if m.line = line ∧ !m.fired then { x with monitor := some { m with fired := true, since := s.now } } else x
      | none => x))) s

/-- A write applied at the home of a line, or its publication, fires every monitor registered for it. -/
def State.fireMonitors (s : State) (line : Nat) : State := s.fireMonitorsIf line (fun _ => true)

/-- A write applied in the L1 that holds a line pinned fires the monitors of the holding team. -/
def State.firePinned (s : State) (line team : Nat) : State :=
  s.fireMonitorsIf line (fun g => match s.gang? g with
    | some x => x.team == team
    | none => false)

/-- A monitor registration is lost (12 R293). -/
def State.lapseMonitors (s : State) (p : MonReg → Bool) : State :=
  (s.monRegs.filter p).foldl (fun s r =>
    s.onGang r.gang (fun g => g.mapLanes (maskOf [r.lane]) (fun _ x =>
      match x.monitor with
      | some m => if m.line = r.line then { x with monitor := some { m with lapsed := true } } else x
      | none => x)))
    { s with monRegs := s.monRegs.filter (fun r => !p r) }

/-! ### Marks (11 R272) -/

/-- The place that keeps the marks of a core's pinned lines. -/
def pinPlace (core : Nat) : Nat := 100000 + core

/-- Whether a clock comes after the accesses of a party's region. -/
def Clock.after (c : Clock) (party clk : Nat) : Bool := decide (clk ≤ assocGet 0 c party)

/-- The partition of a launch: that of the queue that it was taken from. -/
def Launch.part (l : Launch) : Nat :=
  match l.dom with
  | .tenant lease n => tkey lease n
  | .lsq lease => tkey lease 16

/-- The clocks with which teams of a partition will begin: those of its launches that have teams left, and of the records in
its queues. -/
def State.startClocks (s : State) (part : Nat) : List Clock :=
  (s.launches.filter (fun l => l.2.part == part && decide (l.2.nextTeam < l.2.desc.gx * l.2.desc.gy * l.2.desc.gz))).map
    (·.2.vc) ++
  (if isService part then (s.lease? (keyLease part)).toList.map (·.lsq) else (s.tenantOf part).queues.map (·.2)).flatMap
    (fun q => q.held.map (·.2) ++ q.vcs.map (·.2))

/-- Whether every party of the partition has passed a boundary that orders it after a mark: its live lanes, the copy
commands under way and saved, and the teams of the launches and records that have come to its dispatcher (log entry 105). -/
def State.markSeen (s : State) (m : Mark) : Bool :=
  s.gangs.all (fun g =>
    (match s.team? g.2.team with
     | some t => t.part != m.ten
     | none => true) ||
    g.2.lanes.all (fun x => !x.live || Clock.after x.vc m.party m.clk)) &&
  (s.quads.flatMap (·.2.copies) ++ (s.tenants.flatMap (·.2.saved)).flatMap (·.2.copies)).all (fun c =>
    c.2.ten != m.ten || Clock.after c.2.vc m.party m.clk) &&
  (s.startClocks m.ten).all (fun c => Clock.after c m.party m.clk)

/-- How many marks a place holds. -/
def markCap (place : Nat) : Nat := if place < 100000 then 32768 else 256

/-- Drop marks that no party needs, then, past the capacity, the mark recorded longest ago, and so on: at most n times. -/
def State.trimMarks (s : State) (place : Nat) : Nat → State
  | 0 => s
  | n + 1 =>
    if (s.marks.filter (·.place == place)).length ≤ markCap place then s
    else
      let ms := s.marks.filter (fun m => !(m.place == place && s.markSeen m))
      if (ms.filter (·.place == place)).length ≤ markCap place then { s with marks := ms }
      else
        match ms.find? (·.place == place) with
        | none => { s with marks := ms }
        | some m =>
          State.trimMarks ((State.onPart { s with marks := ms.erase m } m.ten (fun t =>
            { t with incomplete := true, drops := min 0xFFFF (t.drops + 1) })).tally m.ten 7 1) place n

/-- The marks of a line at places that p selects pass to another place, which keeps them as the line's new place of
checks (log entry 86). -/
def State.moveMarks (s : State) (line : Nat) (p : Nat → Bool) (place : Nat) : State :=
  let here := fun (m : Mark) => p m.place && m.word / 16 == line
  State.trimMarks { s with marks := s.marks.map (fun m => if here m then { m with place := place } else m) } place
    (s.marks.filter here).length

/-- A line in L2 holds bytes that its DRAM lacks. -/
def State.soil (s : State) (line home : Nat) (fixed : Bool) : State :=
  { s with l2 := assocSet s.l2 line ⟨home, true, fixed⟩ }

/-- One pin dissolves (11 R268): its line is written at the home as one write, the core keeps an ordinary copy at
the head of the list, each word carries the release, if there is one, and the marks pass to the home. -/
def State.publishPin (s : State) (core line : Nat) (p : Pin) (pub : List Sync) : State :=
  let words := (List.range 16).map (fun i => 16 * line + i)
  let s : State := { s with
    versions := s.versions ++ [(line, memRead s.mem (64 * line) 64)]
    mem := memWrite s.mem (64 * line) p.data
    sharers := assocSet s.sharers line [core]
    syncs := words.foldl (fun ss w => syncPublish ss w pub) s.syncs }
  let s : State := s.onCore core (fun c => { c with
    pins := assocErase c.pins line
    l1 := assocSet c.l1 line { data := p.data, ten := p.ten, aidx := p.aidx, syncs := nowsOf s.syncs words } })
  ((s.soil line p.home p.fixed).moveMarks line (· == pinPlace core) p.home).fireMonitors line

/-- All pins of a team dissolve together (11 R268). -/
def State.publishPins (s : State) (team : Nat) (pub : List Sync) : State :=
  match s.team? team with
  | none => s
  | some t =>
    ((s.core t.core).pins.filter (fun p => p.2.team == team)).foldl (fun s p => s.publishPin t.core p.1 p.2 pub) s

/-- The clock of the lane of a mask that dissolves its team's pins: the release is that of one lane, the lowest (11 R268;
log entry 106). -/
def State.leadClock (s : State) (gid : Nat) (m : Mask) : Clock :=
  match s.gang? gid with
  | some g => (g.lane (lowBit 64 m.toNat)).vc
  | none => []

/-- A release of field scope or wider by a lane of a team dissolves the team's pins under that release. -/
def State.releasePins (s : State) (team core : Nat) (scope : Nat) (vc : Clock) : State :=
  match s.team? team with
  | none => s
  | some t =>
    if scope = 0 then s
    else s.publishPins team [⟨vc, scope, team, fieldOfCore core, t.lease, t.part⟩]

/-! ### Fault buffers (17 R337 to R340) -/

/-- Where entries for a tenant go: its own buffer, or its lease's when it has no virtual function (17 R340). -/
def State.tenantFb (s : State) (lease n : Nat) : FbRef :=
  if bits (s.tenantOf (tkey lease n)).vf 6 0 = 0 then .lease lease else .tenant lease n

def State.getFb (s : State) (r : FbRef) : FaultBuffer :=
  match r with
  | .tenant l n =>
    { (s.tenantOf (tkey l n)).fb with base := (s.tenantOf (tkey l n)).fbbase, count := (s.tenantOf (tkey l n)).fbcount }
  | .lease l =>
    match s.lease? l with
    | some x => x.fb
    | none => {}
  | .owner => s.ownerFb

def State.setFb (s : State) (r : FbRef) (f : FaultBuffer) : State :=
  match r with
  | .tenant l n => s.onTenant (tkey l n) (fun x => { x with fb := f })
  | .lease l =>
    match s.lease? l with
    | some x => s.setLease l { x with fb := f }
    | none => s
  | .owner => { s with ownerFb := f }

/-- The function through which a buffer is reached, and its interrupt vector: port, VFN, vector. -/
def State.fbFunction (s : State) (r : FbRef) : Nat × Nat × Nat :=
  match r with
  | .tenant l n =>
    (bits (s.tenantOf (tkey l n)).vf 9 7, bits (s.tenantOf (tkey l n)).vf 6 0, (s.tenantOf (tkey l n)).msix % 2 ^ 11)
  | .lease l =>
    match s.lease? l with
    | some x => (x.port, x.vfn, 0)
    | none => (0, 0, 0)
  | .owner => (0, 0, 0)

/-- The number of entries of a ring: the largest power of two at or below the count, at most 65,536; none below
a count of 16 (17 R337). -/
def ringSize (count : Nat) : Nat := if count < 16 then 0 else 2 ^ min 16 (Nat.log2 count)

/-- The key of a byte of host memory in `State.host`. -/
def hostKey (port a : Nat) : Nat := port * 2 ^ 64 + a % 2 ^ 64

/-- The eight words of an entry (17 R338), without PHASE. -/
structure Entry where
  type : Nat
  lvl : Nat := 0
  tag : Nat := 0
  cause : Nat := 0
  pgen : Nat := 0
  addr : Nat := 0
  req : Nat := 0
  synd : Nat := 0
  core : Nat := 0
  slot : Nat := 0
  lane : Nat := 0
  info : Nat := 0

def Entry.words (e : Entry) : List Nat :=
  [e.type * 2 ^ 24 + e.lvl * 2 ^ 22 + e.tag * 2 ^ 16 + e.cause, e.pgen % 2 ^ 32, e.addr % 2 ^ 32,
    e.addr / 2 ^ 32 % 2 ^ 32, e.req * 2 ^ 16 + e.synd, e.core * 2 ^ 16 + e.slot * 2 ^ 11 + e.lane * 2 ^ 5,
    e.info % 2 ^ 32, 0]

/-- The bytes of an entry with its PHASE: 1 on the first pass (17 R338). -/
def entryBytes (ws : List Nat) (pass : Nat) : List Byte :=
  ((ws.take 7).flatMap (leBytes 4)) ++ leBytes 4 (if pass % 2 = 0 then 2 ^ 31 else 0)

/-- Post eight words to a buffer, or hold them when the ring is full or absent (17 R337, R339). -/
def State.postWords (s : State) (r : FbRef) (ws : List Nat) : State :=
  let f := s.getFb r
  let e := ringSize f.count
  let (port, vfn, vec) := s.fbFunction r
  if e = 0 ∨ (f.tail + 2 ^ 32 - f.head) % 2 ^ 32 ≥ e then
    let s : State := s.setFb r { f with held := f.held ++ [ws], ovf := true }
    if f.ovfie then { s with outbox := s.outbox ++ [.interrupt port vfn vec] } else s
  else
    let s : State := { s with host := memWrite s.host (hostKey port (f.base + 32 * (f.tail % e))) (entryBytes ws (f.tail / e)) }
    let s : State := s.setFb r { f with tail := (f.tail + 1) % 2 ^ 32 }
    if f.entie then { s with outbox := s.outbox ++ [.interrupt port vfn vec] } else s

/-- Held entries post, in the order in which they were held, while the ring has room (17 R339). -/
def State.postHeld (s : State) (r : FbRef) : Nat → State
  | 0 => s
  | n + 1 =>
    let f := s.getFb r
    match f.held with
    | [] => s
    | ws :: rest =>
      if ringSize f.count = 0 ∨ (f.tail + 2 ^ 32 - f.head) % 2 ^ 32 ≥ ringSize f.count then s
      else ((s.setFb r { f with held := rest }).postWords r ws).postHeld r n

def State.post (s : State) (r : FbRef) (e : Entry) : State := s.postWords r e.words

/-- A request number that no outstanding request of a buffer has: a free choice (17 R339; log entry 84). -/
def State.freeRequest (s : State) (f : FaultBuffer) : Nat :=
  let start := s.pick (64 + f.reqs.length) 65536
  ((List.range (f.reqs.length + 1)).map (fun k => (start + k) % 65536)).find? (fun n => !f.reqs.any (fun r => r.1 == n))
    |>.getD start

/-- Post an entry that asks for an answer: its request number is unique in the buffer (17 R339). -/
def State.postRequest (s : State) (r : FbRef) (e : Entry) (k : ReqKind) : Nat × State :=
  let f := s.getFb r
  let n := s.freeRequest f
  let s : State := s.setFb r { f with reqs := f.reqs ++ [(n, e.pgen, k)] }
  (n, s.post r { e with req := n })

/-! ### Stopping teams (17 R331) -/

/-- The gangs of a team. -/
def State.gangsOf (s : State) (t : Nat) : List (Nat × Gang) := s.gangs.filter (fun p => p.2.team == t)

/-- A tenant without the store-fault records of some gangs that were saved with its cores (17 R331, R342). -/
def Tenant.dropSavedRecords (t : Tenant) (gs : List Nat) : Tenant :=
  { t with saved := t.saved.map (fun q => (q.1, { q.2 with
      cores := q.2.cores.map (fun c => (c.1, { c.2 with sfq := c.2.sfq.filter (fun r => !isIn gs r.gang) })) })) }

/-- One team stops: its gangs issue nothing further, frames and held records go, results are discarded, stores in
flight are each performed or dropped whole, pins are published at partition scope, monitors are unarmed. -/
def State.stopTeam (s : State) (t : Nat) : State :=
  match s.team? t with
  | none => s
  | some tm =>
    let gs := (s.gangsOf t).map (·.1)
    let s : State := s.publishPins t []
    let s : State := gs.foldl (fun s gid => s.onGang gid (fun g =>
      { g.mapLanes (-1) (fun _ x => { x with live := false, parked := false, frame := none, monitor := none, sw := false }) with
        cohorts := [], waits := [], frames := [], results := [], due := [], stack := [], copied := 0, arrived := 0,
        gone := maskOf (List.range g.width) })) s
    let s : State := { s with
      monRegs := s.monRegs.filter (fun r => !isIn gs r.gang)
      accesses := (s.accesses.filter (fun p =>
          !(isIn gs p.2.gang && (p.2.phase == .scratch ||
            (p.2.op == .store && p.2.phase == .toHome && s.pick p.1 2 == 1))))).map
        (fun p => (p.1, if isIn gs p.2.gang then { p.2 with dst := [], precise := false } else p.2)) }
    let s : State := { s with
      cores := s.cores.map (fun c => (c.1, { c.2 with sfq := c.2.sfq.filter (fun r => !isIn gs r.gang) }))
      tenants := s.tenants.map (fun x => (x.1, x.2.dropSavedRecords gs)) }
    let s : State := s.onTeam t (fun x => { x with halted := true })
    match s.launch? tm.launch with
    | none => s
    | some l => s.setLaunch tm.launch { l with
        halted := true, nextTeam := l.desc.gx * l.desc.gy * l.desc.gz, returned := [], nextItem := l.desc.icount }

/-- HALTCODE and the TYPE 6 entry of one halt, for one tenant (17 R331); a team of the lease service queue posts
to the lease (20 R375), with TAG and PGEN 0, since it belongs to no partition (DESIGN CHOICE, log entry 59). -/
def State.haltEntry (s : State) (lease : Nat) (tenant : Option Nat) (lvl code core : Nat) : State :=
  match tenant with
  | some n =>
    let k := tkey lease n
    let s : State := s.onTenant k (fun x => { x with haltcode := code })
    s.post (s.tenantFb lease n)
      { type := 6, lvl := lvl, tag := (s.tenantOf k).tag.getD 0, pgen := (s.tenantOf k).pgen, core := core, info := code }
  | none => s.post (.lease lease) { type := 6, lvl := lvl, core := core, info := code }

/-- A halt that the hardware makes of one team (06 R121, 17 R322, R339): HALTCODE with HW set, LVL 3. -/
def State.hwHalt (s : State) (t : Nat) (code : Nat) : State :=
  match s.team? t with
  | none => s
  | some tm => (s.stopTeam t).haltEntry tm.lease tm.tenant 3 code tm.core

/-! ### Taking a trap and returning from one (17 R321 to R329) -/

/-- What a trap carries. -/
structure TrapInfo where
  cause : Nat
  tinfo : Nat := 0
  taddr : Nat := 0
  fpstat : List (Nat × Nat) := []

/-- The level that owns a cause (17 R321). A join-spill fault that is not an exhausted area goes by its stage. -/
def causeOwner (cause tinfo : Nat) : Nat :=
  if cause = 0x08 then 2
  else if cause = 0x09 then 3
  else if cause = 0x11 ∧ bits tinfo 16 16 = 0 then
    (if bits tinfo 15 14 = 3 then 3
     else if bits tinfo 15 14 = 2 ∧ bits tinfo 11 8 ≠ 10 ∧ bits tinfo 11 8 ≠ 11 then 2 else 1)
  else 1

/-- The trap vector of a level for a team's code (17 R325). -/
def State.vector (s : State) (t : Team) (level : Nat) : Nat :=
  match level with
  | 1 =>
    match t.xten with
    | some n => (s.tenantOf (tkey t.lease n)).tvec
    | none => 0
  | 2 =>
    match s.lease? t.lease with
    | some l => l.tvec
    | none => 0
  | _ => s.ownerTvec

/-- The HOSTMASK that applies to a handler level, and the buffer it names (17 R323). -/
def State.hostmask (s : State) (t : Team) (level : Nat) : Option (Nat × FbRef) :=
  match level with
  | 1 =>
    match t.xten with
    | some n =>
      if bits (s.tenantOf (tkey t.lease n)).vf 6 0 = 0 then none
      else some ((s.tenantOf (tkey t.lease n)).hostmask, .tenant t.lease n)
    | none => none
  | 2 =>
    match s.lease? t.lease with
    | some l => some (l.hostmask, .lease t.lease)
    | none => none
  | _ => none

/-- Whether a fault is a translation fault that a HOSTMASK turns into a page request, and where it is posted (17 R323;
log entry 104). -/
def State.pageRequestTo (s : State) (t : Team) (level : Nat) (i : TrapInfo) : Option FbRef :=
  if 0x06 ≤ i.cause ∧ i.cause ≤ 0x0A then
    match s.hostmask t (max level (causeOwner i.cause i.tinfo)) with
    | some (m, fb) => if bit m (bits i.tinfo 11 8) && bits i.tinfo 11 8 < 15 then some fb else none
    | none => none
  else none

/-- The lanes of a mask take a trap (17 R322 to R324). They have left their cohort. `pc`, `rep` and `tword` name
the word; `sfr` marks the delivery of store-fault records. -/
def State.enterFrame (s : State) (gid : Nat) (m : Mask) (pc : Pc) (rep tword : Nat) (sfr : Bool) (i : TrapInfo) :
    State :=
  match s.gang? gid with
  | none => s
  | some g =>
    match s.team? g.team with
    | none => s
    | some t =>
      let x := g.lane (lowBit 64 m.toNat)
      let h := max x.level (causeOwner i.cause i.tinfo)
      let inner : Option Nat := match x.frame with
        | some f => (assocGet? g.frames f).map (·.level)
        | none => none
      if inner.any (fun k => h ≤ k) then s.hwHalt g.team (0x80000100 + i.cause)
      else if g.frames.length ≥ 8 then
        State.onGang { s with nextId := s.nextId + 1 } gid (fun g =>
          { g.mapLanes m (fun _ x => { x with parked := true, pc := pc, rep := rep }) with
            waits := assocSet g.waits s.nextId
              ⟨m, .frame sfr i.cause i.tinfo i.taddr tword rep i.fpstat, pc, s.now, rep, tword⟩
            parkedSince := s.enabled g.core })
      else
        State.onGang { s with nextId := s.nextId + 1 } gid (fun g =>
          { g.mapLanes m (fun _ y => { y with
              level := h, pc := ⟨s.vector t h, 0⟩, rep := 0, frame := some s.nextId, parked := false }) with
            frames := g.frames ++ [(s.nextId,
              { level := h, prev := x.level, mask := m, cause := i.cause, sfr := sfr, tpc := pc, tword := tword,
                taddr := i.taddr, tinfo := i.tinfo, rep := rep, fpstat := i.fpstat, outer := x.frame })] })

/-- Lanes of a gang raise a trap, or a page request when HOSTMASK selects it (17 R323): the lanes are then held
at their word until the request is answered. -/
def State.trapLanes (s : State) (gid : Nat) (m : Mask) (pc : Pc) (rep tword : Nat) (i : TrapInfo) : State :=
  match s.gang? gid with
  | none => s
  | some g =>
    match s.team? g.team with
    | none => s
    | some t =>
      let l := lowBit 64 m.toNat
      match s.pageRequestTo t (g.lane l).level i with
      | none => s.enterFrame gid m pc rep tword false i
      | some fb =>
        let ten : Tenant := match t.xten with
          | some n => s.tenantOf (tkey t.lease n)
          | none => {}
        let w := s.nextId
        let s' : State := { s with nextId := s.nextId + 1 }
        let (req, s) := s'.postRequest fb
          { type := 1, lvl := (g.lane l).level, tag := ten.tag.getD 0, cause := i.cause, pgen := ten.pgen,
            addr := i.taddr, synd := i.tinfo % 2 ^ 16, core := g.core, slot := g.slot, lane := l, info := i.tinfo }
          (.page gid w i.cause i.tinfo i.taddr)
        s.onGang gid (fun g =>
          { g.mapLanes m (fun _ x => { x with parked := true, pc := pc, rep := rep }) with
            waits := assocSet g.waits w ⟨m, .pageRequest fb req, pc, s.now, rep, tword⟩, parkedSince := s.enabled g.core })

/-- Lanes of the acting cohort trap at its word: they leave the cohort first (06 R110, R113). -/
def State.trap (s : State) (m : Mask) (i : TrapInfo) : State :=
  s.act fun a =>
    if m &&& a.co.mask = 0 then s
    else (s.leave m).trapLanes a.gid (m &&& a.co.mask) a.pc a.co.repIdx a.co.word i

/-- Trap(cause, {L}) for each lane of a list: each lane is a sub-gang of its own. -/
def State.trapEach (s : State) (ts : List (Nat × TrapInfo)) : State :=
  ts.foldl (fun s t => s.trap (maskOf [t.1]) t.2) s

/-- Trap(cause, Cohort) for an illegal or privileged word: TADDR is the header address (17 R321). -/
def State.trapWord (s : State) (cause : Nat) : State :=
  s.act fun a => s.trap a.co.mask { cause := cause, taddr := a.co.hdr }

/-- A lane returns from its frame to a counter and repetition (17 R329). -/
def Gang.returnLane (g : Gang) (l fid : Nat) (f : Frame) (pc : Pc) (rep : Nat) : Gang :=
  let rest := f.mask &&& ~~~(maskOf [l])
  { g.mapLanes (maskOf [l]) (fun _ x => { x with level := f.prev, pc := pc, rep := rep, frame := f.outer }) with
    frames := if rest = 0 then assocErase g.frames fid else assocSet g.frames fid { f with mask := rest } }

/-! ### Store-fault records (17 R334 to R336) -/

/-- Whether a record is held by a frame in which its lane still stands, the one that it runs in or an outer one
(17 R324, R329). -/
def Gang.holdsRecord (g : Gang) (r : SfRec) : Bool :=
  match r.held.bind (assocGet? g.frames) with
  | some f => f.mask.getLsbD r.lane
  | none => false

/-- Whether a record of lanes of a gang may be delivered: no frame of its lane holds it, or the point is a release,
`sdrain` or `exit` (17 R329). -/
def Gang.deliverable (g : Gang) (gid : Nat) (m : Mask) (strong : Bool) (r : SfRec) : Bool :=
  r.gang == gid && m.getLsbD r.lane && (strong || !g.holdsRecord r)

/-- The deliverable records of lanes of a gang, oldest first. -/
def State.dueRecords (s : State) (gid : Nat) (m : Mask) (strong : Bool) : List SfRec :=
  match s.gang? gid with
  | none => []
  | some g => (s.core g.core).sfq.filter (g.deliverable gid m strong)

/-- Records that a group held while it waited for a frame are held by the frame that it takes. -/
def State.rehold (s : State) (core old new : Nat) : State :=
  s.onCore core (fun c => { c with sfq := c.sfq.map (fun y => if y.held = some old then { y with held := some new } else y) })

/-- Deliver records: the lanes that hold some form one frame with SFR set, which holds the records that are delivered
(17 R329, R336). They have left their cohort; `pc` and `tword` name the word at which they go on. -/
def State.deliver (s : State) (gid : Nat) (m : Mask) (strong : Bool) (pc : Pc) (rep tword : Nat) : State :=
  match s.dueRecords gid m strong, s.gang? gid with
  | r :: rs, some g =>
    let ls := maskOf ((r :: rs).map (·.lane))
    let fid := s.nextId
    let s : State := s.onCore g.core (fun c => { c with sfq := c.sfq.map (fun y =>
      if g.deliverable gid ls strong y then { y with held := some fid } else y) })
    s.enterFrame gid ls pc rep tword true { cause := r.cause, taddr := r.addr }
  | _, _ => s

/-- The lanes of a mask that hold deliverable records. -/
def State.dueLanes (s : State) (gid : Nat) (m : Mask) (strong : Bool) : Mask :=
  maskOf ((s.dueRecords gid m strong).map (·.lane))

/-- The class of an access: 0 load, 1 store, 2 atomic. -/
def AccOp.cls : AccOp → Nat
  | .load => 0
  | .bounded _ => 0
  | .store => 1
  | .atomic _ => 2
  | .red _ => 2
  | .prefetch => 0
  | .sacc _ => 1
  | .fillL2 => 0
  | .armed => 0

/-- Whether an access is a store, a reduction or a `sacc`: one that its lane does not wait for (09 R200). -/
def AccOp.late : AccOp → Bool
  | .store => true
  | .red _ => true
  | .sacc _ => true
  | _ => false

/-- Whether an access is one of a lane's own, and not what a cache word or a monitor leaves behind (09 R215). -/
def AccOp.counts : AccOp → Bool
  | .prefetch => false
  | .fillL2 => false
  | .armed => false
  | _ => true

/-- Whether every earlier access of a lane has taken effect at a scope (11 R257, R264). -/
def Access.performedAt (x : Access) (scope : Nat) (pairedTeam : Bool) : Bool :=
  match x.phase with
  | .acked => scope == 0 && !pairedTeam
  | .updating cs => scope == 0 && !pairedTeam && !isIn cs x.core
  | .fill => x.op.cls == 0
  | .faulted _ _ => false
  | _ => false

/-- Whether the team of a gang is paired. -/
def State.pairedTeam (s : State) (t : Nat) : Bool :=
  match s.team? t with
  | some x => x.paired
  | none => false

/-- Whether a store, reduction or sacc of lanes of a gang is neither performed at a scope nor recorded (05 R85 WST,
17 R335). -/
def State.storesPending (s : State) (gid : Nat) (m : Mask) (scope : Nat) : Bool :=
  s.accesses.any (fun p => p.2.gang == gid && m.getLsbD p.2.lane && p.2.op.late &&
    !p.2.performedAt scope (s.pairedTeam p.2.team))

/-- Whether an access of lanes of a gang has not taken effect at a scope (11 R257). -/
def State.accessPending (s : State) (gid : Nat) (m : Mask) (scope : Nat) : Bool :=
  s.accesses.any (fun p => p.2.gang == gid && m.getLsbD p.2.lane && p.2.op.counts &&
    !p.2.performedAt scope (s.pairedTeam p.2.team))

/-- Whether `exit` waits: an access of lanes of a gang has not taken effect at its scope, A-buffer atomics in flight apart,
which 15 R316 lets the lane leave behind (log entry 109). -/
def State.exitPending (s : State) (gid : Nat) (m : Mask) (scope : Nat) : Bool :=
  s.accesses.any (fun p => p.2.gang == gid && m.getLsbD p.2.lane && p.2.op.counts && p.2.phase != .scratch &&
    !p.2.performedAt scope (s.pairedTeam p.2.team))

/-- The acting cohort has begun its word, at which it may wait (05 R85). -/
def State.beginWord (s : State) : State := s.onCohort (fun c => { c with mark := 1 })

/-- A release point of the acting cohort (17 R335, point 2): it waits at its word while `pending` says that an earlier
access of its lanes has neither taken effect nor is recorded, delivers the records of its lanes, and the lanes that hold
none go on with `k`. -/
def State.afterAll (s : State) (pending : Acting → Bool) (k : State → State) : State :=
  s.act fun a =>
    if pending a then s
    else
      let due := s.dueLanes a.gid a.co.mask true
      if due = 0 then k s
      else
        let s : State := (s.leave due).deliver a.gid due true a.pc a.co.repIdx a.co.word
        if s.acting.isSome then k s else s

/-- A release point at a scope: every earlier access of the lanes has taken effect there (11 R257). -/
def State.atRelease (s : State) (scope : Nat) (k : State → State) : State :=
  s.afterAll (fun a => s.accessPending a.gid a.co.mask scope) k

/-- Engine traps that are due are taken at the word (10 R223): the lanes concerned form one sub-gang. -/
def State.takeDue (s : State) : State :=
  s.act fun a =>
    a.gang.due.foldl (fun s d =>
      let m := d.mask &&& a.co.mask
      if m = 0 then s
      else
        let s : State := s.onGang a.gid (fun g => { g with due := (g.due.map (fun y =>
          if y = d then { y with mask := y.mask &&& ~~~m } else y)).filter (fun y => y.mask != 0) })
        s.trap m { cause := d.cause, tinfo := d.tinfo }) s

/-! ### Words that write registers -/

/-- What a word gives one lane: register results, or a trap that writes nothing (07 R136, 06 R114). -/
inductive LaneOut where
  | regs (ws : List (Nat × Word))
  | trap (i : TrapInfo)

/-- Push one lane's results as outstanding; two of them are a pair result (07 R143). -/
def State.pendLane (s : State) (gid l : Nat) (long : Bool) (ws : List (Nat × Word)) : State :=
  { s.onGang gid (fun g => g.pend s.nextId l long false (ws.length == 2) (ws.map (fun p => (p.1, some p.2)))) with
    nextId := s.nextId + ws.length }

/-- A word that gives every lane of its cohort register results or a trap: the results become outstanding
(06 R114), the lanes that trap with 0x18 form one sub-gang and every other trapping lane one of its own, and the
cohort goes on. -/
def State.laneWord (s : State) (long : Bool) (f : Acting → Nat → LaneOut) : State :=
  s.act fun a =>
    let outs : List (Nat × LaneOut) := a.lanes.map (fun l => (l, f a l))
    let s : State := s.issue
    let s : State := outs.foldl (fun s o => match o.2 with
      | .regs ws => s.pendLane a.gid o.1 long ws
      | .trap _ => s) s
    let fps : List (Nat × TrapInfo) := outs.filterMap (fun o => match o.2 with
      | .trap i => if i.cause = 0x18 then some (o.1, i) else none
      | .regs _ => none)
    let s : State := match fps with
      | [] => s
      | (_, i) :: _ => s.trap (maskOf (fps.map (·.1))) { i with fpstat := fps.flatMap (fun p => p.2.fpstat) }
    let s : State := s.trapEach (outs.filterMap (fun o => match o.2 with
      | .trap i => if i.cause = 0x18 then none else some (o.1, i)
      | .regs _ => none))
    s.finish

/-- A word that gives every lane one 32-bit result. -/
def State.laneValue (s : State) (long : Bool) (d : Nat) (f : Acting → Nat → Word) : State :=
  s.laneWord long (fun a l => .regs [(d, f a l)])

end Sys2Proof.Machine
end

