-- ==== Sys2Proof/Machine/Float.lean ====
section
/-! DEFINITION. Number formats and rounding (spec/02_number_formats.md). A finite value is an exact dyadic
number; every operation is exact and rounds once. -/
namespace Sys2Proof.Machine

/-- The element formats (02 R28). -/
inductive Fmt where
  | bin1 | int2 | int4 | int8 | fp4 | fp6 | e4m3 | e5m2 | bf16 | fp16 | fp32 | int32 | fx64
deriving DecidableEq, Repr

/-- Format codes of the shape record (01 R23, 02 R28). -/
def fmtOfCode : Nat → Option Fmt
  | 0 => some .bin1 | 1 => some .int2 | 2 => some .int4 | 3 => some .int8 | 4 => some .fp4
  | 5 => some .fp6 | 6 => some .e4m3 | 7 => some .e5m2 | 8 => some .bf16 | 9 => some .fp16
  | 10 => some .fp32 | 11 => some .int32 | 12 => some .fx64 | _ => none

def fmtCode : Fmt → Nat
  | .bin1 => 0 | .int2 => 1 | .int4 => 2 | .int8 => 3 | .fp4 => 4 | .fp6 => 5 | .e4m3 => 6
  | .e5m2 => 7 | .bf16 => 8 | .fp16 => 9 | .fp32 => 10 | .int32 => 11 | .fx64 => 12

/-- Width in bits (02 R28). -/
def fmtWidth : Fmt → Nat
  | .bin1 => 1 | .int2 => 2 | .int4 => 4 | .int8 => 8 | .fp4 => 4 | .fp6 => 6 | .e4m3 => 8
  | .e5m2 => 8 | .bf16 => 16 | .fp16 => 16 | .fp32 => 32 | .int32 => 32 | .fx64 => 64

/-- Planes as the weight operand; 0 for a format without planes (02 R28). -/
def fmtPlanes (f : Fmt) : Nat := if fmtCode f ≤ 9 then fmtWidth f else 0

/-- Accepted as the activation operand (02 R28). -/
def fmtAsA (f : Fmt) : Bool := fmtCode f == 3 || (6 ≤ fmtCode f && fmtCode f ≤ 9)

def fmtIsInt (f : Fmt) : Bool := fmtCode f ≤ 3

/-- Fraction bits (02 R31). -/
def fracBits : Fmt → Nat
  | .fp32 => 23 | .fp16 => 10 | .bf16 => 7 | .e5m2 => 2 | .e4m3 => 3 | .fp6 => 2 | .fp4 => 1 | _ => 0

def expBits : Fmt → Nat
  | .fp32 => 8 | .fp16 => 5 | .bf16 => 8 | .e5m2 => 5 | .e4m3 => 4 | .fp6 => 3 | .fp4 => 2 | _ => 0

def expBias : Fmt → Int
  | .fp32 => 127 | .fp16 => 15 | .bf16 => 127 | .e5m2 => 15 | .e4m3 => 7 | .fp6 => 3 | .fp4 => 1 | _ => 0

/-- The formats with an infinity (02 R31). -/
def hasInf : Fmt → Bool
  | .fp32 | .fp16 | .bf16 | .e5m2 => true
  | _ => false

/-- The encoding of +infinity in a format that has one. -/
def infBits (f : Fmt) : Nat := (2 ^ expBits f - 1) * 2 ^ fracBits f

/-- The encoding of the largest finite value (02 R31). -/
def maxBits : Fmt → Nat
  | .e4m3 => 0x7E | .fp6 => 0x1F | .fp4 => 0x7
  | f => infBits f - 1

/-- The canonical NaN; +0 for FP6 and FP4 (02 R31, R36). -/
def nanBits : Fmt → Nat
  | .fp32 => 0x7FC00000 | .fp16 => 0x7E00 | .bf16 => 0x7FC0 | .e5m2 => 0x7E | .e4m3 => 0x7F | _ => 0

def signBit (f : Fmt) (neg : Bool) : Nat := if neg then 2 ^ (expBits f + fracBits f) else 0

/-- A value: NaN, an infinity, or (-1)^neg x m x 2^e with m possibly 0 (a signed zero). -/
inductive FVal where
  | nan (signalling : Bool)
  | inf (neg : Bool)
  | fin (neg : Bool) (m : Nat) (e : Int)
deriving DecidableEq, Repr

/-- The five exceptions, in the order of FPCR [9:5] (02 R39). -/
structure FpFlags where
  invalid : Bool := false
  divz : Bool := false
  overflow : Bool := false
  underflow : Bool := false
  inexact : Bool := false
deriving DecidableEq, Repr

def noFlags : FpFlags := {}
def flagInvalid : FpFlags := { invalid := true }

/-- FPSTAT [4:0], invalid in bit 0 (02 R39). -/
def flagsNat (f : FpFlags) : Nat :=
  ofBool f.invalid + 2 * ofBool f.divz + 4 * ofBool f.overflow + 8 * ofBool f.underflow + 16 * ofBool f.inexact

def orFlags (x y : FpFlags) : FpFlags :=
  { invalid := x.invalid || y.invalid, divz := x.divz || y.divz, overflow := x.overflow || y.overflow,
    underflow := x.underflow || y.underflow, inexact := x.inexact || y.inexact }

/-- Rounding modes: RM of FPCR (02 R34), and ties away from zero for frnd (07 R148). -/
inductive RMode where
  | rne | rtz | rdn | rup | rna
deriving DecidableEq, Repr

def rmOf (n : Nat) : RMode :=
  match n % 4 with
  | 0 => .rne | 1 => .rtz | 2 => .rdn | _ => .rup

/-- Decode an element of a floating-point format (02 R31). -/
def fdecode (f : Fmt) (x : Nat) : FVal :=
  let neg := bit x (expBits f + fracBits f)
  let ex := bits x (expBits f + fracBits f - 1) (fracBits f)
  let fr := x % 2 ^ fracBits f
  if hasInf f && ex == 2 ^ expBits f - 1 then
    if fr == 0 then .inf neg else .nan (!bit fr (fracBits f - 1))
  else if f == .e4m3 && ex == 15 && fr == 7 then .nan false
  else if ex == 0 then .fin neg fr (1 - expBias f - fracBits f)
  else .fin neg (2 ^ fracBits f + fr) (ex - expBias f - fracBits f)

/-- Decode an element of any format to its exact value (02 R29, R31). FX64 has binary point 0 here. -/
def elemVal (f : Fmt) (x : Nat) : FVal :=
  match f with
  | .bin1 => .fin (bit x 0) 1 0
  | .int2 | .int4 | .int8 | .int32 | .fx64 =>
    let v := sext (fmtWidth f) x
    .fin (v < 0) v.natAbs 0
  | _ => fdecode f x

/-- Round m x 2^e to an integer multiple of 2^q: the multiple and whether bits were lost. -/
def roundGrid (mode : RMode) (neg : Bool) (m : Nat) (e q : Int) : Nat × Bool :=
  if q ≤ e then (m * 2 ^ (e - q).toNat, false)
  else
    let k := (q - e).toNat
    let n := m / 2 ^ k
    let r := m % 2 ^ k
    let up := match mode with
      | .rne => 2 ^ k < 2 * r || (2 * r == 2 ^ k && n % 2 == 1)
      | .rna => 2 ^ k ≤ 2 * r
      | .rtz => false
      | .rdn => neg && r != 0
      | .rup => !neg && r != 0
    (if up then n + 1 else n, r != 0)

/-- What a finite overflow gives (02 R37). -/
def overflowBits (f : Fmt) (mode : RMode) (sat neg : Bool) : Nat :=
  let toInf := match mode with
    | .rne | .rna => true | .rtz => false | .rdn => neg | .rup => !neg
  signBit f neg +
    (if sat || !toInf then maxBits f
     else if hasInf f then infBits f
     else match f with
       | .e4m3 => 0x7F
       | _ => maxBits f)

/-- E4M3's NaN has no sign once produced by rounding (02 R31: the canonical NaN). -/
def canonNan (f : Fmt) (x : Nat) : Nat := if f == .e4m3 && x % 128 == 0x7F then 0x7F else x

/-- What an infinite input gives (02 R37). -/
def infResult (f : Fmt) (sat neg : Bool) : Nat × FpFlags :=
  if hasInf f then (signBit f neg + infBits f, noFlags)
  else match f with
    | .e4m3 => (if sat then signBit f neg + maxBits f else 0x7F, flagInvalid)
    | _ => (signBit f neg + maxBits f, flagInvalid)

/-- Is the value, rounded to the format's precision with unbounded exponent, below the smallest normal (02 R38)? -/
def isTiny (f : Fmt) (mode : RMode) (neg : Bool) (m : Nat) (e : Int) : Bool :=
  let top := (Nat.log2 m : Int) + e
  let n := (roundGrid mode neg m e (top - fracBits f)).1
  let top' := if n == 2 ^ (fracBits f + 1) then top + 1 else top
  m != 0 && top' < 1 - expBias f

/-- FRound of a finite value (02 R36 to R38): the element and the exceptions raised. -/
def roundFin (f : Fmt) (mode : RMode) (sat neg : Bool) (m : Nat) (e : Int) : Nat × FpFlags :=
  if m == 0 then (signBit f neg, noFlags)
  else
    let top := (Nat.log2 m : Int) + e
    let low := 1 - expBias f - fracBits f
    let q := if top - fracBits f < low then low else top - fracBits f
    let (n, lost) := roundGrid mode neg m e q
    let mag := n + (q - low).toNat * 2 ^ fracBits f
    if maxBits f < mag then
      (canonNan f (overflowBits f mode sat neg), { overflow := true, inexact := true })
    else
      (signBit f neg + mag, { underflow := isTiny f mode neg m e && lost, inexact := lost })

/-- FRound (02 R36, R37): NaN gives the canonical NaN, raising invalid if signalling or if the target is
FP6 or FP4. -/
def fround (f : Fmt) (mode : RMode) (sat : Bool) (v : FVal) : Nat × FpFlags :=
  match v with
  | .nan s => (nanBits f, { invalid := s || f == .fp6 || f == .fp4 })
  | .inf neg => infResult f sat neg
  | .fin neg m e => roundFin f mode sat neg m e

/-- Is an FP32 (or BF16) encoding a subnormal? -/
def isSubnormal (f : Fmt) (x : Nat) : Bool :=
  bits x (expBits f + fracBits f - 1) (fracBits f) == 0 && x % 2 ^ fracBits f != 0

/-- The operand flush of FZ (02 R38). -/
def flushOperand (f : Fmt) (fz : Bool) (x : Nat) : Nat :=
  if fz && isSubnormal f x then signBit f (bit x (expBits f + fracBits f)) else x

def operand (f : Fmt) (fz : Bool) (x : Nat) : FVal := fdecode f (flushOperand f fz x)

/-- FRound of an FP32 arithmetic result under FZ (02 R38). -/
def roundFz (f : Fmt) (mode : RMode) (fz : Bool) (v : FVal) : Nat × FpFlags :=
  match v with
  | .fin neg m e =>
    if fz && isTiny f mode neg m e then (signBit f neg, { underflow := true, inexact := true })
    else roundFin f mode false neg m e
  | v => fround f mode false v

def fneg : FVal → FVal
  | .nan s => .nan s
  | .inf n => .inf !n
  | .fin n m e => .fin (!n) m e

/-- The signed mantissa of a finite value on the grid 2^q, q at or below its exponent. -/
def onGrid (neg : Bool) (m : Nat) (e q : Int) : Int :=
  let x : Int := (m * 2 ^ (e - q).toNat : Nat)
  if neg then -x else x

/-- The exact sum; a zero sum of opposite signs is +0, or -0 under RDN (02 R36). The Bool is the invalid of
infinity minus infinity. Signalling NaNs are reported by `anySignal`. -/
def addVal (mode : RMode) (x y : FVal) : FVal × Bool :=
  match x, y with
  | .nan _, _ => (.nan false, false)
  | _, .nan _ => (.nan false, false)
  | .inf a, .inf b => if a == b then (.inf a, false) else (.nan false, true)
  | .inf a, _ => (.inf a, false)
  | _, .inf b => (.inf b, false)
  | .fin a m e, .fin b n g =>
    let q := if e < g then e else g
    let s := onGrid a m e q + onGrid b n g q
    if s == 0 then
      (.fin (if m == 0 && n == 0 && a == b then a else mode == .rdn) 0 q, false)
    else (.fin (s < 0) s.natAbs q, false)

/-- The exact product; infinity times zero is invalid. -/
def mulVal (x y : FVal) : FVal × Bool :=
  match x, y with
  | .inf a, .inf b => (.inf (a != b), false)
  | .inf a, .fin b n _ => if n == 0 then (.nan false, true) else (.inf (a != b), false)
  | .fin a m _, .inf b => if m == 0 then (.nan false, true) else (.inf (a != b), false)
  | .fin a m e, .fin b n g => (.fin (a != b) (m * n) (e + g), false)
  | _, _ => (.nan false, false)

/-- The quotient, exact up to a sticky low bit, which rounds as the exact value does. -/
def divVal (x y : FVal) : FVal × FpFlags :=
  match x, y with
  | .nan _, _ => (.nan false, noFlags)
  | _, .nan _ => (.nan false, noFlags)
  | .inf _, .inf _ => (.nan false, flagInvalid)
  | .inf a, .fin b _ _ => (.inf (a != b), noFlags)
  | .fin a _ _, .inf b => (.fin (a != b) 0 0, noFlags)
  | .fin a m e, .fin b n g =>
    if n == 0 then
      if m == 0 then (.nan false, flagInvalid) else (.inf (a != b), { divz := true })
    else
      let k := 200 + Nat.log2 n
      let num := m * 2 ^ k
      (.fin (a != b) (2 * (num / n) + ofBool (num % n != 0)) (e - g - k - 1), noFlags)

/-- The square root, exact up to a sticky low bit. -/
def sqrtVal (x : FVal) : FVal × FpFlags :=
  match x with
  | .nan _ => (.nan false, noFlags)
  | .inf a => if a then (.nan false, flagInvalid) else (.inf false, noFlags)
  | .fin a m e =>
    if m == 0 then (.fin a 0 0, noFlags)
    else if a then (.nan false, flagInvalid)
    else
      let odd := e % 2 != 0
      let m' := (if odd then 2 * m else m) * 2 ^ 200
      let e' := (if odd then e - 1 else e) - 200
      let r := isqrt m'
      (.fin false (2 * r + ofBool (r * r != m')) (e' / 2 - 1), noFlags)

def isSignal : FVal → Bool
  | .nan s => s
  | _ => false

def isNanV : FVal → Bool
  | .nan _ => true
  | _ => false

/-- Compare two non-NaN values: negative, zero or positive as x is below, equal to or above y; -0 equals +0. -/
def cmpVal (x y : FVal) : Int :=
  match x, y with
  | .inf a, .inf b => if a == b then 0 else if a then -1 else 1
  | .inf a, _ => if a then -1 else 1
  | _, .inf b => if b then 1 else -1
  | .fin a m e, .fin b n g =>
    let q := if e < g then e else g
    onGrid a m e q - onGrid b n g q
  | _, _ => 0

def negSign : FVal → Bool
  | .fin n _ _ => n
  | .inf n => n
  | .nan _ => false

/-- minimumNumber and maximumNumber on encodings: -0 is below +0; the other operand when exactly one is a
NaN, the canonical NaN when both are (07 R146). -/
def minMaxBits (f : Fmt) (isMax : Bool) (fz : Bool) (x y : Nat) : Nat × FpFlags :=
  let x := flushOperand f fz x
  let y := flushOperand f fz y
  let a := fdecode f x
  let b := fdecode f y
  let fl : FpFlags := { invalid := isSignal a || isSignal b }
  if isNanV a && isNanV b then (nanBits f, fl)
  else if isNanV a then (y, fl)
  else if isNanV b then (x, fl)
  else
    let c := cmpVal a b
    let xLower := c < 0 || (c == 0 && negSign a)
    (if xLower != isMax then x else y, fl)

/-- Sign, precision and rounding of an integer value (07 R155). -/
def intVal (v : Int) : FVal := .fin (v < 0) v.natAbs 0

/-- Round a value to an integer: the integer and whether it changed. -/
def roundInt (mode : RMode) (neg : Bool) (m : Nat) (e : Int) : Int × Bool :=
  let (n, lost) := roundGrid mode neg m e 0
  (if neg then -(n : Int) else n, lost)

/-- Convert to an integer in [lo, hi] (07 R155, R156): the nearer bound with invalid outside the range. -/
def toIntRange (mode : RMode) (lo hi : Int) (v : FVal) : Int × FpFlags :=
  match v with
  | .nan _ => (0, flagInvalid)
  | .inf neg => (if neg then lo else hi, flagInvalid)
  | .fin neg m e =>
    let (n, lost) := roundInt mode neg m e
    if n < lo then (lo, flagInvalid) else if hi < n then (hi, flagInvalid) else (n, { inexact := lost })

/-- An FP32 value entering a sum range with binary point s (02 R30): rounded to nearest even, saturated. -/
def enterSum (s : Nat) (lo hi : Int) (x : Nat) : Int :=
  match fdecode .fp32 x with
  | .nan _ => 0
  | .inf neg => if neg then lo else hi
  | .fin neg m e => clampInt lo hi (roundInt .rne neg m (e + s)).1

/-- One step of the generator (02 R41). -/
def srStep (x : Word) : Word :=
  let x := x ^^^ (x <<< 13)
  let x := x ^^^ (x >>> 17)
  x ^^^ (x <<< 5)

/-- SR of a finite value with the stepped generator word (02 R41). -/
def roundSr (f : Fmt) (sat : Bool) (x : Word) (neg : Bool) (m : Nat) (e : Int) : Nat × FpFlags :=
  if m == 0 then (signBit f neg, noFlags)
  else
    let top := (Nat.log2 m : Int) + e
    let low := 1 - expBias f - fracBits f
    let u := if top - fracBits f < low then low else top - fracBits f
    let k := (u - e).toNat
    let q := if u ≤ e then m * 2 ^ (e - u).toNat else m / 2 ^ k
    let rem := if u ≤ e then 0 else m % 2 ^ k
    let k' := if 32 < k then 32 else k
    let d := if 32 < k then rem / 2 ^ (k - 32) else rem
    let xt := x.toNat / 2 ^ (32 - k')
    let q' := if k' != 0 && 2 ^ k' ≤ d + xt then q + 1 else q
    let mag := q' + (u - low).toNat * 2 ^ fracBits f
    if maxBits f < mag then
      (canonNan f (overflowBits f .rne sat neg), { overflow := true, inexact := true })
    else (signBit f neg + mag, { inexact := rem != 0 })

/-- SR of any value: specials convert as under RNE (02 R41). -/
def froundSr (f : Fmt) (sat : Bool) (x : Word) (v : FVal) : Nat × FpFlags :=
  match v with
  | .fin neg m e => roundSr f sat x neg m e
  | v => fround f .rne sat v

/-- The value of an E8M0 scale (02 R32). -/
def scaleVal (e : Nat) : FVal := if e == 255 then .nan false else .fin false 1 ((e : Int) - 127)

/-- The exact sum of finite values, folded from the left; the sign of a zero sum follows 02 R36. -/
def sumFin (mode : RMode) : List FVal → FVal
  | [] => .fin false 0 0
  | x :: xs => xs.foldl (fun s y => (addVal mode s y).1) x

def isInfV (neg : Bool) : FVal → Bool
  | .inf n => n == neg
  | _ => false

/-- The exact sum of terms (07 R154, R162): any NaN gives NaN; infinities of both signs give NaN and are
invalid; otherwise an infinity of the terms' sign, or the exact finite sum. -/
def sumTerms (mode : RMode) (ts : List FVal) : FVal × Bool :=
  let p := ts.any (isInfV false)
  let n := ts.any (isInfV true)
  if ts.any isNanV then (.nan false, p && n)
  else if p && n then (.nan false, true)
  else if p then (.inf false, false)
  else if n then (.inf true, false)
  else (sumFin mode ts, false)

end Sys2Proof.Machine
end

