-- ==== Sys2Proof/Machine/Trans.lean ====
section
/-! DEFINITION. The transcendentals of major 0x1A (07 R150, R151). Special operands give exactly the results
listed; for every other operand the result is a free value kept inside the stated error of the exact value,
which is worked out here in fixed point with 128 fraction bits (error far below any bound of R150). -/
namespace Sys2Proof.Machine

/-- ln 2, pi and log2 e with 128 fraction bits. -/
def fxLn2 : Nat := 0xb17217f7d1cf79abc9e3b39803f2f6af
def fxPi : Nat := 0x3243f6a8885a308d313198a2e03707344
def fxLog2e : Nat := 0x171547652b82fe1777d0ffda0d23a7d11
def fxOne : Nat := 2 ^ 128

def fxMul (x y : Nat) : Nat := x * y / fxOne

/-- m x 2^e in fixed point, truncated. -/
def toFx (m : Nat) (e : Int) : Nat :=
  if 0 ≤ e + 128 then m * 2 ^ (e + 128).toNat else m / 2 ^ (-(e + 128)).toNat

/-- The terms of e^x from the n-th on: t (1 + x/n (1 + x/(n+1) ...)). -/
def expTerms (x : Nat) : Nat → Nat → Nat → Nat
  | 0, _, _ => 0
  | k + 1, n, t => t + expTerms x k (n + 1) (fxMul t x / n)

/-- e^x for x in [0, 1). -/
def fxExp (x : Nat) : Nat := expTerms x 45 1 fxOne

/-- 2^(x) for a signed fixed-point x: mantissa in [1, 2) in fixed point, and exponent. -/
def fxExp2 (neg : Bool) (x : Nat) : Nat × Int :=
  let v : Int := if neg then -(x : Int) else x
  let n := v / (fxOne : Int)
  let f := (v % (fxOne : Int)).toNat
  (fxExp (fxMul f fxLn2), n)

/-- log2 of a mantissa in [1, 2): k fraction bits by repeated squaring. -/
def log2Bits (x : Nat) : Nat → Nat → Nat
  | 0, acc => acc
  | k + 1, acc =>
    let y := fxMul x x
    if 2 * fxOne ≤ y then log2Bits (y / 2) k (2 * acc + 1) else log2Bits y k (2 * acc)

/-- sin(z) for z in [0, pi/2]: the alternating series, s the sign of the next term. -/
def sinTerms (z2 : Nat) : Nat → Nat → Nat → Int
  | 0, _, _ => 0
  | k + 1, n, t => (t : Int) - sinTerms z2 k (n + 2) (fxMul t z2 / ((n + 1) * (n + 2)))

/-- sin(pi r) for r in [0, 2) in fixed point. -/
def fxSinPi (r : Nat) : Int :=
  let neg := fxOne ≤ r
  let r := if neg then r - fxOne else r
  let r := if fxOne < 2 * r then fxOne - r else r
  let z := fxMul r fxPi
  let s := sinTerms (fxMul z z) 30 1 z
  if neg then -s else s

/-- The exact value of a function of major 0x1A at a finite operand, to well within its bound: sign, mantissa, exponent. Of
a tiny operand a, tanh a is a - a^3 / 3. -/
def transExact (fn : Nat) (neg : Bool) (m : Nat) (e : Int) : Bool × Nat × Int :=
  let x := toFx m e
  match fn with
  | 0 => match (divVal (.fin false 1 0) (.fin neg m e)).1 with
    | .fin n q g => (n, q, g)
    | _ => (neg, 0, 0)
  | 1 => match (sqrtVal (.fin false m e)).1 with
    | .fin _ q g => match (divVal (.fin false 1 0) (.fin false q g)).1 with
      | .fin _ q' g' => (false, q', g')
      | _ => (false, 0, 0)
    | _ => (false, 0, 0)
  | 2 => let (q, n) := fxExp2 neg x
    (false, q, n - 128)
  | 3 =>
    let top := Nat.log2 m
    let n := (top : Int) + e
    let y := log2Bits (m * 2 ^ (128 - top)) 80 0
    let v : Int := n * (2 ^ 80 : Nat) + y
    (v < 0, v.natAbs, -80)
  | 4 => let s := fxSinPi (x % (2 * fxOne))
    ((s < 0) != neg, s.natAbs, -128)
  | 5 => let s := fxSinPi ((x + fxOne / 2) % (2 * fxOne))
    (s < 0, s.natAbs, -128)
  | 6 =>
    if x < 2 ^ 108 then (neg, (3 * m * 2 ^ (-2 * e).toNat - m ^ 3) * 2 ^ 8 / 3, 3 * e - 8)
    else if 64 * fxOne ≤ x then (neg, fxOne, -128)
    else
      let (q, n) := fxExp2 false (fxMul (2 * x) fxLog2e)
      let ex := q * 2 ^ n.toNat
      (neg, (ex - fxOne) * fxOne / (ex + fxOne), -128)
  | _ =>
    if 512 * fxOne ≤ x then (if neg then (false, 1, -1000) else (false, fxOne, -128))
    else
      let (q, n) := fxExp2 true (fxMul x fxLog2e)
      let t := q / 2 ^ (-n).toNat
      if neg then (false, q * fxOne / (fxOne + t), n - 128)
      else (false, fxOne * fxOne / (fxOne + t), -128)

/-- |y - v| is at most k units 2^q. -/
def within (y v : FVal) (k : Nat) (q : Int) : Bool :=
  match (addVal .rne y (fneg v)).1 with
  | .fin _ m e => cmpVal (.fin false m e) (.fin false k q) ≤ 0
  | _ => false

/-- The stated maximum error (07 R150): k ulp of the exact value, or 2^-22 absolute. -/
def inBound (fn : Nat) (y : Nat) (neg : Bool) (m : Nat) (e : Int) (operand : FVal) : Bool :=
  let yv := fdecode .fp32 y
  let v := FVal.fin neg m e
  let top := (Nat.log2 m : Int) + e - 23
  let ulp := if top < -149 then -149 else top
  let near := cmpVal (.fin false 1 (-1)) operand ≤ 0 && cmpVal operand (.fin false 2 0) ≤ 0
  match fn with
  | 0 | 1 => within yv v 1 ulp
  | 3 => within yv v 2 ulp || (near && within yv v 1 (-22))
  | 4 | 5 => within yv v 1 (-22)
  | _ => within yv v 2 ulp

/-- A finite operand outside the special cases: the free value where it meets the bound, else the nearest finite value.
Where no number meets the bound, far above the largest one, R150 promises no bits: the free value alone, or the canonical NaN
when it is one (02 R31). -/
def transFree (fn : Nat) (x : Word) (neg : Bool) (m : Nat) (e : Int) : Nat :=
  let (n, q, g) := transExact fn neg m e
  let (near, fl) := roundFin .fp32 .rne false n q g
  let cand := (Config.freeTrans fn x).toNat
  let best := if fl.overflow then signBit .fp32 n + maxBits .fp32 else near
  if inBound fn cand n q g (.fin neg m e) then cand
  else if fl.overflow && !inBound fn best n q g (.fin neg m e) then
    (match fdecode .fp32 cand with
     | .nan _ => nanBits .fp32
     | _ => cand)
  else best

/-- Is a finite value an integer, and is it an integer plus one half? -/
def isIntegral (m : Nat) (e : Int) : Bool := m == 0 || 0 ≤ e || m % 2 ^ (-e).toNat == 0

def isHalf (m : Nat) (e : Int) : Bool := !isIntegral m e && isIntegral m (e + 1)

/-- The integer a finite integral value holds, without sign. -/
def integralNat (m : Nat) (e : Int) : Nat := if 0 ≤ e then m * 2 ^ e.toNat else m / 2 ^ (-e).toNat

def one32 : Nat := 0x3F800000

/-- One function of major 0x1A on the flushed operand: result before the result flush, and exceptions. -/
def transVal (fn : Nat) (x : Word) (v : FVal) : Nat × FpFlags :=
  let bad := (nanBits .fp32, flagInvalid)
  let sgn (n : Bool) (b : Nat) := signBit .fp32 n + b
  let inf := infBits .fp32
  match v with
  | .nan s => (nanBits .fp32, { invalid := s })
  | .inf neg =>
    match fn with
    | 0 => (sgn neg 0, noFlags)
    | 1 => if neg then bad else (0, noFlags)
    | 2 => (if neg then 0 else inf, noFlags)
    | 3 => if neg then bad else (inf, noFlags)
    | 4 | 5 => bad
    | 6 => (sgn neg one32, noFlags)
    | _ => (if neg then 0 else one32, noFlags)
  | .fin neg m e =>
    let zero := m == 0
    match fn with
    | 0 => if zero then (sgn neg inf, { divz := true }) else (transFree fn x neg m e, noFlags)
    | 1 => if zero then (sgn neg inf, { divz := true })
      else if neg then bad else (transFree fn x neg m e, noFlags)
    | 2 =>
      if !neg && cmpVal (.fin false m e) (.fin false 128 0) ≥ 0 then (inf, { overflow := true })
      else if neg && cmpVal (.fin false m e) (.fin false 150 0) > 0 then (0, noFlags)
      else if isIntegral m e && !(neg && integralNat m e == 150) then
        ((roundFin .fp32 .rne false false 1 (if neg then -(integralNat m e : Int) else integralNat m e)).1, noFlags)
      else (transFree fn x neg m e, noFlags)
    | 3 => if zero then (sgn true inf, { divz := true })
      else if neg then bad
      else if m == 2 ^ Nat.log2 m then
        let n := (Nat.log2 m : Int) + e
        ((roundFin .fp32 .rne false (n < 0) n.natAbs 0).1, noFlags)
      else (transFree fn x neg m e, noFlags)
    | 4 =>
      if isIntegral m e then (sgn (neg && !zero) 0, noFlags)
      else if isHalf m e then
        (sgn (neg != (integralNat m e % 2 == 1)) one32, noFlags)
      else (transFree fn x neg m e, noFlags)
    | 5 =>
      if isHalf m e then (0, noFlags)
      else if isIntegral m e then (sgn (integralNat m e % 2 == 1) one32, noFlags)
      else (transFree fn x neg m e, noFlags)
    | 6 => if zero then (sgn neg 0, noFlags) else (transFree fn x neg m e, noFlags)
    | _ => if zero then (0x3F000000, noFlags) else (transFree fn x neg m e, noFlags)

/-- A transcendental on an FP32 encoding: FZ flushes the operand and the result, without a flag (07 R151). -/
def transOp (fn : Nat) (fz : Bool) (x : Word) : Word × FpFlags :=
  let (r, fl) := transVal fn x (operand .fp32 fz x.toNat)
  (BitVec.ofNat 32 (flushOperand .fp32 fz r), fl)

end Sys2Proof.Machine
end

