-- ==== Sys2Proof/Machine/Flags.lean ====
section
/-! DEFINITION. The flag computations: the fields of FPCR, the exceptions of a lane and the trap on an enabled
one (02 R34, R38, R39; 07 R136). No other instruction of the machine has a flag. -/
namespace Sys2Proof.Machine

/-- The rounding mode RM of an FPCR (02 R34). -/
def fpcrRm (f : Nat) : RMode := rmOf (f % 4)

/-- SR, FZ and SAT of an FPCR. -/
def fpcrSr (f : Nat) : Bool := bit f 2
def fpcrFz (f : Nat) : Bool := bit f 3
def fpcrSat (f : Nat) : Bool := bit f 4

/-- The exceptions whose enable bit is set (02 R39: FPCR [9:5] in the order of FPSTAT [4:0]). -/
def fpEnabled (f : Nat) (fl : FpFlags) : Nat := flagsNat fl &&& bits f 9 5

/-- What a write of FPCR keeps: reserved bits read zero (02 R34). -/
def fpcrOf (v : Word) : Nat := v.toNat % 2 ^ 10

/-- What a write of SEED sets the generator word to (02 R40). -/
def seedOf (v : Word) : Nat := if v = 0 then 0x9E3779B9 else v.toNat

/-- A lane's floating-point result: its registers, or the trap 0x18 when an exception it raised is enabled. -/
def fpOut (l f : Nat) (fl : FpFlags) (ws : List (Nat × Word)) : LaneOut :=
  if fpEnabled f fl = 0 then .regs ws else .trap { cause := 0x18, fpstat := [(l, flagsNat fl)] }

/-- Invalid when an operand is a signalling NaN, or by another reason. -/
def invalidOf (vs : List FVal) (b : Bool) : FpFlags := { invalid := vs.any isSignal || b }

/-- A floating-point word: one result a lane, with its exceptions, from the lane's FPCR (07 R136). -/
def State.fpWord (s : State) (long : Bool) (d : Fin 128) (f : Acting → Nat → Nat → Word × FpFlags) : State :=
  s.laneWord long (fun a l =>
    let c := (a.gang.lane l).fpcr
    let r := f a l c
    fpOut l c r.2 [(d.val, r.1)])


end Sys2Proof.Machine
end

