-- ==== Sys2Proof/Machine/Integer.lean ====
section
/-! DEFINITION. Integer, logic, compare, address, immediate and bit-field words, integer dot products and
narrowing (07 R138 to R145, R153, R158). -/
namespace Sys2Proof.Machine

/-- A word with one 32-bit result from V(L,a), V(L,b) and the old V(L,d) (07 R135). -/
def State.f3 (s : State) (long : Bool) (d a b : Fin 128) (f : Word → Word → Word → Word) : State :=
  s.laneValue long d.val (fun x l => f (s.reg x.gang l a.val) (s.reg x.gang l b.val) (s.reg x.gang l d.val))

/-- A word with one 32-bit result from V(L,a) and the old V(L,d). -/
def State.f2 (s : State) (long : Bool) (d a : Fin 128) (f : Word → Word → Word) : State :=
  s.laneValue long d.val (fun x l => f (s.reg x.gang l a.val) (s.reg x.gang l d.val))

/-- The two words of a pair result, written together (00 R11, 07 R143). -/
def pairOut (d : Fin 128) (v : Nat) : List (Nat × Word) :=
  [(d.val, BitVec.ofNat 32 v), (d.val + 1, BitVec.ofNat 32 (v / 2 ^ 32))]

/-- A word with a pair result. -/
def State.pairWord (s : State) (d : Fin 128) (f : Acting → Nat → Nat) : State :=
  s.laneWord false (fun x l => .regs (pairOut d (f x l % 2 ^ 64)))

/-- The signed and unsigned readings of a word. -/
def si (x : Word) : Int := sext 32 x.toNat
def ui (x : Word) : Int := (x.toNat : Int)

/-- The high word of an exact product. -/
def highWord (x : Int) : Word := word (x / (2 ^ 32 : Nat))

/-- Quotient and remainder: truncating, with the results that 07 R139 gives for a zero divisor and for the
most negative dividend by -1. -/
def divide (signed : Bool) (a b : Word) : Word × Word :=
  let x := if signed then si a else ui a
  let y := if signed then si b else ui b
  if y = 0 then (0xFFFFFFFF, a)
  else (word (x.tdiv y), word (x - x.tdiv y * y))

/-- Shifts by a count read unsigned (07 R141). -/
def shlW (a : Word) (n : Nat) : Word := if 32 ≤ n then 0 else a <<< n
def shrW (a : Word) (n : Nat) : Word := if 32 ≤ n then 0 else a >>> n
def sarW (a : Word) (n : Nat) : Word := if 32 ≤ n then truth a.msb else a.sshiftRight n

/-- The conditions of `icmp` (07 R142). -/
def icmpHolds (c : Nat) (a b : Word) : Bool :=
  match c with
  | 0 => a == b
  | 1 => a != b
  | 2 => decide (si a < si b)
  | 3 => decide (si a ≤ si b)
  | 4 => decide (si b < si a)
  | 5 => decide (si b ≤ si a)
  | 6 => decide (a.toNat < b.toNat)
  | 7 => decide (a.toNat ≤ b.toNat)
  | 8 => decide (b.toNat < a.toNat)
  | 9 => decide (b.toNat ≤ a.toNat)
  | _ => false

/-- The signed FI and FW immediates as words. -/
def immW (i : Fin 2048) : Word := word (sext 11 i.val)

/-- `bfx` (07 R145): the field of length min(len, 32 - pos) at pos, sign-extended when x is set. -/
def fieldOut (x : Bool) (pos len : Nat) (a : Word) : Word :=
  let n := min len (32 - pos)
  let f := bits a.toNat (pos + n - 1) pos
  if x then word (sext n f) else BitVec.ofNat 32 f

/-- `bfi` (07 R145): the low bits of a replace a field of d, or of zero when x is set. -/
def fieldIn (x : Bool) (pos len : Nat) (a d : Word) : Word :=
  let n := min len (32 - pos)
  let base := if x then 0 else d.toNat
  BitVec.ofNat 32 (base - bits base (pos + n - 1) pos * 2 ^ pos + a.toNat % 2 ^ n * 2 ^ pos)

/-- Four byte products and d, wrapped (07 R153). -/
def dot4 (signed : Bool) (a b d : Word) : Word :=
  word ((List.range 4).foldl (fun (t : Int) j =>
    let x := bits a.toNat (8 * j + 7) (8 * j)
    t + (if signed then sext 8 x else (x : Int)) * sext 8 (bits b.toNat (8 * j + 7) (8 * j))) (si d))

/-! ### Integer arithmetic -/

/-- IADD (R138). -/
def execIadd (d a b : Fin 128) (s : State) : Host.Outcome State Fault Refusal :=
  .next (s.f3 false d a b (fun x y _ => x + y))

/-- ISUB (R138). -/
def execIsub (d a b : Fin 128) (s : State) : Host.Outcome State Fault Refusal :=
  .next (s.f3 false d a b (fun x y _ => x - y))

/-- IMUL (R138). -/
def execImul (d a b : Fin 128) (s : State) : Host.Outcome State Fault Refusal :=
  .next (s.f3 false d a b (fun x y _ => x * y))

/-- IMULH (R138). -/
def execImulh (d a b : Fin 128) (s : State) : Host.Outcome State Fault Refusal :=
  .next (s.f3 false d a b (fun x y _ => highWord (si x * si y)))

/-- UMULH (R138). -/
def execUmulh (d a b : Fin 128) (s : State) : Host.Outcome State Fault Refusal :=
  .next (s.f3 false d a b (fun x y _ => highWord (ui x * ui y)))

/-- IMAD (R138). -/
def execImad (d a b : Fin 128) (s : State) : Host.Outcome State Fault Refusal :=
  .next (s.f3 false d a b (fun x y z => x * y + z))

/-- IMIN (R138). -/
def execImin (d a b : Fin 128) (s : State) : Host.Outcome State Fault Refusal :=
  .next (s.f3 false d a b (fun x y _ => if si y < si x then y else x))

/-- IMAX (R138). -/
def execImax (d a b : Fin 128) (s : State) : Host.Outcome State Fault Refusal :=
  .next (s.f3 false d a b (fun x y _ => if si x < si y then y else x))

/-- UMIN (R138). -/
def execUmin (d a b : Fin 128) (s : State) : Host.Outcome State Fault Refusal :=
  .next (s.f3 false d a b (fun x y _ => if y.toNat < x.toNat then y else x))

/-- UMAX (R138). -/
def execUmax (d a b : Fin 128) (s : State) : Host.Outcome State Fault Refusal :=
  .next (s.f3 false d a b (fun x y _ => if x.toNat < y.toNat then y else x))

/-- IABS (R138). -/
def execIabs (d a : Fin 128) (s : State) : Host.Outcome State Fault Refusal :=
  .next (s.f2 false d a (fun x _ => if x.msb then 0 - x else x))

/-- INEG (R138). -/
def execIneg (d a : Fin 128) (s : State) : Host.Outcome State Fault Refusal :=
  .next (s.f2 false d a (fun x _ => 0 - x))

/-- IDIV (R138, R139). -/
def execIdiv (d a b : Fin 128) (s : State) : Host.Outcome State Fault Refusal :=
  .next (s.f3 true d a b (fun x y _ => (divide true x y).1))

/-- UDIV (R138, R139). -/
def execUdiv (d a b : Fin 128) (s : State) : Host.Outcome State Fault Refusal :=
  .next (s.f3 true d a b (fun x y _ => (divide false x y).1))

/-- IREM (R138, R139). -/
def execIrem (d a b : Fin 128) (s : State) : Host.Outcome State Fault Refusal :=
  .next (s.f3 true d a b (fun x y _ => (divide true x y).2))

/-- UREM (R138, R139). -/
def execUrem (d a b : Fin 128) (s : State) : Host.Outcome State Fault Refusal :=
  .next (s.f3 true d a b (fun x y _ => (divide false x y).2))

/-! ### Logic and bit operations -/

/-- AND (R140). -/
def execAndv (d a b : Fin 128) (s : State) : Host.Outcome State Fault Refusal :=
  .next (s.f3 false d a b (fun x y _ => x &&& y))

/-- OR (R140). -/
def execOrv (d a b : Fin 128) (s : State) : Host.Outcome State Fault Refusal :=
  .next (s.f3 false d a b (fun x y _ => x ||| y))

/-- XOR (R140). -/
def execXorv (d a b : Fin 128) (s : State) : Host.Outcome State Fault Refusal :=
  .next (s.f3 false d a b (fun x y _ => x ^^^ y))

/-- ANDN (R140). -/
def execAndn (d a b : Fin 128) (s : State) : Host.Outcome State Fault Refusal :=
  .next (s.f3 false d a b (fun x y _ => x &&& ~~~y))

/-- ORN (R140). -/
def execOrn (d a b : Fin 128) (s : State) : Host.Outcome State Fault Refusal :=
  .next (s.f3 false d a b (fun x y _ => x ||| ~~~y))

/-- XNOR (R140). -/
def execXnor (d a b : Fin 128) (s : State) : Host.Outcome State Fault Refusal :=
  .next (s.f3 false d a b (fun x y _ => ~~~(x ^^^ y)))

/-- SHL (R140, R141). -/
def execShl (d a b : Fin 128) (s : State) : Host.Outcome State Fault Refusal :=
  .next (s.f3 false d a b (fun x y _ => shlW x y.toNat))

/-- SHR (R140, R141). -/
def execShr (d a b : Fin 128) (s : State) : Host.Outcome State Fault Refusal :=
  .next (s.f3 false d a b (fun x y _ => shrW x y.toNat))

/-- SAR (R140, R141). -/
def execSar (d a b : Fin 128) (s : State) : Host.Outcome State Fault Refusal :=
  .next (s.f3 false d a b (fun x y _ => sarW x y.toNat))

/-- ROTL (R140, R141). -/
def execRotl (d a b : Fin 128) (s : State) : Host.Outcome State Fault Refusal :=
  .next (s.f3 false d a b (fun x y _ => x.rotateLeft (y.toNat % 32)))

/-- POPC (R140). -/
def execPopc (d a : Fin 128) (s : State) : Host.Outcome State Fault Refusal :=
  .next (s.f2 false d a (fun x _ => BitVec.ofNat 32 (popCount 32 x.toNat)))

/-- CLZ (R140). -/
def execClz (d a : Fin 128) (s : State) : Host.Outcome State Fault Refusal :=
  .next (s.f2 false d a (fun x _ => BitVec.ofNat 32 (lowBit 32 (revBits 32 x.toNat))))

/-- CTZ (R140). -/
def execCtz (d a : Fin 128) (s : State) : Host.Outcome State Fault Refusal :=
  .next (s.f2 false d a (fun x _ => BitVec.ofNat 32 (lowBit 32 x.toNat)))

/-- BREV (R140). -/
def execBrev (d a : Fin 128) (s : State) : Host.Outcome State Fault Refusal :=
  .next (s.f2 false d a (fun x _ => BitVec.ofNat 32 (revBits 32 x.toNat)))

/-- SEL (R140). -/
def execSel (d a b : Fin 128) (s : State) : Host.Outcome State Fault Refusal :=
  .next (s.f3 false d a b (fun x y z => if z = 0 then y else x))

/-- MOV (R140). -/
def execMov (d a : Fin 128) (s : State) : Host.Outcome State Fault Refusal :=
  .next (s.f2 false d a (fun x _ => x))

/-! ### Compares -/

/-- ICMP (R142). -/
def execIcmp (c : Fin 16) (d a b : Fin 128) (s : State) : Host.Outcome State Fault Refusal :=
  .next (s.f3 false d a b (fun x y _ => truth (icmpHolds c.val x y)))

/-- ICMPI (R142). -/
def execIcmpi (d a : Fin 128) (c : Fin 16) (i : Fin 128) (s : State) : Host.Outcome State Fault Refusal :=
  .next (s.f2 false d a (fun x _ => truth (icmpHolds c.val x (word (sext 7 i.val)))))

/-! ### Address pairs -/

/-- AADD (R143). -/
def execAadd (d a b : Fin 128) (s : State) : Host.Outcome State Fault Refusal :=
  .next (s.pairWord d (fun x l => wrap 64 ((s.pair x.gang l a.val : Int) + si (s.reg x.gang l b.val))))

/-- AADDZ (R143). -/
def execAaddz (d a b : Fin 128) (s : State) : Host.Outcome State Fault Refusal :=
  .next (s.pairWord d (fun x l => s.pair x.gang l a.val + (s.reg x.gang l b.val).toNat))

/-- ASUB (R143). -/
def execAsub (d a b : Fin 128) (s : State) : Host.Outcome State Fault Refusal :=
  .next (s.pairWord d (fun x l => s.pair x.gang l a.val + (2 ^ 64 - s.pair x.gang l b.val)))

/-- AMOV (R143). -/
def execAmov (d a : Fin 128) (s : State) : Host.Outcome State Fault Refusal :=
  .next (s.pairWord d (fun x l => s.pair x.gang l a.val))

/-- ACMPEQ (R143). -/
def execAcmpeq (d a b : Fin 128) (s : State) : Host.Outcome State Fault Refusal :=
  .next (s.laneValue false d.val (fun x l => truth (s.pair x.gang l a.val == s.pair x.gang l b.val)))

/-- ACMPLT (R143). -/
def execAcmplt (d a b : Fin 128) (s : State) : Host.Outcome State Fault Refusal :=
  .next (s.laneValue false d.val (fun x l => truth (decide (s.pair x.gang l a.val < s.pair x.gang l b.val))))

/-- ASHL (R143). -/
def execAshl (d a b : Fin 128) (s : State) : Host.Outcome State Fault Refusal :=
  .next (s.pairWord d (fun x l => if 64 ≤ (s.reg x.gang l b.val).toNat then 0 else s.pair x.gang l a.val * 2 ^ (s.reg x.gang l b.val).toNat))

/-- AMUL (R143). -/
def execAmul (d a b : Fin 128) (s : State) : Host.Outcome State Fault Refusal :=
  .next (s.pairWord d (fun x l => wrap 64 (si (s.reg x.gang l a.val) * si (s.reg x.gang l b.val))))

/-- AADDI (R143). -/
def execAaddi (d a : Fin 128) (i : Fin 2048) (s : State) : Host.Outcome State Fault Refusal :=
  .next (s.pairWord d (fun x l => wrap 64 ((s.pair x.gang l a.val : Int) + sext 11 i.val)))

/-! ### Immediate forms -/

/-- IADDI (R144). -/
def execIaddi (d a : Fin 128) (i : Fin 2048) (s : State) : Host.Outcome State Fault Refusal :=
  .next (s.f2 false d a (fun x _ => x + immW i))

/-- ANDI (R144). -/
def execAndi (d a : Fin 128) (i : Fin 2048) (s : State) : Host.Outcome State Fault Refusal :=
  .next (s.f2 false d a (fun x _ => x &&& immW i))

/-- ORI (R144). -/
def execOri (d a : Fin 128) (i : Fin 2048) (s : State) : Host.Outcome State Fault Refusal :=
  .next (s.f2 false d a (fun x _ => x ||| immW i))

/-- XORI (R144). -/
def execXori (d a : Fin 128) (i : Fin 2048) (s : State) : Host.Outcome State Fault Refusal :=
  .next (s.f2 false d a (fun x _ => x ^^^ immW i))

/-- SHLI (R144). -/
def execShli (d a : Fin 128) (i : Fin 2048) (s : State) : Host.Outcome State Fault Refusal :=
  .next (s.f2 false d a (fun x _ => shlW x i.val))

/-- SHRI (R144). -/
def execShri (d a : Fin 128) (i : Fin 2048) (s : State) : Host.Outcome State Fault Refusal :=
  .next (s.f2 false d a (fun x _ => shrW x i.val))

/-- SARI (R144). -/
def execSari (d a : Fin 128) (i : Fin 2048) (s : State) : Host.Outcome State Fault Refusal :=
  .next (s.f2 false d a (fun x _ => sarW x i.val))

/-- IMULI (R144). -/
def execImuli (d a : Fin 128) (i : Fin 2048) (s : State) : Host.Outcome State Fault Refusal :=
  .next (s.f2 false d a (fun x _ => x * immW i))

/-- MOVI (R144). -/
def execMovi (d : Fin 128) (i : Fin 262144) (s : State) : Host.Outcome State Fault Refusal :=
  .next (s.laneValue false d.val (fun _ _ => word (sext 18 i.val)))

/-- MOVH (R144). -/
def execMovh (d : Fin 128) (i : Fin 65536) (s : State) : Host.Outcome State Fault Refusal :=
  .next (s.laneValue false d.val (fun x l =>
    BitVec.ofNat 32 (i.val * 2 ^ 16 + (s.reg x.gang l d.val).toNat % 2 ^ 16)))

/-- BFX (R145). -/
def execBfx (d a : Fin 128) (x : Fin 2) (p n : Fin 32) (s : State) : Host.Outcome State Fault Refusal :=
  .next (s.f2 false d a (fun v _ => fieldOut (x.val == 1) p.val (n.val + 1) v))

/-- BFI (R145). -/
def execBfi (d a : Fin 128) (x : Fin 2) (p n : Fin 32) (s : State) : Host.Outcome State Fault Refusal :=
  .next (s.f2 false d a (fun v z => fieldIn (x.val == 1) p.val (n.val + 1) v z))

/-! ### Integer dot products and narrowing -/

/-- DP4I (R153). -/
def execDp4i (d a b : Fin 128) (s : State) : Host.Outcome State Fault Refusal :=
  .next (s.f3 false d a b (fun x y z => dot4 true x y z))

/-- DP4N (R153). -/
def execDp4n (d a b : Fin 128) (s : State) : Host.Outcome State Fault Refusal :=
  .next (s.f3 false d a b (fun x y z => dot4 false x y z))

/-- SX8 (R158). -/
def execSx8 (d a : Fin 128) (s : State) : Host.Outcome State Fault Refusal :=
  .next (s.f2 false d a (fun x _ => word (sext 8 x.toNat)))

/-- SX16 (R158). -/
def execSx16 (d a : Fin 128) (s : State) : Host.Outcome State Fault Refusal :=
  .next (s.f2 false d a (fun x _ => word (sext 16 x.toNat)))

/-- SAT8 (R158). -/
def execSat8 (d a : Fin 128) (s : State) : Host.Outcome State Fault Refusal :=
  .next (s.f2 false d a (fun x _ => word (clampInt (-128) 127 (si x))))

/-- SATZ8 (R158). -/
def execSatz8 (d a : Fin 128) (s : State) : Host.Outcome State Fault Refusal :=
  .next (s.f2 false d a (fun x _ => word (clampInt 0 255 (si x))))

/-- SAT16 (R158). -/
def execSat16 (d a : Fin 128) (s : State) : Host.Outcome State Fault Refusal :=
  .next (s.f2 false d a (fun x _ => word (clampInt (-32768) 32767 (si x))))

/-- SATZ16 (R158). -/
def execSatz16 (d a : Fin 128) (s : State) : Host.Outcome State Fault Refusal :=
  .next (s.f2 false d a (fun x _ => word (clampInt 0 65535 (si x))))


end Sys2Proof.Machine
end

