-- ==== Sys2Proof/Machine/FloatWords.lean ====
section
/-! DEFINITION. FP32 arithmetic, compares, transcendentals, packed 16-bit arithmetic, dot products and
conversions (02 R28 to R41; 07 R146 to R158). -/
namespace Sys2Proof.Machine

/-! ### Arithmetic of one element -/

/-- A result that is rounded once: the value, with the invalid exception of the operation. `fz` says whether FZ
acts (02 R38). -/
def roundOut (f : Fmt) (m : RMode) (fz : Bool) (v : FVal) (fl : FpFlags) : Nat × FpFlags :=
  let r := roundFz f m fz v
  (r.1, orFlags fl r.2)

def addEl (f : Fmt) (m : RMode) (fz sub : Bool) (x y : Nat) : Nat × FpFlags :=
  let a := operand f fz x
  let b := operand f fz y
  let r := addVal m a (if sub then fneg b else b)
  roundOut f m fz r.1 (invalidOf [a, b] r.2)

def mulEl (f : Fmt) (m : RMode) (fz : Bool) (x y : Nat) : Nat × FpFlags :=
  let a := operand f fz x
  let b := operand f fz y
  let r := mulVal a b
  roundOut f m fz r.1 (invalidOf [a, b] r.2)

/-- (a x b) + d with either sign inverted, rounded once (07 R146). -/
def fmaEl (f : Fmt) (m : RMode) (fz negProd negAdd : Bool) (x y z : Nat) : Nat × FpFlags :=
  let a := operand f fz x
  let b := operand f fz y
  let d := operand f fz z
  let p := mulVal a b
  let r := addVal m (if negProd then fneg p.1 else p.1) (if negAdd then fneg d else d)
  roundOut f m fz r.1 (invalidOf [a, b, d] (p.2 || r.2))

/-- A word of FP32 operands: its flush and mode come from FPCR. -/
def State.fp3 (s : State) (long : Bool) (d a b : Fin 128) (f : RMode → Bool → Nat → Nat → Nat → Nat × FpFlags) :
    State :=
  s.fpWord long d (fun x l c =>
    let r := f (fpcrRm c) (fpcrFz c) (s.reg x.gang l a.val).toNat (s.reg x.gang l b.val).toNat
      (s.reg x.gang l d.val).toNat
    (BitVec.ofNat 32 r.1, r.2))

def State.fp1 (s : State) (long : Bool) (d a : Fin 128) (f : RMode → Bool → Nat → Nat → Nat × FpFlags) : State :=
  s.fpWord long d (fun x l c =>
    let r := f (fpcrRm c) (fpcrFz c) (s.reg x.gang l a.val).toNat (s.reg x.gang l d.val).toNat
    (BitVec.ofNat 32 r.1, r.2))

/-- `fdiv` and `fsqrt` (07 R146). -/
def divEl (m : RMode) (fz : Bool) (x y : Nat) : Nat × FpFlags :=
  let a := operand .fp32 fz x
  let b := operand .fp32 fz y
  let r := divVal a b
  roundOut .fp32 m fz r.1 (orFlags r.2 (invalidOf [a, b] false))

def sqrtEl (m : RMode) (fz : Bool) (x : Nat) : Nat × FpFlags :=
  let a := operand .fp32 fz x
  let r := sqrtVal a
  roundOut .fp32 m fz r.1 (orFlags r.2 (invalidOf [a] false))

/-- `fsat` (07 R146): clamped to [+0, 1.0]. -/
def satEl (fz : Bool) (x : Nat) : Nat × FpFlags :=
  let y := flushOperand .fp32 fz x
  let a := fdecode .fp32 y
  (if isNanV a || negSign a then 0
   else if cmpVal a (.fin false 1 0) ≥ 0 then one32
   else y % 2 ^ 31, invalidOf [a] false)

/-- `fclass` (07 R147), on the bit pattern. -/
def classOf (x : Nat) : Nat :=
  let neg := bit x 31
  match fdecode .fp32 x with
  | .nan true => 8
  | .nan false => 9
  | .inf _ => if neg then 0 else 7
  | .fin _ m _ =>
    if m = 0 then (if neg then 3 else 4)
    else if isSubnormal .fp32 x then (if neg then 2 else 5)
    else if neg then 1 else 6

/-- `frnd` (07 R148): the mode's rounding, and inexact in modes 6 and 7. -/
def rndEl (mode : Nat) (m : RMode) (fz : Bool) (x : Nat) : Nat × FpFlags :=
  let y := flushOperand .fp32 fz x
  let rm : RMode := match mode with
    | 0 => .rne
    | 1 => .rtz
    | 2 => .rdn
    | 3 => .rup
    | 4 => .rna
    | 6 => .rne
    | _ => m
  match fdecode .fp32 y with
  | .nan g => (nanBits .fp32, { invalid := g })
  | .inf _ => (y, noFlags)
  | .fin neg q e =>
    let (n, lost) := roundGrid rm neg q e 0
    ((roundFin .fp32 .rne false neg n 0).1, { inexact := lost && (mode == 6 || mode == 7) })

/-- `fcmp` (07 R149): the truth value, and invalid. -/
def cmpEl (cc : Nat) (fz : Bool) (x y : Nat) : Bool × FpFlags :=
  let a := operand .fp32 fz x
  let b := operand .fp32 fz y
  let un := isNanV a || isNanV b
  let c := cmpVal a b
  let r := match cc with
    | 0 => !un && c == 0
    | 1 => un || c != 0
    | 2 => !un && decide (c < 0)
    | 3 => !un && decide (c ≤ 0)
    | 4 => !un && decide (0 < c)
    | 5 => !un && decide (0 ≤ c)
    | 6 => un
    | _ => !un
  (r, { invalid := isSignal a || isSignal b || (un && decide (2 ≤ cc) && decide (cc ≤ 5)) })

/-! ### FP32 arithmetic -/

/-- FADD (R146). -/
def execFadd (d a b : Fin 128) (s : State) : Host.Outcome State Fault Refusal :=
  .next (s.fp3 false d a b (fun m z x y _ => addEl .fp32 m z false x y))

/-- FSUB (R146). -/
def execFsub (d a b : Fin 128) (s : State) : Host.Outcome State Fault Refusal :=
  .next (s.fp3 false d a b (fun m z x y _ => addEl .fp32 m z true x y))

/-- FMUL (R146). -/
def execFmul (d a b : Fin 128) (s : State) : Host.Outcome State Fault Refusal :=
  .next (s.fp3 false d a b (fun m z x y _ => mulEl .fp32 m z x y))

/-- FMA (R146). -/
def execFma (d a b : Fin 128) (s : State) : Host.Outcome State Fault Refusal :=
  .next (s.fp3 false d a b (fun m z x y w => fmaEl .fp32 m z false false x y w))

/-- FMS (R146). -/
def execFms (d a b : Fin 128) (s : State) : Host.Outcome State Fault Refusal :=
  .next (s.fp3 false d a b (fun m z x y w => fmaEl .fp32 m z false true x y w))

/-- FNMA (R146). -/
def execFnma (d a b : Fin 128) (s : State) : Host.Outcome State Fault Refusal :=
  .next (s.fp3 false d a b (fun m z x y w => fmaEl .fp32 m z true false x y w))

/-- FMIN (R146). -/
def execFmin (d a b : Fin 128) (s : State) : Host.Outcome State Fault Refusal :=
  .next (s.fp3 false d a b (fun _ z x y _ => minMaxBits .fp32 false z x y))

/-- FMAX (R146). -/
def execFmax (d a b : Fin 128) (s : State) : Host.Outcome State Fault Refusal :=
  .next (s.fp3 false d a b (fun _ z x y _ => minMaxBits .fp32 true z x y))

/-- FABS (R146). -/
def execFabs (d a : Fin 128) (s : State) : Host.Outcome State Fault Refusal :=
  .next (s.f2 false d a (fun x _ => x &&& 0x7FFFFFFF))

/-- FNEG (R146). -/
def execFneg (d a : Fin 128) (s : State) : Host.Outcome State Fault Refusal :=
  .next (s.f2 false d a (fun x _ => x ^^^ 0x80000000))

/-- FCPSGN (R146). -/
def execFcpsgn (d a b : Fin 128) (s : State) : Host.Outcome State Fault Refusal :=
  .next (s.f3 false d a b (fun x y _ => (x &&& 0x7FFFFFFF) ||| (y &&& 0x80000000)))

/-- FRND (R148). -/
def execFrnd (d a : Fin 128) (m : Fin 8) (s : State) : Host.Outcome State Fault Refusal :=
  .next (s.fp1 false d a (fun rm z x _ => rndEl m.val rm z x))

/-- FDIV (R146). -/
def execFdiv (d a b : Fin 128) (s : State) : Host.Outcome State Fault Refusal :=
  .next (s.fp3 true d a b (fun m z x y _ => divEl m z x y))

/-- FSQRT (R146). -/
def execFsqrt (d a : Fin 128) (s : State) : Host.Outcome State Fault Refusal :=
  .next (s.fp1 true d a (fun m z x _ => sqrtEl m z x))

/-- FSAT (R146). -/
def execFsat (d a : Fin 128) (s : State) : Host.Outcome State Fault Refusal :=
  .next (s.fp1 false d a (fun _ z x _ => satEl z x))

/-- FCLASS (R147). -/
def execFclass (d a : Fin 128) (s : State) : Host.Outcome State Fault Refusal :=
  .next (s.f2 false d a (fun x _ => BitVec.ofNat 32 (2 ^ classOf x.toNat)))

/-- FCMP (R149). -/
def execFcmp (c : Fin 8) (d a b : Fin 128) (s : State) : Host.Outcome State Fault Refusal :=
  .next (s.fpWord false d (fun x l f =>
    let r := cmpEl c.val (fpcrFz f) (s.reg x.gang l a.val).toNat (s.reg x.gang l b.val).toNat
    (truth r.1, r.2)))

/-! ### Transcendentals -/

/-- A word of major 0x1A (07 R150, R151). -/
def State.transWord (s : State) (fn : Nat) (d a : Fin 128) : State :=
  s.fpWord true d (fun x l c => transOp fn (fpcrFz c) (s.reg x.gang l a.val))

/-- FRCP (R150, R151). -/
def execFrcp (d a : Fin 128) (s : State) : Host.Outcome State Fault Refusal :=
  .next (s.transWord 0 d a)

/-- FRSQ (R150, R151). -/
def execFrsq (d a : Fin 128) (s : State) : Host.Outcome State Fault Refusal :=
  .next (s.transWord 1 d a)

/-- FEXP2 (R150, R151). -/
def execFexp2 (d a : Fin 128) (s : State) : Host.Outcome State Fault Refusal :=
  .next (s.transWord 2 d a)

/-- FLOG2 (R150, R151). -/
def execFlog2 (d a : Fin 128) (s : State) : Host.Outcome State Fault Refusal :=
  .next (s.transWord 3 d a)

/-- FSINPI (R150, R151). -/
def execFsinpi (d a : Fin 128) (s : State) : Host.Outcome State Fault Refusal :=
  .next (s.transWord 4 d a)

/-- FCOSPI (R150, R151). -/
def execFcospi (d a : Fin 128) (s : State) : Host.Outcome State Fault Refusal :=
  .next (s.transWord 5 d a)

/-- FTANH (R150, R151). -/
def execFtanh (d a : Fin 128) (s : State) : Host.Outcome State Fault Refusal :=
  .next (s.transWord 6 d a)

/-- FSIG (R150, R151). -/
def execFsig (d a : Fin 128) (s : State) : Host.Outcome State Fault Refusal :=
  .next (s.transWord 7 d a)

/-! ### Packed 16-bit arithmetic -/

/-- A packed word: the operation on the elements of each slot, and the union of their exceptions (07 R152). -/
def State.packedWord (s : State) (d a b : Fin 128) (f : RMode → Nat → Nat → Nat → Nat × FpFlags) : State :=
  s.fp3 false d a b (fun m _ x y z =>
    let lo := f m (x % 2 ^ 16) (y % 2 ^ 16) (z % 2 ^ 16)
    let hi := f m (x / 2 ^ 16) (y / 2 ^ 16) (z / 2 ^ 16)
    (hi.1 * 2 ^ 16 + lo.1, orFlags lo.2 hi.2))

/-- HADD2 (R152). -/
def execHadd2 (d a b : Fin 128) (s : State) : Host.Outcome State Fault Refusal :=
  .next (s.packedWord d a b (fun m x y _ => addEl .fp16 m false false x y))

/-- HSUB2 (R152). -/
def execHsub2 (d a b : Fin 128) (s : State) : Host.Outcome State Fault Refusal :=
  .next (s.packedWord d a b (fun m x y _ => addEl .fp16 m false true x y))

/-- HMUL2 (R152). -/
def execHmul2 (d a b : Fin 128) (s : State) : Host.Outcome State Fault Refusal :=
  .next (s.packedWord d a b (fun m x y _ => mulEl .fp16 m false x y))

/-- HFMA2 (R152). -/
def execHfma2 (d a b : Fin 128) (s : State) : Host.Outcome State Fault Refusal :=
  .next (s.packedWord d a b (fun m x y z => fmaEl .fp16 m false false false x y z))

/-- HMIN2 (R152). -/
def execHmin2 (d a b : Fin 128) (s : State) : Host.Outcome State Fault Refusal :=
  .next (s.packedWord d a b (fun _ x y _ => minMaxBits .fp16 false false x y))

/-- HMAX2 (R152). -/
def execHmax2 (d a b : Fin 128) (s : State) : Host.Outcome State Fault Refusal :=
  .next (s.packedWord d a b (fun _ x y _ => minMaxBits .fp16 true false x y))

/-- BADD2 (R152). -/
def execBadd2 (d a b : Fin 128) (s : State) : Host.Outcome State Fault Refusal :=
  .next (s.packedWord d a b (fun m x y _ => addEl .bf16 m false false x y))

/-- BSUB2 (R152). -/
def execBsub2 (d a b : Fin 128) (s : State) : Host.Outcome State Fault Refusal :=
  .next (s.packedWord d a b (fun m x y _ => addEl .bf16 m false true x y))

/-- BMUL2 (R152). -/
def execBmul2 (d a b : Fin 128) (s : State) : Host.Outcome State Fault Refusal :=
  .next (s.packedWord d a b (fun m x y _ => mulEl .bf16 m false x y))

/-- BFMA2 (R152). -/
def execBfma2 (d a b : Fin 128) (s : State) : Host.Outcome State Fault Refusal :=
  .next (s.packedWord d a b (fun m x y z => fmaEl .bf16 m false false false x y z))

/-- BMIN2 (R152). -/
def execBmin2 (d a b : Fin 128) (s : State) : Host.Outcome State Fault Refusal :=
  .next (s.packedWord d a b (fun _ x y _ => minMaxBits .bf16 false false x y))

/-- BMAX2 (R152). -/
def execBmax2 (d a b : Fin 128) (s : State) : Host.Outcome State Fault Refusal :=
  .next (s.packedWord d a b (fun _ x y _ => minMaxBits .bf16 true false x y))

/-! ### Dot products -/

/-- The exact products of slots and d, summed and rounded once (07 R154). -/
def dotEl (f : Fmt) (n : Nat) (m : RMode) (fz : Bool) (x y z : Nat) : Nat × FpFlags :=
  let w := fmtWidth f
  let el := fun (v j : Nat) => fdecode f (bits v (w * j + w - 1) (w * j))
  let as := (List.range n).map (el x)
  let bs := (List.range n).map (el y)
  let d := operand .fp32 fz z
  let ps := (as.zip bs).map (fun p => mulVal p.1 p.2)
  let r := sumTerms m (ps.map (·.1) ++ [d])
  roundOut .fp32 m fz r.1 (invalidOf (as ++ bs ++ [d]) (ps.any (·.2) || r.2))

/-- DP2H (R154). -/
def execDp2h (d a b : Fin 128) (s : State) : Host.Outcome State Fault Refusal :=
  .next (s.fp3 false d a b (fun m z x y w => dotEl .fp16 2 m z x y w))

/-- DP2B (R154). -/
def execDp2b (d a b : Fin 128) (s : State) : Host.Outcome State Fault Refusal :=
  .next (s.fp3 false d a b (fun m z x y w => dotEl .bf16 2 m z x y w))

/-- DP4E (R154). -/
def execDp4e (d a b : Fin 128) (s : State) : Host.Outcome State Fault Refusal :=
  .next (s.fp3 false d a b (fun m z x y w => dotEl .e4m3 4 m z x y w))

/-- DP4F (R154). -/
def execDp4f (d a b : Fin 128) (s : State) : Host.Outcome State Fault Refusal :=
  .next (s.fp3 false d a b (fun m z x y w => dotEl .e5m2 4 m z x y w))

/-! ### Conversions -/

/-- Bits [hi:lo] of a word replaced (07 R156, R157). -/
def putBits (v lo w x : Nat) : Nat := v - bits v (lo + w - 1) lo * 2 ^ lo + x % 2 ^ w * 2 ^ lo

/-- I2F (R155). -/
def execI2f (d a : Fin 128) (u : Fin 2) (s : State) : Host.Outcome State Fault Refusal :=
  .next (s.fp1 false d a (fun m z x _ =>
    roundOut .fp32 m z (intVal (if u.val = 0 then sext 32 x else (x : Int))) noFlags))

/-- `f2i` (07 R155). -/
def toInt (mode : Nat) (m : RMode) (fz : Bool) (x : Nat) : Nat × FpFlags :=
  let rm := if 2 ≤ mode then .rtz else m
  let r := if mode % 2 = 0 then toIntRange rm (-(2 ^ 31)) (2 ^ 31 - 1) (operand .fp32 fz x)
    else toIntRange rm 0 (2 ^ 32 - 1) (operand .fp32 fz x)
  (wrap 32 r.1, r.2)

/-- F2I (R155). -/
def execF2i (d a : Fin 128) (m : Fin 4) (s : State) : Host.Outcome State Fault Refusal :=
  .next (s.fp1 false d a (fun rm z x _ => toInt m.val rm z x))

/-- The classes of packed integers (07 R156). -/
def packClass (k : Nat) : Fmt :=
  match k with
  | 0 => .int8
  | 1 => .int4
  | 2 => .int2
  | _ => .bin1

/-- `f2n` (07 R156): the slot's bits and the exceptions. To BIN1 a NaN raises invalid alone: "inexact unless the value is
exactly +1 or -1" is read of numbers only (DEDUCED, log entry 99). -/
def toSlot (f : Fmt) (m : RMode) (v : FVal) : Nat × FpFlags :=
  match f with
  | .bin1 =>
    match v with
    | .nan _ => (0, flagInvalid)
    | .inf neg => (ofBool neg, { inexact := true })
    | .fin neg q e =>
      (ofBool (neg && q != 0), { inexact := cmpVal (.fin false q e) (.fin false 1 0) != 0 })
  | _ =>
    let w := fmtWidth f
    let r := toIntRange m (-(2 ^ (w - 1))) (2 ^ (w - 1) - 1) v
    (wrap w r.1, r.2)

/-- N2F (R156). -/
def execN2f (d a : Fin 128) (k : Fin 4) (j : Fin 32) (s : State) : Host.Outcome State Fault Refusal :=
  .next (s.f2 false d a (fun x _ =>
    let w := fmtWidth (packClass k.val)
    BitVec.ofNat 32 (fround .fp32 .rne false
      (elemVal (packClass k.val) (bits x.toNat (w * j.val + w - 1) (w * j.val)))).1))

/-- F2N (R156). -/
def execF2n (d a : Fin 128) (k : Fin 4) (j : Fin 32) (s : State) : Host.Outcome State Fault Refusal :=
  .next (s.fp1 false d a (fun m z x y =>
    let w := fmtWidth (packClass k.val)
    let r := toSlot (packClass k.val) m (operand .fp32 z x)
    (putBits y (w * j.val) w r.1, r.2)))

/-- The result of a pack (07 R157): rounded by SR with the stepped generator word when FPCR.SR is set. -/
def packEl (f : Fmt) (c seed x : Nat) : Nat × FpFlags :=
  let v := operand .fp32 (fpcrFz c) x
  if fpcrSr c then froundSr f (fpcrSat c) (srStep (BitVec.ofNat 32 seed)) v
  else fround f (fpcrRm c) (fpcrSat c) v

/-- A pack into slot j: the other slots stay; an FP6 word has bits [31:30] zero (02 R33). The generator of each lane
with SR set steps at issue, whether or not the lane traps (02 R41). -/
def State.packWord (s : State) (f : Fmt) (d a : Fin 128) (j : Nat) : State :=
  s.act fun x =>
    let t : State := s.fpWord false d (fun x l c =>
      let w := fmtWidth f
      let r := packEl f c (x.gang.lane l).seed (s.reg x.gang l a.val).toNat
      let old := (s.reg x.gang l d.val).toNat
      let v := putBits old (w * j) w r.1
      (BitVec.ofNat 32 (match f with
        | .fp6 => v % 2 ^ 30
        | _ => v), r.2))
    t.onGang x.gid (fun g => g.mapLanes x.co.mask (fun _ y =>
      if fpcrSr y.fpcr then { y with seed := (srStep (BitVec.ofNat 32 y.seed)).toNat } else y))

/-- An unpack of slot j (07 R157): exact, a NaN becomes canonical, FZ flushes a BF16 subnormal. -/
def State.unpackWord (s : State) (f : Fmt) (d a : Fin 128) (j : Nat) : State :=
  s.fpWord false d (fun x l c =>
    let w := fmtWidth f
    let e := bits (s.reg x.gang l a.val).toNat (w * j + w - 1) (w * j)
    let v := operand f (fpcrFz c && f == .bf16) e
    (BitVec.ofNat 32 (fround .fp32 .rne false v).1, invalidOf [v] false))

/-- PKH (R157). -/
def execPkh (d a : Fin 128) (j : Fin 2) (s : State) : Host.Outcome State Fault Refusal :=
  .next (s.packWord .fp16 d a j.val)

/-- UNH (R157). -/
def execUnh (d a : Fin 128) (j : Fin 2) (s : State) : Host.Outcome State Fault Refusal :=
  .next (s.unpackWord .fp16 d a j.val)

/-- PKB (R157). -/
def execPkb (d a : Fin 128) (j : Fin 2) (s : State) : Host.Outcome State Fault Refusal :=
  .next (s.packWord .bf16 d a j.val)

/-- UNB (R157). -/
def execUnb (d a : Fin 128) (j : Fin 2) (s : State) : Host.Outcome State Fault Refusal :=
  .next (s.unpackWord .bf16 d a j.val)

/-- PK8E (R157). -/
def execPk8e (d a : Fin 128) (j : Fin 4) (s : State) : Host.Outcome State Fault Refusal :=
  .next (s.packWord .e4m3 d a j.val)

/-- UN8E (R157). -/
def execUn8e (d a : Fin 128) (j : Fin 4) (s : State) : Host.Outcome State Fault Refusal :=
  .next (s.unpackWord .e4m3 d a j.val)

/-- PK8F (R157). -/
def execPk8f (d a : Fin 128) (j : Fin 4) (s : State) : Host.Outcome State Fault Refusal :=
  .next (s.packWord .e5m2 d a j.val)

/-- UN8F (R157). -/
def execUn8f (d a : Fin 128) (j : Fin 4) (s : State) : Host.Outcome State Fault Refusal :=
  .next (s.unpackWord .e5m2 d a j.val)

/-- PK6 (R157). -/
def execPk6 (d a : Fin 128) (j : Fin 8) (s : State) : Host.Outcome State Fault Refusal :=
  .next (s.packWord .fp6 d a j.val)

/-- UN6 (R157). -/
def execUn6 (d a : Fin 128) (j : Fin 8) (s : State) : Host.Outcome State Fault Refusal :=
  .next (s.unpackWord .fp6 d a j.val)

/-- PK4 (R157). -/
def execPk4 (d a : Fin 128) (j : Fin 8) (s : State) : Host.Outcome State Fault Refusal :=
  .next (s.packWord .fp4 d a j.val)

/-- UN4 (R157). -/
def execUn4 (d a : Fin 128) (j : Fin 8) (s : State) : Host.Outcome State Fault Refusal :=
  .next (s.unpackWord .fp4 d a j.val)

/-- FXF (R158). -/
def execFxf (d a : Fin 128) (q : Fin 64) (s : State) : Host.Outcome State Fault Refusal :=
  .next (s.fpWord false d (fun x l c =>
    let v := sext 64 (s.pair x.gang l a.val)
    let r := roundOut .fp32 (fpcrRm c) (fpcrFz c) (.fin (v < 0) v.natAbs (-(q.val : Int))) noFlags
    (BitVec.ofNat 32 r.1, r.2)))


end Sys2Proof.Machine
end

