-- ==== Sys2Proof/Machine/Collective.lean ====
section
/-! DEFINITION. Collectives over the cohort and the special registers (07 R159 to R165). -/
namespace Sys2Proof.Machine

/-! ### Collectives -/

/-- The contributions of the cohort's lanes, ascending: lane and V(M,a) at issue (07 R159). -/
def State.contrib (s : State) (x : Acting) (a : Fin 128) : List (Nat × Word) :=
  x.lanes.map (fun m => (m, s.reg x.gang m a.val))

/-- A collective with one value for all lanes of the cohort. -/
def State.collective (s : State) (long : Bool) (d a : Fin 128) (f : List Word → Word) : State :=
  s.laneValue long d.val (fun x _ => f ((s.contrib x a).map (·.2)))

/-- A shuffle (07 R161): the source lane's register when it belongs to the cohort, else the lane's own. -/
def State.shuffleWord (s : State) (d a : Fin 128) (src : Acting → Nat → Int) : State :=
  s.laneValue false d.val (fun x l =>
    let k := src x l
    if 0 ≤ k ∧ k < x.gang.width ∧ x.co.mask.getLsbD k.toNat then s.reg x.gang k.toNat a.val
    else s.reg x.gang l a.val)

/-- A fold over a list that is not empty. -/
def foldWords (f : Word → Word → Word) : List Word → Word
  | [] => 0
  | x :: xs => xs.foldl f x

/-- The exact sum of FP32 contributions, rounded once (07 R162). -/
def redSum (m : RMode) (fz : Bool) (xs : List Nat) : Nat × FpFlags :=
  let vs := xs.map (operand .fp32 fz)
  let r := sumTerms m vs
  roundOut .fp32 m fz r.1 (invalidOf vs r.2)

/-- minimumNumber or maximumNumber over FP32 contributions (07 R146, R162). -/
def redMinMax (isMax fz : Bool) : List Nat → Nat × FpFlags
  | [] => (0, noFlags)
  | x :: xs => xs.foldl (fun r y =>
      let t := minMaxBits .fp32 isMax fz r.1 y
      (t.1, orFlags r.2 t.2)) (minMaxBits .fp32 isMax fz x x)

/-- A floating-point collective: the leader's FPCR governs, and every lane raises the same exceptions. -/
def State.fpCollective (s : State) (d a : Fin 128) (f : RMode → Bool → List Nat → Nat × FpFlags) : State :=
  s.laneWord true (fun x l =>
    let c := (x.gang.lane x.leader).fpcr
    let r := f (fpcrRm c) (fpcrFz c) ((s.contrib x a).map (fun p => p.2.toNat))
    fpOut l c r.2 [(d.val, BitVec.ofNat 32 r.1)])

/-- LANEID (R160). -/
def execLaneid (d : Fin 128) (s : State) : Host.Outcome State Fault Refusal :=
  .next (s.laneValue false d.val (fun _ l => BitVec.ofNat 32 l))

/-- GWIDTH (R160). -/
def execGwidth (d : Fin 128) (s : State) : Host.Outcome State Fault Refusal :=
  .next (s.laneValue false d.val (fun x _ => BitVec.ofNat 32 x.gang.width))

/-- COHORT (R160). -/
def execCohort (d : Fin 128) (s : State) : Host.Outcome State Fault Refusal :=
  .next (s.pairWord d (fun x _ => x.co.mask.toNat))

/-- VANY (R160). -/
def execVany (d a : Fin 128) (s : State) : Host.Outcome State Fault Refusal :=
  .next (s.collective false d a (fun xs => truth (xs.any (· != 0))))

/-- VALL (R160). -/
def execVall (d a : Fin 128) (s : State) : Host.Outcome State Fault Refusal :=
  .next (s.collective false d a (fun xs => truth (xs.all (· != 0))))

/-- A word whose pair result is a mask of lanes, in the collective group (07 R137, R160). -/
def State.maskWord (s : State) (d : Fin 128) (f : Acting → Nat → Mask) : State :=
  s.laneWord true (fun x l => .regs (pairOut d (f x l).toNat))

/-- BALLOT (R160). -/
def execBallot (d a : Fin 128) (s : State) : Host.Outcome State Fault Refusal :=
  .next (s.maskWord d (fun x _ =>
    maskOf (((s.contrib x a).filter (fun p => p.2 != 0)).map (·.1))))

/-- MATCH (R160). -/
def execMatchEq (d a : Fin 128) (s : State) : Host.Outcome State Fault Refusal :=
  .next (s.maskWord d (fun x l =>
    maskOf (((s.contrib x a).filter (fun p => p.2 == s.reg x.gang l a.val)).map (·.1))))

/-- SHFL (R161). -/
def execShfl (d a b : Fin 128) (s : State) : Host.Outcome State Fault Refusal :=
  .next (s.shuffleWord d a (fun x l => ui (s.reg x.gang l b.val)))

/-- SHUP (R161). -/
def execShup (d a : Fin 128) (k : Fin 64) (s : State) : Host.Outcome State Fault Refusal :=
  .next (s.shuffleWord d a (fun _ l => (l : Int) - k.val))

/-- SHDN (R161). -/
def execShdn (d a : Fin 128) (k : Fin 64) (s : State) : Host.Outcome State Fault Refusal :=
  .next (s.shuffleWord d a (fun _ l => (l : Int) + k.val))

/-- SHXOR (R161). -/
def execShxor (d a : Fin 128) (k : Fin 64) (s : State) : Host.Outcome State Fault Refusal :=
  .next (s.shuffleWord d a (fun _ l => ((l ^^^ k.val : Nat) : Int)))

/-- REDADD (R160). -/
def execRedadd (d a : Fin 128) (s : State) : Host.Outcome State Fault Refusal :=
  .next (s.collective true d a (foldWords (fun x y => x + y)))

/-- REDMIN (R160). -/
def execRedmin (d a : Fin 128) (s : State) : Host.Outcome State Fault Refusal :=
  .next (s.collective true d a (foldWords (fun x y => if si y < si x then y else x)))

/-- REDMAX (R160). -/
def execRedmax (d a : Fin 128) (s : State) : Host.Outcome State Fault Refusal :=
  .next (s.collective true d a (foldWords (fun x y => if si x < si y then y else x)))

/-- BCAST (R160). -/
def execBcast (d a : Fin 128) (s : State) : Host.Outcome State Fault Refusal :=
  .next (s.collective true d a (foldWords (fun x _ => x)))

/-- REDAND (R160). -/
def execRedand (d a : Fin 128) (s : State) : Host.Outcome State Fault Refusal :=
  .next (s.collective true d a (foldWords (fun x y => x &&& y)))

/-- FREDADD (R160, R162). -/
def execFredadd (d a : Fin 128) (s : State) : Host.Outcome State Fault Refusal :=
  .next (s.fpCollective d a redSum)

/-- FREDMIN (R160, R162). -/
def execFredmin (d a : Fin 128) (s : State) : Host.Outcome State Fault Refusal :=
  .next (s.fpCollective d a (fun _ z xs => redMinMax false z xs))

/-- FREDMAX (R160, R162). -/
def execFredmax (d a : Fin 128) (s : State) : Host.Outcome State Fault Refusal :=
  .next (s.fpCollective d a (fun _ z xs => redMinMax true z xs))

/-- REDOR (R160). -/
def execRedor (d a : Fin 128) (s : State) : Host.Outcome State Fault Refusal :=
  .next (s.collective true d a (foldWords (fun x y => x ||| y)))

/-- REDXOR (R160). -/
def execRedxor (d a : Fin 128) (s : State) : Host.Outcome State Fault Refusal :=
  .next (s.collective true d a (foldWords (fun x y => x ^^^ y)))

/-! ### Special registers -/

/-- The a-cycle count that a team reads (00 R4): since its partition started, or since its lease was created. -/
def State.clk (s : State) (t : Team) : Nat :=
  match t.tenant with
  | some n => s.now - ((s.tenantOf (tkey t.lease n)).startAt).getD s.now
  | none =>
    match s.lease? t.lease with
    | some l => s.now - l.createdAt
    | none => 0

/-- PART (07 R163): the layout of VFID, with LSQ in bit 14. -/
def State.partWord (s : State) (t : Team) : Nat :=
  match t.tenant with
  | some n => (s.tenantOf (tkey t.lease n)).tag.getD 0 * 2 ^ 8 + t.lease * 2 ^ 4 + n
  | none => 2 ^ 14 + t.lease * 2 ^ 4

/-- The value of a special register for a lane, before the effect of CLKLO on the latch (07 R163, R164). A lane's
latch is zero until it first reads CLKLO, and one more than the latched word after. -/
def State.special (s : State) (x : Acting) (l id : Nat) : Nat :=
  let g := x.gang
  let t := x.team
  let ln := g.lane l
  let r : Nat → (Rec → Nat) → Nat := fun d f =>
    match s.launch? t.launch with
    | some y => f y.desc
    | none => d
  let gx := r 1 Rec.gx
  let gy := r 1 Rec.gy
  match id with
  | 0 => l
  | 1 => g.g
  | 2 => g.g * g.width + l
  | 3 => t.t % gx
  | 4 => t.t / gx % gy
  | 5 => t.t / gx / gy
  | 6 => gx
  | 7 => gy
  | 8 => r 1 Rec.gz
  | 9 => r 1 Rec.gangs * g.width
  | 10 => g.width
  | 11 => g.core
  | 12 => quadOfCore g.core
  | 13 => fieldOfCore g.core
  | 14 => s.partWord t
  | 15 => s.clk t % 2 ^ 32
  | 16 => if ln.latch = 0 then s.clk t / 2 ^ 32 else ln.latch - 1
  | 17 => r 0 Rec.frame % 2 ^ 32
  | 18 => r 0 Rec.frame / 2 ^ 32
  | 19 => if t.paired ∧ g.core ≠ t.core then 1 else 0
  | 20 =>
    match s.lease? t.lease with
    | some y => y.mapgen
    | none => 0
  | 21 => ln.fpcr
  | 22 => ln.seed
  | 23 => if r 0 (fun d => ofBool d.item) = 1 then ((s.core g.core).items.filter (fun p => p.1 == t.launch)).length else 0
  | _ => 0

/-- SREG (R163, R164). -/
def execSreg (d : Fin 128) (i : Fin 2048) (s : State) : Host.Outcome State Fault Refusal :=
  .next (s.act fun x =>
    let t : State := s.laneValue false d.val (fun x l => BitVec.ofNat 32 (s.special x l i.val))
    if i.val = 15 then
      t.onGang x.gid (fun g => g.mapLanes x.co.mask (fun _ y => { y with latch := s.clk x.team / 2 ^ 32 % 2 ^ 32 + 1 }))
    else t)

/-- SREGW (R165). -/
def execSregw (a : Fin 128) (i : Fin 2048) (s : State) : Host.Outcome State Fault Refusal :=
  .next (s.act fun x =>
    let t : State := s.issue.onGang x.gid (fun g => g.mapLanes x.co.mask (fun l y =>
      if i.val = 21 then { y with fpcr := fpcrOf (s.reg x.gang l a.val) }
      else if i.val = 22 then { y with seed := seedOf (s.reg x.gang l a.val) }
      else y))
    t.finish)


end Sys2Proof.Machine
end

