-- ==== Sys2Proof/Machine/Lines.lean ====
section
/-! DEFINITION. Lines in the caches: the copies in L1s and the fills under way, the L2 slices with their capacity and
write-backs, and the token buckets of the DRAM channels (08 R170, R191; 11 R263, R265). -/
namespace Sys2Proof.Machine

/-! ### Copies -/

/-- Fills under way that p selects install no copy. -/
def State.fillsPass (s : State) (p : Access → Bool) : State :=
  { s with accesses := s.accesses.map (fun y => (y.1,
      if y.2.phase == .fill && p y.2 then { y.2 with mode := 4 } else y.2)) }

/-- An update under way that no longer needs to reach the cores that p selects. -/
def Access.spare (x : Access) (p : Nat → Bool) : Access :=
  match x.phase with
  | .updating ts => { x with phase := match ts.filter (fun c => !p c) with
      | [] => .acked
      | us => .updating us }
  | _ => x

/-- Every copy of a line leaves the L1s and its list; updates under way have no copy left to reach, and fills under way
install none. -/
def State.dropCopies (s : State) (line : Nat) : State :=
  let s : State := s.fillsPass (fun y => lineOf y.pa == line)
  { s with
    sharers := assocErase s.sharers line
    cores := s.cores.map (fun c => (c.1, { c.2 with l1 := assocErase c.2.l1 line }))
    accesses := s.accesses.map (fun p => (p.1, if lineOf p.2.pa = line then p.2.spare (fun _ => true) else p.2)) }

/-- A core leaves a line's list and drops its copy; updates under way pass it by, and fills under way install none
(11 R265). -/
def State.spliceOut (s : State) (core line : Nat) : State :=
  let s : State := s.fillsPass (fun y => y.core == core && lineOf y.pa == line)
  let cs := (assocGet [] s.sharers line).filter (· != core)
  let s : State := { s with
    sharers := (match cs with
      | [] => assocErase s.sharers line
      | _ => assocSet s.sharers line cs)
    accesses := s.accesses.map (fun p => (p.1, if lineOf p.2.pa = line then p.2.spare (· == core) else p.2)) }
  s.onCore core (fun c => { c with l1 := assocErase c.l1 line })

/-! ### Tokens (08 R191) -/

/-- The offset in a list of extents of a wafer address. -/
def extentOffset : List (Nat × Nat) → Nat → Nat → Option Nat
  | [], _, _ => none
  | (base, size) :: rest, w, off =>
    if base ≤ w ∧ w < base + size * 2 ^ 16 then some (off + (w - base)) else extentOffset rest w (off + size * 2 ^ 16)

/-- Whether a wafer address lies in the latency matrix of a lease (04 R69): a LATMAT of 0 names none (log entry 98). -/
def State.inLatmat (s : State) (w : Nat) : Bool :=
  s.leases.any (fun l => l.2.latmat != 0 && (match extentOffset l.2.extents w 0 with
    | some la => decide (l.2.latmat ≤ la ∧ la < l.2.latmat + 16 + 2 * (l.2.rows * l.2.cols) ^ 2)
    | none => false))

/-- The tenant that owns the memory of a wafer address: the one whose memory extent holds it. -/
def State.ownerOf (s : State) (w : Nat) : Option Nat :=
  s.leases.findSome? (fun l =>
    (extentOffset l.2.extents w 0).bind (fun la =>
      ((List.range 16).find? (fun n =>
        let t := s.tenantOf (tkey l.1 n)
        decide (t.membase ≤ la ∧ la < t.membase + t.memsize))).map (tkey l.1)))

/-- The bucket of a tenant at a channel. -/
def bucketKey (ten chan : Nat) : Nat := 1024 * ten + chan

/-- The bucket that an access to DRAM at an address spends from, with its key: none where memory belongs to no tenant,
or to one with REFILL 0, which is unmetered. A full bucket is not listed. -/
def State.bucketAt (s : State) (a : Nat) : Option (Nat × Bucket) :=
  match s.ownerOf a with
  | none => none
  | some k =>
    let t := s.tenantOf k
    if t.refill = 0 then none
    else
      let key := bucketKey k (a / 2 ^ 32)
      some (key, assocGet ⟨max t.depth t.refill, 0⟩ s.buckets key)

def State.setBucket (s : State) (key : Nat) (b : Bucket) : State :=
  { s with
    buckets := assocSet s.buckets key b
    refillAt := if s.buckets.isEmpty then (s.now / 850 + 1) * 850 else s.refillAt }

/-- n tokens spent for DRAM accesses at an address by the tenant that owns it; none while its bucket is short, or owes
tokens that are served first. -/
def State.spend (s : State) (a n : Nat) : Option State :=
  match s.bucketAt a with
  | none => some s
  | some (key, b) =>
    if b.owed = 0 ∧ n ≤ b.tokens then some (s.setBucket key { b with tokens := b.tokens - n }) else none

/-- n tokens spent by a request that is served within another agent's step: what the bucket lacks it owes, and it serves
no other request before (log entry 87). -/
def State.owe (s : State) (a n : Nat) : State :=
  match s.bucketAt a with
  | none => s
  | some (key, b) => s.setBucket key ⟨b.tokens - n, b.owed + (n - b.tokens)⟩

/-- Whether no request that began to wait before one does so for tokens of the bucket that an access to DRAM at an address
spends from (08 R191): the requests of a tenant are served in their order of arrival. -/
def State.tokenTurn (s : State) (mine : Option (Nat × Nat)) (a : Nat) : Bool :=
  match s.bucketAt a with
  | none => true
  | some (k, _) =>
    let ahead := fun (h : Option (Nat × Nat)) => match h with
      | none => false
      | some (i, key) => key == k && (match mine with
        | some (j, _) => decide (i < j)
        | none => true)
    !s.accesses.any (fun p => p.2.phase == .toHome && ahead p.2.held) &&
      !s.quads.any (fun q => q.2.copies.any (fun c => c.2.stopped.isNone && ahead c.2.held))

/-- The place of a request that begins to wait for a token at an address. -/
def State.heldFor (s : State) (a : Nat) : Option (Nat × Nat) := (s.bucketAt a).map (fun b => (s.nextId, b.1))

/-- A bucket after n refills: what it owes is paid first. -/
def Bucket.refill (b : Bucket) (n refill depth : Nat) : Bucket :=
  let pay := min b.owed (n * refill)
  ⟨min (b.tokens + (n * refill - pay)) (max depth refill), b.owed - pay⟩

/-! ### L2 slices (08 R169, R170) -/

/-- The lines that a slice of 3 MiB holds. -/
def sliceLines : Nat := 49152

/-- Whether a line is in its L2 slice. -/
def State.inL2 (s : State) (line : Nat) : Bool := (assocGet? s.l2 line).isSome

/-- A line leaves its slice: every copy of it leaves the L1s first. -/
def State.leaveL2 (s : State) (line : Nat) : State :=
  let s : State := s.dropCopies line
  { s with l2 := assocErase s.l2 line }

/-- The eviction of a line from its slice: a dirty one is written back, with a token. -/
def State.evictL2 (s : State) (line : Nat) : Option State :=
  match assocGet? s.l2 line with
  | none => some s
  | some x => (if x.dirty then s.spend (64 * line) 1 else some s).map (·.leaveL2 line)

/-- The line that leaves a full slice for another, as a free choice: a pinned line stays (11 R269). -/
def State.l2Victim (s : State) (home : Nat) : Option (Nat × L2Line) :=
  if (s.l2.filter (fun p => p.2.home == home)).length < sliceLines then none
  else
    let vs := s.l2.filter (fun p => p.2.home == home && (s.pinOf p.1).isNone)
    vs[s.pick 31 (max 1 vs.length)]?

/-- A line brought into its home slice, with the token of the DRAM read that it needs; none while the request is held.
`write` says that the slice then holds bytes that the DRAM lacks, and `fixed` that the page has PLACE set. -/
def State.touchL2 (s : State) (home line : Nat) (fixed write : Bool) : Option State :=
  match assocGet? s.l2 line with
  | some x => some (if write && !x.dirty then { s with l2 := assocSet s.l2 line { x with dirty := true } } else s)
  | none =>
    match (match s.l2Victim home with
      | none => some s
      | some v => s.evictL2 v.1) with
    | none => none
    | some s => (s.spend (64 * line) 1).map (fun s => { s with l2 := assocSet s.l2 line ⟨home, write, fixed⟩ })

/-- The same for a request served within another agent's step. -/
def State.touchNow (s : State) (home line : Nat) (fixed write : Bool) : State :=
  match assocGet? s.l2 line with
  | some x => if write && !x.dirty then { s with l2 := assocSet s.l2 line { x with dirty := true } } else s
  | none =>
    let s : State := match s.l2Victim home with
      | none => s
      | some v => (if v.2.dirty then s.owe (64 * v.1) 1 else s).leaveL2 v.1
    let s : State := s.owe (64 * line) 1
    { s with l2 := assocSet s.l2 line ⟨home, write, fixed⟩ }

end Sys2Proof.Machine
end

