-- ==== Sys2Proof/Machine/Translate.lean ====
section
/-! DEFINITION. Address translation (08 R166 to R190): stages 1 and 2, the extent map, permissions and kinds, the
TLBs, and the home slice of a line. -/
namespace Sys2Proof.Machine

/-- Whose code accesses: the lease, the tenant through which it translates, its LEVEL and core (08 R174). -/
structure Ctx where
  lease : Nat
  xten : Option Nat
  level : Nat
  core : Nat
  eng : Bool := false

/-- The syndrome and cause of a translation fault (08 R182, R183). -/
structure TFault where
  cause : Nat
  synd : Nat
deriving DecidableEq, Repr

/-- The access codes of 08 R182: 0 read, 1 write, 2 fetch, 3 atomic, reduction or sacc. -/
def isWriteAcc (acc : Nat) : Bool := acc == 1 || acc == 3

/-- The cause of a reason at a stage (08 R183). -/
def faultCause (stage reason : Nat) : Nat :=
  if stage = 3 then 0x09
  else if stage = 1 then (if reason = 2 ∨ reason = 3 ∨ reason = 4 then 0x07 else 0x06)
  else if reason = 10 then 0x0A
  else if reason = 11 then 0x07
  else 0x08

def mkFault (stage lvl reason acc : Nat) (walk eng : Bool) : TFault :=
  ⟨faultCause stage reason,
    stage * 2 ^ 14 + lvl * 2 ^ 12 + reason * 2 ^ 8 + acc * 2 ^ 6 + ofBool walk * 2 ^ 5 + ofBool eng * 2 ^ 4⟩

/-! ### The extent map -/

/-- The wafer address of a lease address (08 R180): none beyond the last extent. -/
def extentAddr : List (Nat × Nat) → Nat → Option Nat
  | [], _ => none
  | (base, size) :: rest, a => if a < size * 2 ^ 16 then some (base + a) else extentAddr rest (a - size * 2 ^ 16)

def State.extents (s : State) (lease : Nat) : List (Nat × Nat) :=
  match s.lease? lease with
  | some l => l.extents
  | none => []

/-- The lease's channels: the wafer channels that hold a byte of its extents, ascending (08 R181). -/
def leaseChannels (ex : List (Nat × Nat)) : List Nat :=
  (List.range 672).filter (fun c =>
    ex.any (fun p => decide (p.2 ≠ 0 ∧ p.1 < (c + 1) * 2 ^ 32 ∧ c * 2 ^ 32 < p.1 + p.2 * 2 ^ 16)))

/-- Whether a tenant's channel mask grants the channel of a wafer address. -/
def channelGranted (ex : List (Nat × Nat)) (mask w : Nat) : Bool :=
  match findIdx (· == w / 2 ^ 32) (leaseChannels ex) with
  | some i => bit mask (i % 64)
  | none => false

/-! ### Table entries -/

/-- An entry with VLD = 1 that is malformed at its level (08 R177). DESIGN CHOICE: that includes a reserved field other than zero
in an entry with LEAF = 0, whose other fields 08 R177 calls ignored (log entry 114). -/
def entryBad (e level : Nat) : Bool :=
  if bit e 13 then
    bits e 63 48 != 0 || bits e 15 14 != 0 || (level == 1 && bits e 31 16 != 0) || (level == 2 && bits e 24 16 != 0) ||
      (level != 3 && bit e 10)
  else bits e 63 48 != 0 || bits e 15 14 != 0 || level == 3

/-- The index of an address at a table level (08 R175). -/
def tableIdx (a level : Nat) : Nat :=
  match level with
  | 1 => bits a 47 32
  | 2 => bits a 31 25
  | _ => bits a 24 16

/-- The page size of a leaf, as a power of two. -/
def pageLog (level : Nat) : Nat :=
  match level with
  | 1 => 32
  | 2 => 25
  | _ => 16

/-- The output address of a leaf (08 R175). -/
def leafOut (e level a : Nat) : Nat := bits e 47 16 * 2 ^ 16 + a % 2 ^ pageLog level

def entryKind (e : Nat) : Nat := bits e 9 8
def entryAttr (e : Nat) : Nat := bits e 7 4

/-! ### Walks -/

/-- One read of a table entry in a walk: its wafer address, its table level, its value, the attribute entry that governs
its page where one does, and whether the walk cache gave it. -/
structure WalkRead where
  addr : Nat
  level : Nat
  entry : Nat
  attr : Option Nat
  cached : Bool

/-- A walk: the entries that it reads, in order, and its outcome. -/
structure Walk (α : Type) where
  reads : List WalkRead := []
  out : Except TFault α

def Walk.bind {α β : Type} (m : Walk α) (f : α → Walk β) : Walk β :=
  match m.out with
  | .error e => ⟨m.reads, .error e⟩
  | .ok x => ⟨m.reads ++ (f x).reads, (f x).out⟩

def Walk.done {α : Type} (x : α) : Walk α := ⟨[], .ok x⟩
def Walk.fail {α : Type} (f : TFault) : Walk α := ⟨[], .error f⟩

/-- A step that reads no entry. -/
def Walk.lift {α : Type} (x : Except TFault α) : Walk α := ⟨[], x⟩

/-- The quad whose walk cache serves a context: that of its core (08 R185); a dispatcher has none. -/
def Ctx.walkQuad (c : Ctx) : Option Nat := if c.core < 21504 then some (quadOfCore c.core) else none

/-- The entry that the walk cache of a quad holds for a wafer address. -/
def Quad.walkFor (q : Quad) (ten level addr : Nat) : Option WalkEntry :=
  q.walks.find? (fun e => e.ten == ten && e.level == level && e.addr == addr)

/-- A walk's read of the entry at a wafer address (08 R184, R185): at its home, in coherence order, or the one that the
walk cache holds, as a free choice. -/
def State.readEntry (s : State) (c : Ctx) (n w level : Nat) (attr : Option Nat) : Walk (Nat × Nat) :=
  let here : Walk (Nat × Nat) := ⟨[⟨w, level, s.hwNat w 8, attr, false⟩], .ok (s.hwNat w 8, w)⟩
  match c.walkQuad.bind (fun q => (s.quad q).walkFor (tkey c.lease n) c.level w) with
  | some e => if s.pick (2 ^ 50 + w) 2 = 1 then ⟨[⟨w, level, e.entry, attr, true⟩], .ok (e.entry, w)⟩ else here
  | none => here

/-- A table walked from a level on; `read` fetches the entry at an address and a level, or faults. Answers the leaf's
value, wafer address and level. -/
def walkTable (read : Nat → Nat → Walk (Nat × Nat)) (bad : Nat → Nat → TFault) (a : Nat) :
    Nat → Nat → Nat → Walk (Nat × Nat × Nat)
  | 0, _, level => .fail (bad level 1)
  | n + 1, table, level =>
    (read (table + 8 * tableIdx a level) level).bind fun e =>
      if !bit e.1 0 then .fail (bad level 0)
      else if entryBad e.1 level then .fail (bad level 1)
      else if bit e.1 13 then .done (e.1, e.2, level)
      else walkTable read bad a n (bits e.1 47 16 * 2 ^ 16) (level + 1)

/-- The stage-2 walk of a tenant address: the leaf with its wafer address and level (08 R175, R179). Stage-2
tables lie at lease addresses. -/
def State.walk2 (s : State) (c : Ctx) (n ta acc : Nat) (walk : Bool) : Walk (Nat × Nat × Nat) :=
  let t := s.tenantOf (tkey c.lease n)
  if !bit t.s2root 0 then .fail (mkFault 2 0 14 acc walk c.eng)
  else
    walkTable
      (fun la level => match extentAddr (s.extents c.lease) la with
        | none => .fail (mkFault 3 0 9 acc walk c.eng)
        | some w => s.readEntry c n w level none)
      (fun level r => mkFault 2 level r acc walk c.eng) ta 3 (bits t.s2root 47 16 * 2 ^ 16) 1

/-- Stage-2 permission and kind (08 R183). DESIGN CHOICE: of several permissions that fail at one stage W and X come before
APP, an order that 08 R183 does not give (log entry 113). In that order: W, X, APP, KIND 3, kinds that disagree, a fetch from a
page of another kind, a plain access to a peer page. -/
def checks2 (e1 : Option Nat) (e2 l2 acc level : Nat) (peerOk eng : Bool) : Option TFault :=
  let bad := fun r => some (mkFault 2 l2 r acc false eng)
  if isWriteAcc acc && !bit e2 1 then bad 2
  else if acc == 2 && !bit e2 2 then bad 3
  else if level < 2 && !bit e2 3 then bad 4
  else if entryKind e2 == 3 then bad 5
  else if e1.any (fun e => entryKind e != entryKind e2) then bad 6
  else if acc == 2 && entryKind e2 != 0 then bad 3
  else if entryKind e2 == 2 && !peerOk then bad 10
  else none

/-- Stage-1 permission and kind, W and X before APP as at stage 2 (DESIGN CHOICE, log entry 113). -/
def checks1 (e1 l1 acc level : Nat) (eng : Bool) : Option TFault :=
  let bad := fun r => some (mkFault 1 l1 r acc false eng)
  if isWriteAcc acc && !bit e1 1 then bad 2
  else if acc == 2 && !bit e1 2 then bad 3
  else if level == 0 && !bit e1 3 then bad 4
  else if entryKind e1 == 3 then bad 5
  else none

/-- The tenant's memory extent and channels, then the lease's extents, for a kind-0 stage-2 output (08 R181). -/
def State.checkExtent (s : State) (c : Ctx) (n la acc : Nat) (walk : Bool) : Except TFault Nat :=
  let t := s.tenantOf (tkey c.lease n)
  if la < t.membase ∨ t.membase + t.memsize ≤ la then .error (mkFault 2 0 7 acc walk c.eng)
  else
    match extentAddr (s.extents c.lease) la with
    | none => .error (mkFault 3 0 9 acc walk c.eng)
    | some w =>
      if channelGranted (s.extents c.lease) t.chmask w then .ok w else .error (mkFault 2 0 8 acc walk c.eng)

/-- The wafer address of a stage-1 table entry, through stage 2 (08 R175, R183), with the attribute entry that governs
it: a table outside kind 0 has reason 6; no permission bit is tested on this walk (log entry 12). -/
def State.tableAddr (s : State) (c : Ctx) (n ta acc : Nat) : Walk (Nat × Nat) :=
  (s.walk2 c n ta acc true).bind fun x =>
    let (e2, _, l2) := x
    if entryKind e2 == 3 then .fail (mkFault 2 l2 5 acc true c.eng)
    else if entryKind e2 != 0 then .fail (mkFault 2 l2 6 acc true c.eng)
    else
      (Walk.lift (s.checkExtent c n (leafOut e2 l2 ta) acc true)).bind fun w =>
        .done (w, assocGet 0 (s.tenantOf (tkey c.lease n)).attrs (entryAttr e2))

/-- The stage-1 walk of a virtual address (08 R175, R179). -/
def State.walk1 (s : State) (c : Ctx) (n va acc : Nat) : Walk (Nat × Nat × Nat) :=
  let t := s.tenantOf (tkey c.lease n)
  if !bit t.s1root 0 then .fail (mkFault 1 0 14 acc false c.eng)
  else
    walkTable
      (fun ta level => (s.tableAddr c n ta acc).bind fun w => s.readEntry c n w.1 level (some w.2))
      (fun level r => mkFault 1 level r acc false c.eng) va 3 (bits t.s1root 47 16 * 2 ^ 16) 1

/-- A translation: where the access goes, the kind of the page, the attribute index and its entry. -/
structure Xlat where
  pa : Nat
  kind : Nat := 0
  aidx : Nat := 0
  attr : Nat := 0
  tabled : Bool := false
  leaves : Leaves := {}
deriving DecidableEq, Repr

def Xlat.mode (x : Xlat) : Nat := if x.kind = 0 then bits x.attr 3 0 else 4
def Xlat.round (x : Xlat) : Nat := bits x.attr 8 4
def Xlat.point (x : Xlat) : Nat := bits x.attr 14 9

/-- Whether the attribute entry of a page names its home field (01 R26: PLACE). -/
def Xlat.fixed (x : Xlat) : Bool := bit x.attr 15

/-- Whether the page is discarded: DISC at either stage (08 R178). -/
def Xlat.disc (x : Xlat) : Bool := bit x.leaves.e1 10 || bit x.leaves.e2 10

/-- Whether a leaf of a translation has DISC set in memory now: a revival has cleared it (08 R190). -/
def State.leavesDisc (s : State) (x : Leaves) : Bool :=
  (x.l1 != 0 && bit (s.hwNat x.a1 8) 10) || (x.l2 != 0 && bit (s.hwNat x.a2 8) 10)

/-- Whether an access reads its page as discarded: under its translation, and not revived since (08 R190). -/
def State.reads0 (s : State) (x : Xlat) : Bool := x.disc && s.leavesDisc x.leaves

/-- Whether D is set at every leaf that the translation used (08 R184). -/
def Leaves.dirty (x : Leaves) : Bool := (x.l1 == 0 || bit x.e1 12) && (x.l2 == 0 || bit x.e2 12)

/-- The leaves of an address, walked afresh; the stage-1 checks come before the stage-2 walk of the output. -/
def State.walkLeaves (s : State) (c : Ctx) (va acc : Nat) : Walk Leaves :=
  match c.xten with
  | none => .done {}
  | some n =>
    if c.level < 2 then
      (s.walk1 c n va acc).bind fun x =>
        let (e1, a1, l1) := x
        match checks1 e1 l1 acc c.level c.eng with
        | some f => .fail f
        | none =>
          (s.walk2 c n (leafOut e1 l1 va) acc false).bind fun y =>
            .done ⟨e1, a1, l1, leafOut e1 l1 va, y.1, y.2.1, y.2.2, leafOut y.1 y.2.2 (leafOut e1 l1 va)⟩
    else
      (s.walk2 c n va acc false).bind fun y => .done ⟨0, 0, 0, va, y.1, y.2.1, y.2.2, leafOut y.1 y.2.2 va⟩

def State.findLeaves (s : State) (c : Ctx) (va acc : Nat) : Except TFault Leaves := (s.walkLeaves c va acc).out

/-- What leaves give for an access within their page: permissions, kind, extents and attributes (08 R178). The latency
matrix is read-only (04 R69): a write there is not permitted, with no entry at fault (log entry 98). -/
def State.useLeaves (s : State) (c : Ctx) (n va acc : Nat) (peerOk : Bool) (x : Leaves) : Except TFault Xlat :=
  let ta := if x.l1 = 0 then va else leafOut x.e1 x.l1 va
  let la := leafOut x.e2 x.l2 ta
  match (if x.l1 = 0 then none else checks1 x.e1 x.l1 acc c.level c.eng) with
  | some f => .error f
  | none =>
    match checks2 (if x.l1 = 0 then none else some x.e1) x.e2 x.l2 acc c.level peerOk c.eng with
    | some f => .error f
    | none =>
      let idx := if c.level < 2 ∧ entryAttr x.e2 = 0 then entryAttr x.e1 else entryAttr x.e2
      let attr := assocGet 0 (s.tenantOf (tkey c.lease n)).attrs idx
      if entryKind x.e2 = 0 then
        match s.checkExtent c n la acc false with
        | .error f => .error f
        | .ok w =>
          if isWriteAcc acc && s.inLatmat w then .error (mkFault 2 0 2 acc false c.eng)
          else .ok ⟨w, 0, idx, attr, true, { x with ta := ta, la := la }⟩
      else .ok ⟨la, entryKind x.e2, idx, attr, true, { x with ta := ta, la := la }⟩

/-- A translation without a TLB (08 R174), with the entries it reads: LEVEL 3 uses the wafer address, lease code on quads
of no tenant the extent map alone. -/
def State.walk (s : State) (c : Ctx) (va acc : Nat) (peerOk : Bool) : Walk Xlat :=
  if 2 ^ 48 ≤ va then .fail (mkFault 1 0 12 acc false c.eng)
  else if c.level = 3 then .done { pa := va }
  else
    match c.xten with
    | none =>
      match extentAddr (s.extents c.lease) va with
      | none => .fail (mkFault 3 0 9 acc false c.eng)
      | some w => if isWriteAcc acc && s.inLatmat w then .fail (mkFault 2 0 2 acc false c.eng) else .done { pa := w }
    | some n => (s.walkLeaves c va acc).bind fun x => .lift (s.useLeaves c n va acc peerOk x)

def State.translate (s : State) (c : Ctx) (va acc : Nat) (peerOk : Bool) : Except TFault Xlat :=
  (s.walk c va acc peerOk).out

/-! ### TLBs -/

def TlbEntry.covers (e : TlbEntry) (ten level va : Nat) : Bool :=
  e.ten == ten && e.level == level && e.vpage == va / 2 ^ 16

/-- The TLB entry for a page, if the core holds one (08 R185). -/
def Core.tlbFor (x : Core) (ten level va : Nat) : Option TlbEntry := x.tlb.find? (·.covers ten level va)

/-- Set bits of an entry at its home, where VLD is still 1 and FRAME unchanged (08 R184). -/
def State.orEntry (s : State) (a e b : Nat) : State :=
  let now := s.hwNat a 8
  if bit now 0 && bits now 47 16 == bits e 47 16 && now ||| b != now then s.hwPut a (leBytes 8 (now ||| b)) else s

/-- The hardware's updates of AC and D at the leaves of a translation (08 R184). -/
def State.markLeaves (s : State) (x : Leaves) (write : Bool) : State :=
  let b := 2 ^ 11 + (if write then 2 ^ 12 else 0)
  let s : State := if x.l1 = 0 then s else s.orEntry x.a1 x.e1 b
  if x.l2 = 0 then s else s.orEntry x.a2 x.e2 b

/-- The entries of a TLB with one page's entry replaced; at most 256 stay (08 R185). -/
def tlbPut (t : List TlbEntry) (e : TlbEntry) (cap : Nat) : List TlbEntry :=
  (e :: t.filter (fun y => !y.covers e.ten e.level (e.vpage * 2 ^ 16))).take cap

/-! ### Homes -/

/-- Whether a logical quad names no physical quad (04 R64, R66). -/
def State.voidQuad (s : State) (q : Nat) : Bool :=
  ((assocGet {} s.fields (fieldOfQuad q)).map.getD (q / 96 % 8 * 8 + q % 96 % 8) 0) == 0

/-- The quads of a rectangle of a tenant, as wafer-logical quad numbers (20 R376, 00 R2). -/
def rectQuads (l : Lease) (r : Nat) : List Nat :=
  (List.range (bits r 23 16)).flatMap (fun i =>
    (List.range (bits r 31 24)).map (fun j =>
      96 * (l.row0 + bits r 7 0 + i) + (l.col0 + bits r 15 8 + j)))

/-- The quads of a tenant, without repeats. -/
def State.tenantQuads (s : State) (lease n : Nat) : List Nat :=
  match s.lease? lease with
  | none => []
  | some l => ((s.tenantOf (tkey lease n)).rects.flatMap (rectQuads l)).foldl addIn []

/-- The fields that hold a quad of the tenant, ascending (08 R169). -/
def State.tenantFields (s : State) (lease n : Nat) : List Nat :=
  let fs := ((s.tenantQuads lease n).filter (fun q => !s.voidQuad q)).map fieldOfQuad
  (List.range 84).filter (fun f => isIn fs f)

/-- The L2 slice of a line within its home field (08 R169). -/
def sliceOf (w : Nat) : Nat := (bits w 10 6) ^^^ (bits w 15 11) ^^^ (bits w 20 16)

/-- The home field of a wafer address: FIELD, or the interleaving, or the field of its DRAM where no attribute
entry governs the access (08 R169). -/
def State.homeField (s : State) (c : Ctx) (x : Xlat) : Nat :=
  match c.xten with
  | some n =>
    if !x.tabled then bits x.pa 41 35
    else if bit x.attr 15 then bits x.attr 22 16
    else
      let fs := s.tenantFields c.lease n
      fs.getD (x.pa / 4096 % max 1 fs.length) 0
  | none => bits x.pa 41 35

/-- The home of a wafer address as one number: 32 x field + slice. -/
def State.homeOf (s : State) (c : Ctx) (x : Xlat) : Nat := 32 * s.homeField c x + sliceOf x.pa

/-! ### Translations with their effects -/

/-- What the reads of a walk do: each that misses L2 spends a token (08 R191), and the quad's walk cache takes the
entries that are no leaves (08 R185). -/
def State.walked (s : State) (c : Ctx) (n : Nat) (rs : List WalkRead) : State :=
  let s : State := rs.foldl (fun s r =>
    if r.cached || s.inL2 (lineOf r.addr) then s
    else s.touchNow (s.homeOf c { pa := r.addr, attr := r.attr.getD 0, tabled := r.attr.isSome }) (lineOf r.addr)
      (bit (r.attr.getD 0) 15) false) s
  match c.walkQuad with
  | none => s
  | some q =>
    let es := (rs.filter (fun r => !r.cached && bit r.entry 0 && !bit r.entry 13 && !entryBad r.entry r.level)).map (fun r =>
      (⟨tkey c.lease n, c.level, r.addr, r.entry⟩ : WalkEntry))
    if es.isEmpty then s
    else s.onQuad q (fun x => { x with walks := (es.foldl (fun ws e =>
      e :: ws.filter (fun y => !(y.ten == e.ten && y.level == e.level && y.addr == e.addr))) x.walks).take 64 })

/-- A translation without a TLB, with what its walk does; the tenant counts the walk (19 R374). -/
def State.walkNow (s : State) (c : Ctx) (va acc : Nat) (peerOk : Bool) : State × Except TFault Xlat :=
  let r := s.walk c va acc peerOk
  (match c.xten with
   | some n =>
     if c.level = 3 ∨ 2 ^ 48 ≤ va then s else (s.walked c n r.reads).tally (tkey c.lease n) 5 1
   | none => s, r.out)

/-- A walk for a core's access: one that succeeds is cached in the TLB, with AC set, and D for a write (08 R184, R185). -/
def State.xlateWalk (s : State) (c : Ctx) (n va acc : Nat) (peerOk : Bool) : State × Except TFault Xlat :=
  let (s, r) := s.walkNow c va acc peerOk
  let k := tkey c.lease n
  match r with
  | .error f => (s, .error f)
  | .ok x =>
    let b := if isWriteAcc acc then 2 ^ 12 + 2 ^ 11 else 2 ^ 11
    let e : TlbEntry := ⟨k, false, c.level, va / 2 ^ 16,
      { x.leaves with e1 := x.leaves.e1 ||| b, e2 := x.leaves.e2 ||| b }⟩
    ((s.markLeaves x.leaves (isWriteAcc acc)).onCore c.core (fun y => { y with tlb := tlbPut y.tlb e 256 }), .ok x)

/-- A translation through the core's TLB. While the core holds an entry for the page, the access completes under
that entry or under a fresh walk, as a free choice (08 R185); a write through an entry whose D is clear walks again. -/
def State.xlate (s : State) (tag : Nat) (c : Ctx) (va acc : Nat) (peerOk : Bool) : State × Except TFault Xlat :=
  match c.xten with
  | none => (s, s.translate c va acc peerOk)
  | some n =>
    if c.level = 3 ∨ 2 ^ 48 ≤ va then (s, s.translate c va acc peerOk)
    else
      let k := tkey c.lease n
      match (s.core c.core).tlbFor k c.level va with
      | some e =>
        if (isWriteAcc acc && !e.leaves.dirty) || s.pick tag 2 == 0 then s.xlateWalk c n va acc peerOk
        else (s, s.useLeaves c n va acc peerOk e.leaves)
      | none => s.xlateWalk c n va acc peerOk

/-- The walk cache entries of a tenant go (17 R333). -/
def State.dropWalks (s : State) (ten : Nat) : State :=
  { s with quads := s.quads.map (fun q => (q.1, { q.2 with walks := q.2.walks.filter (fun e => e.ten != ten) })) }

/-- Drop the entries that p selects from every TLB and walk-ahead TLB. -/
def State.dropTlb (s : State) (p : TlbEntry → Bool) : State :=
  { s with
    cores := s.cores.map (fun c => (c.1, { c.2 with tlb := c.2.tlb.filter (fun e => !p e) }))
    quads := s.quads.map (fun q => (q.1, { q.2 with walkAhead := q.2.walkAhead.filter (fun e => !p e) })) }

/-! ### Fabric links (08 R381, 19 R371) -/

/-- The quad at a field-logical position of a field. -/
def fieldQuad (f lr lc : Nat) : Nat := 96 * (8 * (f / 12) + lr) + 8 * (f % 12) + lc

/-- The field-logical columns of a row in the order in which an attachment is searched from a column. -/
def searchCols (lc : Nat) : List Nat :=
  lc :: ((List.range 8).flatMap (fun i =>
    (if lc + (i + 1) < 8 then [lc + (i + 1)] else []) ++ (if i + 1 ≤ lc then [lc - (i + 1)] else [])))

/-- The field-logical rows in the order in which an attachment is searched from a row. -/
def searchRows (lr : Nat) : List Nat := searchCols lr

/-- The quad whose router serves a home slice (08 R381); none when the whole field is void. -/
def State.homeQuad (s : State) (home : Nat) : Option Nat :=
  let f := home / 32
  let k := home % 32
  let lr := k / 4
  let lc := 2 * (k % 4) + lr % 2
  (((searchRows lr).flatMap (fun r => (searchCols lc).map (fun c => fieldQuad f r c))).find? (fun q => !s.voidQuad q))

/-- The quad next to a quad: 0 row - 1, 1 col + 1, 2 row + 1, 3 col - 1. -/
def besideQuad (q d : Nat) : Option Nat :=
  match d with
  | 0 => if 96 ≤ q then some (q - 96) else none
  | 1 => if q % 96 < 95 then some (q + 1) else none
  | 2 => if q / 96 < 55 then some (q + 96) else none
  | _ => if 0 < q % 96 then some (q - 1) else none

/-- The number by which the model names the fabric link that leaves a quad in a direction (log entry 33). -/
def linkNo (q d : Nat) : Nat := 4 * q + d

/-- The same link seen from its other end. -/
def linkBack (l : Nat) : Option Nat := (besideQuad (l / 4) (l % 4)).map (fun q => linkNo q ((l % 4 + 2) % 4))

/-- Whether a link is dead: for both of its ends at once (log entry 33). -/
def State.linkDead (s : State) (l : Nat) : Bool :=
  (assocGet {} s.links l).dead || (linkBack l).any (fun k => (assocGet {} s.links k).dead)

/-- The quads that quads of a region reach in one step over live links. -/
def State.spread (s : State) (region from_ : List Nat) : List Nat :=
  from_.foldl (fun xs q => (List.range 4).foldl (fun xs d =>
    match besideQuad q d with
    | some n => if isIn region n && !s.linkDead (linkNo q d) then addIn xs n else xs
    | none => xs) xs) from_

/-- The quads over which the packets of a partition may take a detour (19 R371): a tenant's own, and those of the lease for
its service code. -/
def State.region (s : State) (part : Nat) : List Nat :=
  if isService part then
    match s.lease? (keyLease part) with
    | none => []
    | some l => (List.range l.rows).flatMap (fun i => (List.range l.cols).map (fun j => 96 * (l.row0 + i) + (l.col0 + j)))
  else s.tenantQuads (keyLease part) (keyNo part)

/-- Whether a packet of a partition finds a way between two quads over the partition's quads; a way that leaves them is taken
to exist (19 R371; log entry 34). -/
def State.connected (s : State) (part a b : Nat) : Bool :=
  if s.links.all (fun l => !l.2.dead) then true
  else
    let region := s.region part
    !isIn region a || !isIn region b || isIn ((List.range region.length).foldl (fun xs _ => s.spread region xs) [a]) b

/-- Whether an access of a core reaches a home slice. -/
def State.reaches (s : State) (part core home : Nat) : Bool :=
  match s.homeQuad home with
  | some q => s.connected part (quadOfCore core) q
  | none => true

/-- An access that leaves its quad for its home stands, as a packet, in the retry buffer of a link of that quad until its tail
is acknowledged (19 R371). Which link is a free choice among the live ones (log entry 103). -/
def State.sendPacket (s : State) (id : Nat) : State :=
  match assocGet? s.accesses id with
  | none => s
  | some x =>
    let q := quadOfCore x.core
    if x.phase != .toHome || s.homeQuad x.home == some q then s
    else
      match (List.range 4).filter (fun d => (besideQuad q d).isSome && !s.linkDead (linkNo q d)) with
      | [] => s
      | ds =>
        let k := linkNo q (ds.getD (s.pick 30 ds.length) 0)
        let y : Link := assocGet {} s.links k
        { s with links := assocSet s.links k { y with sent := y.sent ++ [id] } }

end Sys2Proof.Machine
end

