-- ==== Sys2Proof/Machine/Memory.lean ====
section
/-! DEFINITION. Global memory: race detection, pins, sum-range combines, tokens, the service of accesses at their
homes and in pinning L1s, updates of sharers, fills and acknowledgements (09 R206 to R213, 11 R255 to R282). -/
namespace Sys2Proof.Machine

def State.access? (s : State) (id : Nat) : Option Access := assocGet? s.accesses id
def State.setAccess (s : State) (id : Nat) (x : Access) : State := { s with accesses := assocSet s.accesses id x }
def State.dropAccess (s : State) (id : Nat) : State := { s with accesses := assocErase s.accesses id }

/-! ### Atomic operations -/

/-- The new value of an atomic (09 R206, R207): fn in the order add, min, max, umin, umax, and, or, xor, xchg, cas,
fadd, add64; 12 is the decrement of a wait count (12 R304). -/
def atomicNew (fn old y cmp : Nat) : Nat :=
  let o := old % 2 ^ 32
  let v := y % 2 ^ 32
  match fn with
  | 0 => (o + v) % 2 ^ 32
  | 1 => if sext 32 v < sext 32 o then v else o
  | 2 => if sext 32 o < sext 32 v then v else o
  | 3 => min o v
  | 4 => max o v
  | 5 => o &&& v
  | 6 => o ||| v
  | 7 => o ^^^ v
  | 8 => v
  | 9 => if o = cmp % 2 ^ 32 then v else o
  | 10 => (fround .fp32 .rne false (addVal .rne (fdecode .fp32 o) (fdecode .fp32 v)).1).1
  | 12 => o - 1
  | _ => (old + y) % 2 ^ 64

/-- The fn of `red.op`, in the table's order add, min, max, and, or, xor, fadd (09 R192). -/
def redFn (i : Nat) : Nat :=
  match i with
  | 0 => 0
  | 1 => 1
  | 2 => 2
  | 3 => 5
  | 4 => 6
  | 5 => 7
  | _ => 10

/-- The 32-bit words that a load of `size` bytes writes (09 R196). -/
def loadWords (size : Nat) (signed : Bool) (bs : List Byte) : List Word :=
  let v := ofLeBytes bs
  match size with
  | 1 => [if signed then word (sext 8 v) else BitVec.ofNat 32 (v % 2 ^ 8)]
  | 2 => [if signed then word (sext 16 v) else BitVec.ofNat 32 (v % 2 ^ 16)]
  | _ => (List.range (size / 4)).map (fun j => BitVec.ofNat 32 (v / 2 ^ (32 * j)))

/-! ### Races (11 R270 to R274) -/

/-- A checked access: its partition, party, gang, region and vector clock, and class: 0 load, 1 store, 2 atomic,
3 copy read, 4 copy write. -/
structure Racer where
  ten : Nat
  party : Nat
  gang : Nat
  clk : Nat
  vc : Clock
  cls : Nat
  fixed : Bool := false

def clsWrites (c : Nat) : Bool := c == 1 || c == 2 || c == 4
def clsPlain (c : Nat) : Bool := c != 2

/-- Whether a mark and an access race (11 R270). -/
def races (m : Mark) (r : Racer) : Bool :=
  m.party != r.party && m.gang != r.gang && (clsWrites m.cls || clsWrites r.cls) && (clsPlain m.cls || clsPlain r.cls) &&
    decide (assocGet 0 r.vc m.party < m.clk)

/-- The first mark of a place that an access to a word races with. -/
def State.raceWith (s : State) (place w : Nat) (r : Racer) : Option Mark :=
  s.marks.find? (fun m => m.place == place && m.word == w && races m r)

/-- Record the mark of an access; a mark of the same party, region and kind is replaced and counts as newest. -/
def State.putMark (s : State) (place w lease : Nat) (r : Racer) : State :=
  let old := fun (m : Mark) => m.place == place && m.word == w && m.party == r.party && m.clk == r.clk &&
    clsWrites m.cls == clsWrites r.cls
  let m : Mark := ⟨place, w, lease, r.ten, r.party, r.gang, r.clk, r.cls, r.fixed⟩
  State.trimMarks { s with marks := s.marks.filter (fun m => !old m) ++ [m] } place 1

/-- The race check of an access at its place: the class of the earlier access when it races, else its marks. -/
def State.raceCheck (s : State) (place a size lease : Nat) (r : Racer) : Option Nat × State :=
  if s.inLatmat a then (none, s)
  else match (wordsOf a size).findSome? (fun w => s.raceWith place w r) with
  | some m => (some (min 3 m.cls), s.onPart r.ten (fun t => { t with seen := true }))
  | none => (none, (wordsOf a size).foldl (fun s w => s.putMark place w lease r) s)

/-- Whether the attribute entry of an access names the field of its home (08 R169). -/
def Access.fixed (x : Access) : Bool := bit x.attr 15

/-- The racer of a lane's access. -/
def Access.racer (x : Access) (cls : Nat) : Racer := ⟨x.ten, x.party, x.gang, x.clk, x.vc, cls, x.fixed⟩

/-- Whether an access is checked for races (11 R255): a load, a store, an atomic or a reduction on a page of kind 0. -/
def Access.checked (x : Access) : Bool :=
  x.kind == 0 && (match x.op with
    | .load => true
    | .store => true
    | .atomic _ => true
    | .red _ => true
    | _ => false)

/-! ### Sum ranges (11 R275 to R277) -/

/-- The partial of an element: its key is twice the address, plus one for an 8-byte element. -/
def partialKey (a size : Nat) : Nat := 2 * a + ofBool (size == 8)

/-- A sum of partials added to the home element: modulo 2^32, or saturated to the FX64 range. -/
def combineOne (m : Mem) (p : Nat × Int) : Mem :=
  let a := p.1 / 2
  if p.1 % 2 = 0 then memPut m a 4 (wrap 32 (sext 32 (memNat m a 4) + p.2))
  else memPut m a 8 (wrap 64 (clampInt (-(2 ^ 63)) (2 ^ 63 - 1) (sext 64 (memNat m a 8) + p.2)))

/-- The exact sums, by element, of the partials that some cores hold for a line. -/
def State.partialSums (s : State) (line : Nat) (cores : List Nat) : List (Nat × Int) :=
  (cores.flatMap (fun c => (s.core c).partials.filter (fun p => p.1 / 128 == line))).foldl (fun m p =>
    assocSet m p.1 (assocGet 0 m p.1 + p.2.sum)) []

/-- A combine of the partials that some cores hold for a line (11 R276): a write of each element concerned. -/
def State.combineCores (s : State) (line : Nat) (cores : List Nat) : State :=
  let sums := s.partialSums line cores
  let s : State := { s with
    cores := s.cores.map (fun c => (c.1, if isIn cores c.1 then
      { c.2 with partials := c.2.partials.filter (fun p => p.1 / 128 != line) } else c.2))
    holders := match (assocGet [] s.holders line).filter (fun c => !isIn cores c) with
      | [] => assocErase s.holders line
      | cs => assocSet s.holders line cs }
  if sums.isEmpty then s
  else
    State.fireMonitors { s.keepLine line with
      mem := sums.foldl combineOne s.mem
      syncs := sums.foldl (fun ss p => (wordsOf (p.1 / 2) (if p.1 % 2 = 0 then 4 else 8)).foldl (fun ss w =>
        syncWrite ss w false []) ss) s.syncs
      l2 := match assocGet? s.l2 line with
        | some x => assocSet s.l2 line { x with dirty := true }
        | none => s.l2 } line

/-- A combine of every partial of a line (11 R276). -/
def State.combine (s : State) (line : Nat) : State := s.combineCores line (assocGet [] s.holders line)

/-! ### Room in an L1 (08 R170) -/

/-- The lines of an L1: its copies, its pinned lines, and the lines of its partials, which stand together. -/
def Core.lines (c : Core) : Nat :=
  c.l1.length + c.pins.length +
    (c.partials.foldl (fun (r : Nat × Nat) p => if r.2 = p.1 / 128 + 1 then r else (r.1 + 1, p.1 / 128 + 1)) (0, 0)).1

/-- Whether an L1 of 2,048 lines holds a line, or has room for it. -/
def State.hasRoom (s : State) (core line : Nat) : Bool :=
  let c := s.core core
  (assocGet? c.l1 line).isSome || (assocGet? c.pins line).isSome || c.partials.any (fun p => p.1 / 128 == line) ||
    decide (c.lines < 2048)

/-- Something begins to leave a full L1, as a free choice: a line's partials are combined at the home, or a copy leaves
its list (11 R265, R276). A copy that is leaving already is enough. -/
def State.makeRoom (s : State) (core : Nat) : State :=
  let c := s.core core
  if c.l1.any (fun l => l.2.leaving) then s
  else
    let vs := c.partials.map (fun p => (p.1 / 128, true)) ++ c.l1.map (fun l => (l.1, false))
    match vs[s.pick 32 (max 1 vs.length)]? with
    | some (line, true) => s.combineCores line [core]
    | some (line, false) => s.onCore core (fun c => { c with l1 := match assocGet? c.l1 line with
        | some y => assocSet c.l1 line { y with leaving := true }
        | none => c.l1 })
    | none => s

/-- The same within another agent's step: the copy has left. -/
def State.roomNow (s : State) (core line : Nat) : State :=
  if s.hasRoom core line then s
  else
    let s : State := s.makeRoom core
    match (s.core core).l1.find? (fun l => l.2.leaving) with
    | some l => if s.hasRoom core line then s else s.spliceOut core l.1
    | none => s

/-- A sacc on a sum-range page (11 R275): into the core's partial, with its registration in the holder set. -/
def State.addPartial (s : State) (core pa size ten aidx : Nat) (v : Int) : State :=
  let k := partialKey pa size
  let s : State := (s.roomNow core (lineOf pa)).onCore core (fun c => { c with
    partials := assocSet c.partials k ⟨(match assocGet? c.partials k with
      | some p => p.sum
      | none => 0) + v, ten, aidx⟩ })
  { s with holders := assocSet s.holders (lineOf pa) (addIn (assocGet [] s.holders (lineOf pa)) core) }

/-! ### Pins (11 R267 to R269) -/

/-- A line is pinned to a core for a team (11 R267), and its marks pass to that core. -/
def State.pinLine (s : State) (core : Nat) (x : Access) : State :=
  let line := lineOf x.pa
  let s : State := (s.dropCopies line).onCore core (fun c => { c with
    pins := assocSet c.pins line ⟨x.team, memRead s.mem (64 * line) 64, x.home, x.ten, x.aidx, x.fixed⟩ })
  s.moveMarks line (fun p => decide (p < 100000)) (pinPlace core)

/-! ### Decisions of precise accesses (09 R195, R197) -/

/-- Run an operation of the acting cohort for another cohort. -/
def State.asCohort (s : State) (gid cid : Nat) (f : State → State) : State :=
  let s' : State := f { s with cur := (gid, cid) }
  { s' with cur := s.cur }

/-- A cohort that waits at its word goes on once every access of it is decided. -/
def State.settleHold (s : State) (gid cid : Nat) : State :=
  if s.accesses.any (fun p => p.2.precise && p.2.gang == gid && p.2.cohort == cid) then s
  else
    match s.gang? gid with
    | none => s
    | some g =>
      match assocGet? g.cohorts cid with
      | none => s
      | some c => if c.hold then s.asCohort gid cid State.finish else s

/-- An access of a lane is decided: its cohort need not wait for it. -/
def State.decided (s : State) (id : Nat) (x : Access) : State :=
  (s.setAccess id { x with precise := false }).settleHold x.gang x.cohort

/-- Outstanding results receive their values (06 R114). -/
def fillResults (rs : List (Nat × Pending)) (vs : List (Nat × Word)) : List (Nat × Pending) :=
  rs.map (fun r => (r.1, match assocGet? vs r.1 with
    | some v => { r.2 with val := some v }
    | none => r.2))

def State.supply (s : State) (gid : Nat) (ids : List Nat) (vs : List Word) : State :=
  s.onGang gid (fun g => { g with results := fillResults g.results (ids.zip vs) })

/-- Outstanding results that will not be written: the lane trapped (06 R114). -/
def State.cancelResults (s : State) (gid : Nat) (ids : List Nat) : State :=
  s.onGang gid (fun g => { g with results := g.results.filter (fun r => !isIn ids r.1) })

/-- An access is refused for good: a load or atomic traps at its word and writes nothing (09 R195); a store or
reduction is not performed and is reported (09 R200). -/
def State.failAccess (s : State) (id : Nat) (x : Access) (i : TrapInfo) (synd : Nat) : State :=
  match x.op with
  | .store => s.setAccess id { x with phase := .faulted i.cause synd }
  | .red _ => s.setAccess id { x with phase := .faulted i.cause synd }
  | .sacc _ => s.setAccess id { x with phase := .faulted i.cause synd }
  | .prefetch => s.dropAccess id
  | .fillL2 => s.dropAccess id
  | .armed => s.dropAccess id
  | _ =>
    let s : State := (s.dropAccess id).cancelResults x.gang x.dst
    let s : State := s.asCohort x.gang x.cohort (fun s => s.trap (maskOf [x.lane]) i)
    s.settleHold x.gang x.cohort

/-- The access code of an operation in a syndrome (08 R182). -/
def AccOp.acc : AccOp → Nat
  | .store => 1
  | .atomic _ => 3
  | .red _ => 3
  | .sacc _ => 3
  | _ => 0

/-- A refusal by a pin: a retry after 64 enabled cycles, and 0x0D at the 16,384th (09 R197, 11 R267). -/
def State.refuse (s : State) (id : Nat) (x : Access) : State :=
  if x.refusals + 1 < 16384 then
    s.setAccess id { x with refusals := x.refusals + 1, nextTry := s.enabled x.core + 64 }
  else
    s.failAccess id x { cause := 0x0D, tinfo := x.op.acc * 2 ^ 6, taddr := x.va } (x.op.acc * 2 ^ 6)

/-! ### Service of an access at its place of execution -/

/-- The view of a round region that a core or a home slice holds (11 R278). -/
def viewKeyCore (core k : Nat) : Nat := 32 * core + k
def viewKeyHome (home k : Nat) : Nat := 32 * (30000 + home) + k

def Tenant.view (t : Tenant) (key : Nat) : Nat := assocGet 0 t.views key

/-- A lane keeps what the value it read was released with for a later fence, and an acquiring one takes it at once
(11 R258). -/
def State.takeSyncs (s : State) (x : Access) (ss : List Sync) : State :=
  if ss.isEmpty || !x.op.counts then s
  else
    s.onGang x.gang (fun g => g.mapLanes (maskOf [x.lane]) (fun _ y =>
      { y with
        vc := if x.ord % 2 = 1 then clockJoin y.vc (syncsFor ss x.scope x.team (fieldOfCore x.core) x.ten) else y.vc
        readSyncs := joinSyncs y.readSyncs ss }))

/-- The words of an access; those of host memory stand apart. -/
def Access.words (x : Access) : List Nat := wordsOf (if x.kind = 1 then 2 ^ 80 + x.pa else x.pa) x.size

/-- What the words of an access were released with at its place of execution. -/
def State.syncsAt (s : State) (x : Access) : List Sync := (nowsOf s.syncs x.words).flatMap (·.2)

/-- A write carries releases on, or begins its own, word by word. -/
def State.writeSync (s : State) (x : Access) : State :=
  { s with syncs := x.words.foldl (fun ss w => syncWrite ss w (x.op.cls == 2) x.pubs) s.syncs }

/-- What an access does to bytes: the new bytes, none when nothing is written, and the value it returns. A cas that fails
and the decrement of a wait count that is zero write nothing (09 R206, 12 R304). -/
def Access.effect (x : Access) (old : List Byte) : Option (List Byte) × List Byte :=
  match x.op with
  | .store => (some x.data, [])
  | .atomic fn =>
    (if (fn = 9 ∧ ofLeBytes old ≠ x.cmp) ∨ (fn = 12 ∧ ofLeBytes old = 0) then none
     else some (leBytes x.size (atomicNew fn (ofLeBytes old) (ofLeBytes x.data) x.cmp)), old)
  | .red fn => (some (leBytes x.size (atomicNew fn (ofLeBytes old) (ofLeBytes x.data) x.cmp)), [])
  | _ => (none, old)

/-- A release of field scope or wider that has taken effect dissolves its team's pins (11 R268). -/
def State.afterRelease (s : State) (x : Access) : State :=
  if 2 ≤ x.ord then s.releasePins x.team x.core x.scope x.vc else s

/-! ### Stores of one word to the same bytes (09 R199, R200) -/

/-- Whether two accesses are stores of one word to the same bytes: their lanes' values exclude each other. -/
def Access.rivals (x y : Access) : Bool :=
  x.op == .store && y.op == .store && x.gang == y.gang && x.wseq == y.wseq && x.kind == y.kind && x.pa == y.pa

/-- Whether the word of a store has lanes that have not issued. -/
def State.issuing (s : State) (x : Access) : Bool :=
  match (s.gang? x.gang).bind (fun g => assocGet? g.cohorts x.cohort) with
  | none => false
  | some c => c.done.getLsbD x.lane && (c.mask &&& ~~~c.done) != 0 && (⟨c.hdr, c.idx⟩ : Pc) == x.pc && c.repIdx == x.rep

/-- Whether a store must wait to learn whether a higher lane of its word writes its bytes. -/
def State.outranked (s : State) (x : Access) : Bool :=
  s.issuing x || s.accesses.any (fun p => x.rivals p.2 && decide (x.lane < p.2.lane) && !p.2.hidden && (match p.2.phase with
    | .toHome => true
    | .reviving => true
    | .behind => true
    | .host => true
    | _ => false))

/-- A store writes: the values of the lower lanes of its word for the same bytes are never observed. -/
def State.hideBelow (s : State) (x : Access) : State :=
  if x.op == .store then
    { s with accesses := s.accesses.map (fun p => (p.1,
        if x.rivals p.2 && decide (p.2.lane < x.lane) then
          { p.2 with hidden := true, phase := if p.2.phase == .behind then .acked else p.2.phase }
        else p.2)) }
  else s

/-! ### Service of an access at its place of execution -/

/-- The decrement of a wait count keeps the value that it found, on which its lane's next step depends (12 R304). -/
def AccOp.joins (op : AccOp) : Bool := op == .atomic 12

/-- An access that its place has executed, and that is performed at every scope. -/
def State.executed (s : State) (id : Nat) (x : Access) (found : List Byte) : State :=
  let s : State := s.decided id x
  if x.op.joins then s.setAccess id { x with precise := false, phase := .acked, old := found, applied := s.nextId }
  else s.dropAccess id

/-- An access is executed in the L1 that holds its line pinned; it is performed at every scope at once
(11 R264, R267). -/
def State.serveAtPin (s : State) (id core : Nat) (p : Pin) (x : Access) : State :=
  let line := lineOf x.pa
  let off := x.pa % 64
  let (nb, ret) := x.effect ((p.data.drop off).take x.size)
  let s : State := if x.op.late then s else s.takeSyncs x (s.syncsAt x)
  let s : State := match nb with
    | none => s
    | some bs =>
      ((((s.keepLine line).onCore core (fun c => { c with pins := assocSet c.pins line { p with data := patchLine p.data off bs } })).writeSync
        x).firePinned line p.team).hideBelow x
  let s : State := s.supply x.gang x.dst (loadWords x.size x.signed ret)
  (s.executed id x ret).afterRelease x

/-- Whether a fill of a line is on its way to a core, and will install a copy. -/
def State.fillTo (s : State) (core line : Nat) : Bool :=
  s.accesses.any (fun p => p.2.phase == .fill && p.2.core == core && lineOf p.2.pa == line && p.2.mode != 4)

/-- Whether a core holds a copy of a line, or will by a fill that is on its way. -/
def State.copyAt (s : State) (core line : Nat) : Bool :=
  (assocGet? (s.core core).l1 line).isSome || s.fillTo core line

/-- The sharers that an applied write must still reach: the list of a coherent line, the storer's own copy in a
round region, none otherwise (11 R264, R279). -/
def State.updateTargets (s : State) (x : Access) : List Nat :=
  if x.mode = 0 ∨ x.mode = 5 then assocGet [] s.sharers (lineOf x.pa)
  else if x.mode = 1 ∧ s.copyAt x.core (lineOf x.pa) then [x.core]
  else []

/-- The same for an atomic that writes nothing: the value it read must reach the copy of its own core (09 R208). -/
def State.echoTargets (s : State) (x : Access) : List Nat :=
  if (x.mode = 0 ∨ x.mode = 1 ∨ x.mode = 5) ∧ s.copyAt x.core (lineOf x.pa) then [x.core] else []

/-- The phase of an access whose value must still reach these cores. -/
def updatePhase : List Nat → Phase
  | [] => .acked
  | ts => .updating ts

/-- The next place in the order in which homes serve accesses (11 R265). -/
def State.stamped (s : State) : State := { s with nextId := s.nextId + 1 }

/-- A read of a discarded page: zero, without memory or a copy (08 R190). -/
def State.serveZero (s : State) (id : Nat) (x : Access) : State :=
  s.stamped.decided id { x with phase := .fill, data := List.replicate x.size 0, mode := 4, applied := s.nextId }

/-- A read is served at the home (11 R263, R279, R280): its core joins the line's list, and the fill carries the line. -/
def State.serveFill (s : State) (id : Nat) (x : Access) : State :=
  let line := lineOf x.pa
  let s : State := s.takeSyncs x (s.syncsAt x)
  let join := (x.mode = 0 ∨ x.mode = 5) ∧ !isIn (assocGet [] s.sharers line) x.core
  let s : State := if join then
      { s with sharers := assocSet s.sharers line (x.core :: assocGet [] s.sharers line) }
    else s
  s.stamped.decided id { x with
    phase := .fill, data := memRead s.mem x.pa x.size, old := memRead s.mem (64 * line) 64, applied := s.nextId,
    stamp := (s.tenantOf x.ten).view (viewKeyHome x.home (bits x.attr 8 4)),
    nows := nowsOf s.syncs ((List.range 16).map (fun i => 16 * line + i)) }

/-- An access is executed at its home (11 R263, R264, R279, R280). -/
def State.serveAtHome (s : State) (id : Nat) (x : Access) : State :=
  let line := lineOf x.pa
  let s : State := if x.mode = 2 ∨ x.mode = 3 then s.combine line else s
  let (nb, ret) := x.effect (memRead s.mem x.pa x.size)
  if x.op.cls = 0 then s.serveFill id x
  else
    let s : State := if x.op.late then s else s.takeSyncs x (s.syncsAt x)
    let s : State := s.supply x.gang x.dst (loadWords x.size x.signed ret)
    match nb with
    | some bs =>
      let targets := s.updateTargets x
      let s : State := ((((State.touchNow { s.keepLine line with mem := memWrite s.mem x.pa bs } x.home line x.fixed true).writeSync
        x).hideBelow x).fireMonitors line)
      (s.stamped.decided id { x with
        data := bs, old := ret, applied := s.nextId, nows := nowsOf s.syncs x.words, phase := updatePhase targets }).afterRelease x
    | none =>
      (s.stamped.decided id { x with
        data := ret, old := ret, applied := s.nextId, nows := nowsOf s.syncs x.words, phase := updatePhase (s.echoTargets x) }).afterRelease x

/-! ### Discarded pages (08 R190) -/

/-- Whether an access writes memory, for the purposes of a discarded page. -/
def Access.writes (x : Access) : Bool := x.op.cls != 0

/-- DISC is cleared at the leaves that have it set, stage 1 first, with AC and D set; none when neither has. -/
def State.clearDisc (s : State) (x : Leaves) : Option State :=
  let fix := fun (s : State) (l a : Nat) =>
    if l != 0 && bit (s.hwNat a 8) 10 then s.hwPut a (leBytes 8 ((s.hwNat a 8 - 2 ^ 10) ||| (2 ^ 11 + 2 ^ 12))) else s
  if s.leavesDisc x then some (fix (fix s x.l1 x.a1) x.l2 x.a2) else none

/-- The first write to a discarded page revives it: true when the access must wait for the fill. -/
def State.reviveAt (s : State) (pa : Nat) (writes disc : Bool) (x : Leaves) : Bool × State :=
  let page := pa / 2 ^ 16
  if isIn s.fills page then (true, s)
  else if !writes || !disc then (false, s)
  else
    match s.clearDisc x with
    | some s => (true, { s with fills := addIn s.fills page })
    | none => (false, s)

def State.revive (s : State) (x : Access) : Bool × State := s.reviveAt x.pa x.writes x.disc x.leaves

/-- The monitors of the lines of a page fire. -/
def State.firePage (s : State) (page : Nat) : State :=
  ((s.monRegs.filter (fun r => r.line / 1024 == page)).map (·.line)).dedup.foldl State.fireMonitors s

/-- The fill of a page has ended: 64 KiB of zeros without an error, a write of each word that releases nothing
(11 R258, R262), and the accesses that waited go on. -/
def State.endFill (s : State) (page : Nat) : State :=
  State.firePage { s with
    mem := s.mem.filter (fun p => p.1 / 2 ^ 16 != page)
    versions := s.versions.map (fun v => (v.1, if v.1 / 1024 = page then [] else v.2))
    badLines := s.badLines.filter (fun l => l / 1024 != page)
    syncs := s.syncs.map (fun w => (w.1, if w.1 / 2 ^ 14 = page then { w.2 with now := [] } else w.2))
    fills := s.fills.filter (· != page)
    accesses := s.accesses.map (fun p => (p.1,
      if p.2.phase == .reviving && p.2.pa / 2 ^ 16 == page then { p.2 with phase := .toHome, disc := false }
      else p.2)) } page

/-! ### Order of accesses -/

/-- Whether an access has not been served at its place of execution. -/
def Access.unserved (x : Access) : Bool :=
  match x.phase with
  | .atCore => true
  | .toHome => true
  | .behind => true
  | .reviving => true
  | _ => false

/-- Whether two accesses touch a common aligned word. -/
def Access.overlaps (x y : Access) : Bool :=
  x.kind == y.kind && decide (x.pa / 4 ≤ (y.pa + y.size - 1) / 4 ∧ y.pa / 4 ≤ (x.pa + x.size - 1) / 4)

def Access.sameLane (x y : Access) : Bool := x.gang == y.gang && x.lane == y.lane

/-- Whether every access of a lane before another has taken effect at a scope. -/
def State.earlierDone (s : State) (gid l id scope : Nat) (paired : Bool) : Bool :=
  s.accesses.all (fun p => !(p.2.gang == gid && p.2.lane == l && decide (p.1 < id)) || !p.2.op.counts ||
    p.2.performedAt scope paired)

/-- Whether a release access may take effect: every earlier access of its lane has, at its scope. -/
def State.releaseReady (s : State) (id : Nat) (x : Access) : Bool :=
  x.ord < 2 || s.earlierDone x.gang x.lane id x.scope (s.pairedTeam x.team)

/-- Whether an earlier access of the same lane to a common word has not been executed yet (09 R214). -/
def State.laneWaits (s : State) (id : Nat) (x : Access) : Bool :=
  s.accesses.any (fun p => decide (p.1 < id) && x.sameLane p.2 && x.overlaps p.2 && (match p.2.phase with
    | .atCore => true
    | .toHome => true
    | .reviving => true
    | .behind => true
    | .host => true
    | _ => false))

/-- Whether an access that is on its way may arrive: it keeps its place behind earlier messages of its core to the
home and behind earlier accesses of its lane to the same word, and a refused one waits for its retry. The lanes of
one atomic or load are in no promised order (09 R206). -/
def State.mayArrive (s : State) (id : Nat) (x : Access) : Bool :=
  x.phase == .toHome && s.releaseReady id x && decide (x.nextTry ≤ s.enabled x.core) && !s.laneWaits id x &&
    s.accesses.all (fun p => !(decide (p.1 < id) && p.2.phase == .toHome &&
      !(p.2.gang == x.gang && p.2.wseq == x.wseq && p.2.lane != x.lane && p.2.op != .store) &&
      p.2.core == x.core && p.2.home == x.home && p.2.refusals == 0 && s.releaseReady p.1 p.2))

/-- Whether a team-scope atomic pins its line (11 R267, R269): that of a team that is stopped or gone does not. -/
def State.pinsLine (s : State) (x : Access) (holder : Nat) : Bool :=
  x.op.cls == 2 && x.scope == 0 && (x.mode == 0 || x.mode == 5) && decide ((s.core holder).pins.length < 64) &&
    (match s.team? x.team with
     | some t => t.placed && !t.halted
     | none => false)

/-- The core in which a team's lines are pinned: that of its gang 0 (11 R267). -/
def State.holderOf (s : State) (x : Access) : Nat :=
  match s.team? x.team with
  | some t => t.core
  | none => x.core

/-! ### Arrival -/

/-- An access that its place has checked is executed there: a store whose bytes a higher lane writes, or may write, is
performed without writing, or waits (09 R199). -/
def State.execute (s : State) (id : Nat) (x : Access) : State :=
  if x.hidden then s.setAccess id { x with phase := .acked, applied := s.nextId }
  else if x.op == .store && s.outranked x then s.setAccess id { x with phase := .behind }
  else
    match s.pinOf (lineOf x.pa) with
    | some (c, p) => s.serveAtPin id c p x
    | none => s.serveAtHome id x

/-- The race check of an access at a place (11 R271), and its execution when it does not race. -/
def State.checkThen (s : State) (id : Nat) (x : Access) (place : Nat) (k : State → State) : State :=
  if x.checked then
    match s.raceCheck place x.pa x.size x.lease (x.racer x.op.cls) with
    | (some c, s) => s.failAccess id x { cause := 0x0C, tinfo := c, taddr := x.va } 0
    | (none, s) => k s
  else k s

/-- An access is held for tokens, behind those that are held already. -/
def State.holdForToken (s : State) (id : Nat) (x : Access) : State :=
  if x.held.isSome then s else State.setAccess { s with nextId := s.nextId + 1 } id { x with held := s.heldFor x.pa }

/-- An access reaches its place of execution: the pin refuses it or executes it, or the home does, after the
revival of a discarded page, the token of a DRAM access and the race check. -/
def State.serve (s : State) (id : Nat) (x : Access) : State :=
  let line := lineOf x.pa
  match s.pinOf line with
  | some (c, p) =>
    if p.team = x.team then s.checkThen id x (pinPlace c) (·.execute id x) else s.refuse id x
  | none =>
    if !x.writes && x.disc && s.leavesDisc x.leaves then s.checkThen id x x.home (·.serveZero id x)
    else
      match s.revive x with
      | (true, s) => s.setAccess id { x with phase := .reviving }
      | (false, s) =>
        match x.op with
        | .sacc v => (s.dropAccess id).addPartial x.core x.pa x.size x.ten x.aidx v
        | _ =>
          match (if s.inL2 line || s.tokenTurn x.held x.pa then s.touchL2 x.home line x.fixed false else none) with
          | none => s.holdForToken id x
          | some s =>
            if x.op == .fillL2 then s.dropAccess id
            else if s.pinsLine x (s.holderOf x) then
              if s.hasRoom (s.holderOf x) line then
                s.checkThen id x x.home (fun s => (s.pinLine (s.holderOf x) x).execute id x)
              else s.makeRoom (s.holderOf x)
            else s.checkThen id x x.home (·.execute id x)

/-- A store that waited for the higher lanes of its word goes on, unless another team has pinned its line since. -/
def State.mayFollow (s : State) (x : Access) : Bool :=
  x.phase == .behind && !s.outranked x && (match s.pinOf (lineOf x.pa) with
    | some (_, p) => p.team == x.team
    | none => true)

def State.follow (s : State) (id : Nat) (x : Access) : State := if s.mayFollow x then s.execute id x else s

/-! ### Loads and atomics in their core -/

/-- Whether the bytes of a load are pending in its core: a write of the core to them has not come back
(11 R264). -/
def Access.pendsIn (x : Access) (core : Nat) : Bool :=
  x.kind == 0 && x.core == core && (match x.phase with
    | .toHome => true
    | .reviving => true
    | .behind => true
    | .updating cs => isIn cs core
    | _ => false)

def State.bytesPending (s : State) (id : Nat) (x : Access) : Bool :=
  s.accesses.any (fun p => decide (p.1 < id) && p.2.op.cls != 0 && p.2.pendsIn x.core &&
    decide (p.2.pa < x.pa + x.size ∧ x.pa < p.2.pa + p.2.size))

/-- Whether an access leaves its line pending in its core until its value has arrived there (09 R208, R210). -/
def AccOp.marksLine : AccOp → Bool
  | .atomic _ => true
  | .red _ => true
  | .armed => true
  | _ => false

/-- Whether the line of an access is pending in its core by an atomic or a reduction, of its own lane where `own` is set
(09 R208). -/
def State.linePending (s : State) (id : Nat) (x : Access) (own : Bool) : Bool :=
  s.accesses.any (fun p => decide (p.1 < id) && p.2.op.marksLine && p.2.pendsIn x.core &&
    lineOf p.2.pa == lineOf x.pa && (!own || x.sameLane p.2))

/-- Whether an earlier read of the lane of a word of an access is on its way back (09 R214). -/
def State.readPending (s : State) (id : Nat) (x : Access) : Bool :=
  s.accesses.any (fun p => decide (p.1 < id) && x.sameLane p.2 && x.overlaps p.2 && p.2.phase == .fill && p.2.op.counts)

/-- What a core makes of a load: the bytes at once, with the place that checks them for races and what they were released
with; a wait; a message to the home; or the trap of a bounded load. -/
inductive LoadTry where
  | hit (place : Nat) (bytes : List Byte) (syncs : List Sync)
  | wait
  | home
  | stale
deriving DecidableEq, Repr

/-- Whether a load reads its page as discarded now (08 R190). -/
def State.readsZero (s : State) (x : Access) : Bool := x.disc && s.leavesDisc x.leaves

/-- Whether the value of a load is pending in its core, where a copy is or is on its way: by an atomic of its lane, or by a
write of its core to its bytes (09 R208, 11 R264). -/
def State.valuePending (s : State) (id : Nat) (x : Access) : Bool :=
  s.copyAt x.core (lineOf x.pa) && (s.linePending id x true || s.bytesPending id x)

/-- A bounded load of a round region waits for its own core's writes of its bytes and its lane's atomic to its line
(09 R208, 11 R264); then it hits on a copy that is fresh enough, in a line that no atomic leaves pending; else its mode
decides (09 R201; log entry 79). -/
def State.tryBounded (s : State) (id : Nat) (x : Access) (view : Nat) : LoadTry :=
  let miss : LoadTry := if x.trapMode then .stale else .home
  if s.valuePending id x then .wait
  else if s.linePending id x false then miss
  else
    match assocGet? (s.core x.core).l1 (lineOf x.pa) with
    | none => miss
    | some l =>
      if !l.leaving && decide (view - x.bound ≤ l.stamp) then
        .hit x.home ((l.data.drop (x.pa % 64)).take x.size) (x.words.flatMap (fun w => assocGet [] l.syncs w))
      else miss

/-- Whether an update that must still reach the core of a load carries a write of its bytes that happens before the load
(11 R259, 12 R306). -/
def State.updateDue (s : State) (x : Access) : Bool :=
  s.accesses.any (fun p => (match p.2.phase with
      | .updating cs => isIn cs x.core
      | _ => false) && Clock.after x.vc p.2.party p.2.clk && p.2.op.cls != 0 && p.2.kind == 0 &&
    decide (p.2.pa < x.pa + x.size ∧ x.pa < p.2.pa + p.2.size))

/-- A load of a coherent page hits on its core's copy, once nothing of it is pending there (09 R196, R208; 11 R264) and
every write that happens before it has reached the copy. -/
def State.tryCopy (s : State) (id : Nat) (x : Access) : LoadTry :=
  if s.valuePending id x then .wait
  else
  match assocGet? (s.core x.core).l1 (lineOf x.pa) with
  | none => .home
  | some l =>
    if s.updateDue x then .wait
    else if l.leaving then .home
    else .hit x.home ((l.data.drop (x.pa % 64)).take x.size)
      (x.words.flatMap (fun w => assocGet [] l.syncs w))

/-- A load at its core (09 R196, R201; 11 R264, R267): zero for a discarded page, the pin of its own team, a valid copy, or
a message. -/
def State.tryLoad (s : State) (id : Nat) (x : Access) : LoadTry :=
  if s.readPending id x then .wait
  else if x.kind = 1 then
    if s.readsZero x && !s.laneWaits id x then .hit x.home (List.replicate x.size 0) [] else .home
  else
    match s.pinOf (lineOf x.pa) with
    | some (c, p) =>
      if p.team = x.team ∧ !s.bytesPending id x then
        .hit (pinPlace c) ((p.data.drop (x.pa % 64)).take x.size) (s.syncsAt x)
      else .home
    | none =>
      if s.readsZero x then (if s.bytesPending id x then .home else .hit x.home (List.replicate x.size 0) [])
      else if x.mode = 0 ∨ x.mode = 5 then s.tryCopy id x
      else
        match x.op with
        | .bounded view => if x.mode = 1 then s.tryBounded id x view else .home
        | _ => .home

/-- A load that its core serves: its race check, and its value. -/
def State.loadHit (s : State) (x : Access) (place : Nat) (bs : List Byte) (ss : List Sync) :
    State × Except TrapInfo (List Word) :=
  match (if x.checked then s.raceCheck place x.pa x.size x.lease (x.racer 0) else (none, s)) with
  | (some c, s) => (s, .error { cause := 0x0C, tinfo := c, taddr := x.va })
  | (none, s) => (s.takeSyncs x ss, .ok (loadWords x.size x.signed bs))

/-- The trap of a bounded load that a copy cannot serve (09 R201). -/
def Access.staleTrap (x : Access) : TrapInfo := { cause := 0x0E, tinfo := bits x.attr 8 4, taddr := x.va }

/-- Whether an access that waits in its core may go on. -/
def State.mayLeaveCore (s : State) (id : Nat) (x : Access) : Bool :=
  x.phase == .atCore && (if x.op.cls = 0 then s.tryLoad id x != .wait else !s.linePending id x true)

/-- An access that waits in its core goes on: a load tries again, and an atomic is sent. -/
def State.leaveCore (s : State) (id : Nat) (x : Access) : State :=
  if x.op.cls = 0 then
    match s.tryLoad id x with
    | .wait => s
    | .home => (s.setAccess id { x with phase := if x.kind = 1 then .host else .toHome }).sendPacket id
    | .stale => s.failAccess id x x.staleTrap 0
    | .hit place bs ss =>
      match s.loadHit x place bs ss with
      | (s, .error i) => s.failAccess id x i 0
      | (s, .ok ws) => ((s.supply x.gang x.dst ws).decided id x).dropAccess id
  else if s.linePending id x true then s else (s.setAccess id { x with phase := .toHome }).sendPacket id

/-! ### Updates, fills, acknowledgements -/

/-- Whether an update of an access may reach a core: fills served and updates applied before it come first
(11 R265). -/
def State.orderedAt (s : State) (core line applied : Nat) : Bool :=
  s.accesses.all (fun p => !(lineOf p.2.pa == line && decide (p.2.applied < applied)) ||
    (match p.2.phase with
     | .fill => p.2.core != core
     | .updating cs => !isIn cs core
     | _ => true))

/-- The releases of a copy's words with those of some words replaced. -/
def patchSyncs (old : List (Nat × List Sync)) (ws : List Nat) (new : List (Nat × List Sync)) : List (Nat × List Sync) :=
  new.foldl (fun ss p => assocSet ss p.1 p.2) (old.filter (fun p => !isIn ws p.1))

/-- The next sharer applies an update and passes it on (11 R264). -/
def State.updateSharer (s : State) (id : Nat) (x : Access) : State :=
  match x.phase with
  | .updating (c :: rest) =>
    let line := lineOf x.pa
    if s.orderedAt c line x.applied then
      let s : State := s.onCore c (fun y =>
        match assocGet? y.l1 line with
        | some l => { y with l1 := assocSet y.l1 line { l with
            data := patchLine l.data (x.pa % 64) x.data, syncs := patchSyncs l.syncs x.words x.nows } }
        | none => y)
      s.setAccess id { x with phase := updatePhase rest }
    else s
  | _ => s

/-- Whether a fill leaves a copy in its core's L1: while the core is on the line's list, or in a round region. -/
def State.installs (s : State) (x : Access) : Bool :=
  (x.mode == 0 || x.mode == 5) && isIn (assocGet [] s.sharers (lineOf x.pa)) x.core || x.mode == 1

/-- Whether a fill may arrive: after what its home served before it, and once the L1 has room for its copy. -/
def State.mayFill (s : State) (x : Access) : Bool :=
  x.phase == .fill && s.orderedAt x.core (lineOf x.pa) x.applied

/-- A fill arrives: the copy is installed, and the load's results receive their values (11 R263, R279). A full L1 makes
room first (11 R265). -/
def State.fillL1 (s : State) (id : Nat) (x : Access) : State :=
  let line := lineOf x.pa
  if s.mayFill x then
    if s.installs x && !s.hasRoom x.core line then s.makeRoom x.core
    else
      let copy : L1Line := { data := x.old, syncs := x.nows, stamp := x.stamp, ten := x.ten, aidx := x.aidx,
                             round := if x.mode = 1 then some (bits x.attr 8 4) else none }
      let s : State := if s.installs x then s.onCore x.core (fun c => { c with l1 := assocSet c.l1 line copy }) else s
      (s.supply x.gang x.dst (loadWords x.size x.signed x.data)).dropAccess id
  else s

/-- Whether the acknowledgement of an access may arrive: those of one line's writes arrive in coherence order
(11 R265). -/
def State.mayAck (s : State) (x : Access) : Bool :=
  x.phase == .acked && s.accesses.all (fun p => !(p.2.kind == 0 && lineOf p.2.pa == lineOf x.pa &&
    decide (p.2.applied < x.applied)) || (match p.2.phase with
      | .updating _ => false
      | .acked => false
      | _ => true))

/-- Whether a port may accept a posted write (08 R188, 09 R199, R214). -/
def State.mayPost (s : State) (id : Nat) (x : Access) : Bool :=
  x.phase == .host && x.op == .store && !s.laneWaits id x && (x.hidden || !s.outranked x)

/-- A store's acknowledgement reaches its core, or a port accepts a posted write: it is performed. -/
def State.ackStore (s : State) (id : Nat) (x : Access) : State :=
  if s.mayAck x then s.dropAccess id
  else if s.mayPost id x then
    if x.hidden then s.dropAccess id
    else
      ((State.hideBelow { s with host := memWrite s.host x.pa x.data } x).writeSync x).dropAccess id
  else s

end Sys2Proof.Machine
end

