-- ==== Sys2Proof/Machine/Operands.lean ====
section
/-! DEFINITION. The operand forms of the memory words: effective addresses and offsets (08 R172, 09 R193), the
order of checks (09 R194), store-fault records (09 R200, 17 R334), and the issue of a global word. -/
namespace Sys2Proof.Machine

/-- A signed FI immediate (05 R92). -/
def imm11 (i : Fin 2048) : Int := sext 11 i.val

/-- The effective address of a load or store: the pair plus the scaled immediate, modulo 2^64 (09 R193); the same for `ldb`,
for which the rule states no width (DEDUCED, log entry 100). -/
def effAddr (s : State) (a : Acting) (l : Nat) (ra : Fin 128) (off : Int) : Nat :=
  wrap 64 ((s.pair a.gang l ra.val : Int) + off)

/-- log2 of an access size, as TINFO [7:4] shows it (17 R321). -/
def sizeLog (size : Nat) : Nat := Nat.log2 size

/-- TINFO of a misaligned or out-of-range access: the space and log2 of the size (17 R321). -/
def spaceInfo (space size : Nat) : Nat := space + sizeLog size * 2 ^ 4

/-- The translation context of the lanes of a team at a level (08 R174, 20 R375). -/
def Team.ctx (t : Team) (level core : Nat) : Ctx := ⟨t.lease, t.xten, level, core, false⟩

def Acting.ctx (a : Acting) : Ctx := a.team.ctx a.level a.gang.core

/-! ### Store-fault records -/

/-- Records that stores under way may still need (09 R200): those that their home has not decided. A posted write to the
host is decided when its core has sent it (08 R188). -/
def State.sfqReserved (s : State) (core : Nat) : Nat :=
  (s.accesses.filter (fun p => p.2.core == core && p.2.op.late &&
    (match p.2.phase with
     | .toHome => true
     | .reviving => true
     | .faulted _ _ => true
     | _ => false))).length

/-- Free records of a core's store-fault queue (17 R334). -/
def State.sfqFree (s : State) (core : Nat) : Nat := 32 - (s.core core).sfq.length - s.sfqReserved core

/-- A record takes its place among those of a queue: last, but before the records of higher lanes of its own word
(18 R347; log entry 21). -/
def putRecord (r : SfRec) : List SfRec → List SfRec
  | [] => [r]
  | y :: ys => if y.gang = r.gang ∧ y.seq = r.seq ∧ r.lane < y.lane then r :: y :: ys else y :: putRecord r ys

/-- One record placed in a core's queue. -/
def State.placeRecord (s : State) (core : Nat) (r : SfRec) : State :=
  s.onCore core (fun c => { c with sfq := putRecord r c.sfq })

/-- The number of the word under way in program order: a store that issues in parts keeps the number of its first part
(09 R200). -/
def Acting.wordSeq (a : Acting) : Nat := if a.co.done = 0 then a.gang.seq + 1 else a.co.num

/-- The record of a lane's store that failed at issue. -/
def Acting.record (a : Acting) (l kind size cause synd addr : Nat) (bs : List Byte) : SfRec :=
  { gang := a.gid, lane := l, cause := cause, slot := a.gang.slot, kind := kind, widx := a.co.idx, rep := a.co.repIdx,
    size := size, synd := synd, clause := a.co.hdr, addr := addr, value := ofLeBytes (bs.take 8), seq := a.wordSeq }

/-- The records that can ever be free while the lanes of a cohort wait (09 R200): all but those that these lanes hold. -/
def State.sfqEver (s : State) (a : Acting) : Nat :=
  32 - ((s.core a.gang.core).sfq.filter (fun r => r.gang == a.gid && a.co.mask.getLsbD r.lane)).length

/-- Whole slices of lanes, ascending, as far as a number of records serves: at least one slice. -/
def slicesWithin (left : Mask) (n : Nat) : Nat → Mask → Mask
  | 0, m => m
  | k + 1, m =>
    let m' := m ||| (left &&& (0xFF#64 <<< (8 * (7 - k))))
    if m = 0 ∨ popCount 64 m'.toNat ≤ n then slicesWithin left n k m' else m

/-- The lanes for which a store issues now: those left, or as many whole slices, ascending, as the records that can ever
be free serve (09 R200). -/
def partOf (left : Mask) (ever : Nat) : Mask :=
  if popCount 64 left.toNat ≤ ever then left else slicesWithin left ever 8 0

/-- A store word of the acting cohort: it waits for room in the store-fault queue, issues for a part of its lanes
with `k`, and finishes when all have issued. When no record can become free but those of its own lanes, the lanes that
have issued go on without the others, or the lanes that hold records take them at the word (log entry 21). -/
def State.storeWord (s : State) (k : State → Acting → List Nat → State) : State :=
  s.act fun a =>
    let part := partOf (a.co.mask &&& ~~~a.co.done) (s.sfqEver a)
    if popCount 64 part.toNat ≤ s.sfqFree a.gang.core then
      let s : State := if a.co.done = 0 then s.issue else s
      let s : State := s.onCohort (fun c => { c with done := c.done ||| part, num := a.wordSeq })
      let s : State := k s a (lanesOf part)
      s.act fun b => if b.co.mask &&& ~~~b.co.done = 0 then s.finish else s
    else if s.sfqReserved a.gang.core = 0 ∧ (s.core a.gang.core).sfq.all (fun r => r.gang == a.gid && a.co.mask.getLsbD r.lane) then
      if a.co.done &&& a.co.mask = 0 then
        let due := s.dueLanes a.gid a.co.mask false
        (s.leave due).deliver a.gid due false a.pc a.co.repIdx a.co.word
      else s.goOn a.co (a.co.done &&& a.co.mask)
    else s

/-! ### Global words -/

/-- A global word: its operation, size, access code, addresses, destinations, order, and operand bytes. -/
structure GWord where
  op : AccOp
  size : Nat
  acc : Nat
  addr : State → Acting → Nat → Nat
  dst : List Nat := []
  signed : Bool := false
  ord : Nat := 0
  scope : Nat := 2
  data : State → Acting → Nat → List Byte := fun _ _ _ => []
  cmp : State → Acting → Nat → Nat := fun _ _ _ => 0
  bound : Nat := 0
  trapMode : Bool := false
  kind : Nat := 0
  first : State → Acting → Nat → Option TrapInfo := fun _ _ _ => none

/-- The PCIe AtomicOps that a host page carries (08 R188), and the CAS requests of a wait count (12 R304). -/
def hostAtomic (op : AccOp) : Bool :=
  match op with
  | .atomic fn => fn == 0 || fn == 8 || fn == 9 || fn == 11 || fn == 12
  | .red _ => false
  | .sacc _ => false
  | .armed => false
  | _ => true

/-- The virtual-function word of the tenant that a context translates through. -/
def State.vfOf (s : State) (c : Ctx) : Nat :=
  match c.xten with
  | some n => (s.tenantOf (tkey c.lease n)).vf
  | none => 0

/-- Restrictions of host pages: a tenant without a function, of which every access fails, and an operation that PCIe does
not carry (08 R188). -/
def State.hostCheck (s : State) (c : Ctx) (op : AccOp) (acc : Nat) (x : Xlat) : Option TFault :=
  if x.kind != 1 then none
  else if bits (s.vfOf c) 6 0 == 0 then some (mkFault 2 0 13 acc false c.eng)
  else if !hostAtomic op then some (mkFault 2 0 11 acc false c.eng)
  else none

/-- Posting a page request with the migrate hint, when a plain access meets a peer page of mode 5 (08 R189): of lanes in a
gang slot, of a command or of a dispatcher. -/
def State.migrateHint (s : State) (c : Ctx) (slot l va : Nat) (f : TFault) : State :=
  if bits f.synd 11 8 = 10 then
    match c.xten with
    | none => s
    | some n =>
      match s.findLeaves c va (bits f.synd 7 6) with
      | .error _ => s
      | .ok x =>
        let idx := if c.level < 2 ∧ entryAttr x.e2 = 0 then entryAttr x.e1 else entryAttr x.e2
        let t := s.tenantOf (tkey c.lease n)
        if bits (assocGet 0 t.attrs idx) 3 0 = 5 then
          (s.postRequest (.lease c.lease)
            { type := 2, lvl := c.level, tag := t.tag.getD 0, cause := f.cause, pgen := t.pgen, addr := va,
              synd := f.synd, core := if c.core < 21504 then c.core else 0, slot := slot, lane := l } .migrate).2
        else s
  else s

/-- The fate of one lane at the issue of a global word: a failed check of steps 1 to 3 of 09 R194, or where its
access goes. -/
inductive LaneGo where
  | fail (i : TrapInfo) (synd : Nat)
  | go (x : Xlat)

/-- Steps 1 to 3 of 09 R194 for one lane, with the effects of the translation. The syndrome of a misaligned access names
its ACC alone (18 R347). -/
def State.checkLane (s : State) (a : Acting) (g : GWord) (l : Nat) : State × LaneGo :=
  let va := g.addr s a l
  match g.first s a l with
  | some i => (s, .fail i 0)
  | none =>
  if va % g.size ≠ 0 then (s, .fail { cause := 0x04, tinfo := spaceInfo 0 g.size, taddr := va } (g.acc * 2 ^ 6))
  else
    match s.xlate l a.ctx va g.acc false with
    | (s, .error f) => (s.migrateHint a.ctx a.gang.slot l va f, .fail { cause := f.cause, tinfo := f.synd, taddr := va } f.synd)
    | (s, .ok x) =>
      match s.hostCheck a.ctx g.op g.acc x with
      | some f => (s, .fail { cause := f.cause, tinfo := f.synd, taddr := va } f.synd)
      | none => (s, .go x)

/-- The access record of a lane's global word. -/
def State.mkAccess (s : State) (a : Acting) (g : GWord) (l : Nat) (x : Xlat) (ids : List Nat) : Access :=
  let y := a.gang.lane l
  let own : Sync := ⟨y.vc, g.scope, a.gang.team, fieldOfCore a.gang.core, a.team.lease, a.team.part⟩
  { gang := a.gid, lane := l, team := a.gang.team, core := a.gang.core, lease := a.team.lease, ten := a.team.part,
    op := g.op, va := g.addr s a l, pa := if x.kind = 1 then hostKey (bits (s.vfOf a.ctx) 9 7) x.pa else x.pa,
    kind := x.kind, mode := x.mode, attr := x.attr, size := g.size, data := g.data s a l, cmp := g.cmp s a l,
    ord := g.ord, scope := g.scope, dst := ids, signed := g.signed, wseq := a.wordSeq, pc := a.pc,
    rep := a.co.repIdx, issued := s.now, party := laneParty a.gid l, clk := assocGet 0 y.vc (laneParty a.gid l),
    vc := y.vc, pubs := y.fenceSyncs ++ (if 2 ≤ g.ord then [own] else []), cohort := a.cid,
    home := s.homeOf a.ctx x, aidx := x.aidx, level := a.level, disc := x.disc, leaves := x.leaves,
    bound := g.bound, trapMode := g.trapMode,
    phase := if x.kind = 1 then .host else .toHome }

/-- A lane that issues a release enters its next region (11 R270). -/
def State.nextRegion (s : State) (a : Acting) (ord l : Nat) : State :=
  if 2 ≤ ord then (s.releaseLanes a.gid (maskOf [l])).2 else s

/-- The operation of a word on a page: a bounded load carries its core's view of a round region, and acts as a plain one
elsewhere (09 R201, R202). -/
def State.opOn (s : State) (a : Acting) (g : GWord) (x : Xlat) : AccOp :=
  match g.op with
  | .bounded _ =>
    .bounded (if x.kind = 0 ∧ x.mode = 1 then (s.tenantOf a.team.part).view (viewKeyCore a.gang.core x.round) else 0)
  | op => op

/-- A precise access of one lane begins (09 R195): a load that its core serves completes or traps; any other access waits
in its core or is on its way, and holds the cohort. -/
def State.beginPrecise (s : State) (a : Acting) (g : GWord) (l : Nat) (x : Xlat) : State × Option TrapInfo :=
  let op := s.opOn a g x
  let n := s.nextId
  let id := n + g.dst.length
  let acc : Access := { s.mkAccess a { g with op := op } l x ((List.range g.dst.length).map (fun i => n + i)) with
    precise := true }
  let send := fun (s : State) (p : Phase) =>
    let s : State := { s.onGang a.gid (fun y => y.pend n l false true false (g.dst.map (fun r => (r, none)))) with
      nextId := id + 1 }
    let cached := op.cls == 0 && x.kind == 0 && (x.mode == 0 || x.mode == 1 || x.mode == 5)
    let s : State := if cached then s.tally a.team.part 6 1 else s
    ((((s.setAccess id { acc with phase := p }).sendPacket id).nextRegion a g.ord l).onCohort (fun c => { c with hold := true }), none)
  if op.cls = 0 then
    match s.tryLoad id acc with
    | .hit place bs ss =>
      match s.loadHit acc place bs ss with
      | (s, .error i) => (s, some i)
      | (s, .ok ws) =>
        ({ s.onGang a.gid (fun y => y.pend n l false true false (g.dst.zip (ws.map some))) with nextId := id }, none)
    | .wait => send s .atCore
    | .home => send s acc.phase
    | .stale => (s, some acc.staleTrap)
  else if x.kind = 0 && s.linePending id acc true then send s .atCore
  else
    let s : State := if x.kind = 1 then (s.clearDisc x.leaves).getD s else s
    send s acc.phase

/-- Whether a lane of the cohort at LEVEL 3 names wafer memory that does not exist (08 R168, R174). -/
def State.ownerOutside (s : State) (addr : State → Acting → Nat → Nat) : Bool :=
  match s.acting with
  | none => false
  | some a => a.level == 3 && a.lanes.any (fun l => decide (84 * 2 ^ 35 ≤ addr s a l ∧ addr s a l < 2 ^ 48))

/-- A load, bounded load or returning atomic (09 R195, R196, R201, R206): the lanes that fail a check trap at the
word, and the others complete it. -/
def State.preciseWord (s : State) (g : GWord) : Host.Outcome State Fault Refusal :=
  if s.ownerOutside g.addr then .fault .noMemory
  else .next (s.act fun a =>
    let s : State := s.issue
    let r : State × List (Nat × TrapInfo) := a.lanes.foldl (fun r l =>
      match r.1.checkLane a g l with
      | (s, .fail i _) => (s, r.2 ++ [(l, i)])
      | (s, .go x) =>
        match s.beginPrecise a g l x with
        | (s, none) => (s, r.2)
        | (s, some i) => (s, r.2 ++ [(l, i)])) (s, [])
    let s : State := r.1.trapEach r.2
    s.act fun b => if b.co.hold then s.settleHold a.gid a.cid else s.finish)

/-- The failed check of a store-class access: a page request at the word when HOSTMASK selects the fault (17 R323),
and otherwise a record (09 R200). -/
def State.failStore (s : State) (a : Acting) (g : GWord) (l : Nat) (i : TrapInfo) (synd : Nat) : State :=
  match s.pageRequestTo a.team a.level i with
  | some _ => s.trap (maskOf [l]) i
  | none => s.placeRecord a.gang.core (a.record l g.kind g.size i.cause synd i.taddr (g.data s a l))

/-- A lane's store, reduction or sacc is on its way. -/
def State.sendLate (s : State) (a : Acting) (g : GWord) (l : Nat) (x : Xlat) : State :=
  let s : State := if x.kind = 1 then (s.clearDisc x.leaves).getD s else s
  ((State.setAccess { s with nextId := s.nextId + 1 } s.nextId (s.mkAccess a g l x [])).sendPacket s.nextId).nextRegion a g.ord l

/-- A store or reduction: each lane that passes the checks of its core sends its access; the home settles which of the
lanes of one store that write the same bytes stands (09 R199). -/
def State.imprecise (s : State) (g : GWord) : Host.Outcome State Fault Refusal :=
  if s.ownerOutside g.addr then .fault .noMemory
  else .next (s.storeWord fun s a lanes =>
    let r : State × List (Nat × Xlat) := lanes.foldl (fun r l =>
      match r.1.checkLane a g l with
      | (s, .fail i synd) => (s.failStore a g l i synd, r.2)
      | (s, .go x) => (s, r.2 ++ [(l, x)])) (s, [])
    r.2.foldl (fun s p => s.sendLate a g p.1 p.2) r.1)

end Sys2Proof.Machine
end

