-- ==== Sys2Proof/Machine/Hardware.lean ====
section
/-! DEFINITION. Accesses that the hardware makes on its own: spill slots (06 R120), rings, records and wait counts
(03 R382), shape slots (01 R23). They are translated and coherent, and are not checked for races. -/
namespace Sys2Proof.Machine

/-- The lines that n bytes from an address touch. -/
def linesOf (a n : Nat) : List Nat := (List.range (lineOf (a + n - 1) + 1 - lineOf a)).map (fun i => lineOf a + i)

/-- The first write to a discarded page by the hardware (08 R190): the page is filled within the step, and its tokens
are spent. -/
def State.reviveNow (s : State) (x : Xlat) : State :=
  let page := x.pa / 2 ^ 16
  if isIn s.fills page then (s.owe (page * 2 ^ 16) 1024).endFill page
  else if x.disc then
    match s.clearDisc x.leaves with
    | some s => if x.kind = 0 then (s.owe (page * 2 ^ 16) 1024).endFill page else s
    | none => s
  else s

/-- A host access of the hardware completes: with an error when its function's port has announced one (08 R188; log
entry 89). -/
def State.hostAnswer (s : State) (c : Ctx) (acc : Nat) : State × Option TFault :=
  let port := bits (s.vfOf c) 9 7
  if isIn s.hostErrors port then ({ s with hostErrors := s.hostErrors.erase port }, some (mkFault 2 0 13 acc false c.eng))
  else (s, none)

/-- A translation for the hardware's own access, with its walk's effects and AC and D set (08 R184, R189). -/
def State.hwXlat (s : State) (c : Ctx) (va acc : Nat) (op : AccOp) : State × Except TFault Xlat :=
  match s.walkNow c va acc false with
  | (s, .error f) => (s.migrateHint c 0 0 va f, .error f)
  | (s, .ok x) =>
    match s.hostCheck c op acc x with
    | some f => (s, .error f)
    | none => (s.markLeaves x.leaves (isWriteAcc acc), .ok x)

/-- The parts of n bytes from an address that lie in one 64 KiB page each. -/
def pageParts (va n : Nat) : List (Nat × Nat) :=
  if va % 2 ^ 16 + n ≤ 2 ^ 16 then [(va, n)]
  else [(va, 2 ^ 16 - va % 2 ^ 16), (va + (2 ^ 16 - va % 2 ^ 16), n - (2 ^ 16 - va % 2 ^ 16))]

/-- The lines of n bytes are brought into their home slices for the hardware, and their partials combined. -/
def State.hwTouch (s : State) (c : Ctx) (x : Xlat) (n : Nat) (write : Bool) : State :=
  (linesOf x.pa n).foldl (fun s line =>
    let s : State := s.touchNow (s.homeOf c { x with pa := 64 * line }) line x.fixed write
    if x.mode = 2 ∨ x.mode = 3 then s.combine line else s) s

/-- n bytes at a translated address, in coherence order, line by line. -/
def State.hwGet (s : State) (a n : Nat) : List Byte :=
  (linesOf a n).flatMap (fun line =>
    s.hwBytes (max a (64 * line)) (min (a + n) (64 * (line + 1)) - max a (64 * line)))

/-- Bytes put at a translated address, in coherence order, line by line. -/
def State.hwSet (s : State) (a : Nat) (bs : List Byte) : State :=
  (linesOf a bs.length).foldl (fun s line =>
    let lo := max a (64 * line)
    let hi := min (a + bs.length) (64 * (line + 1))
    s.hwPut lo ((bs.drop (lo - a)).take (hi - lo))) s

/-- Bytes read for the hardware, as part of an operation; the fault shows the address that failed. -/
def State.hwLoad (s : State) (c : Ctx) (va n acc : Nat) (op : AccOp := .load) :
    State × Except (TFault × Nat) (List Byte) :=
  (pageParts va n).foldl (fun r p =>
    match r with
    | (s, .error f) => (s, .error f)
    | (s, .ok bs) =>
      match s.hwXlat c p.1 acc op with
      | (s, .error f) => (s, .error (f, p.1))
      | (s, .ok x) =>
        if s.reads0 x then (s, .ok (bs ++ List.replicate p.2 0))
        else if x.kind = 1 then
          match s.hostAnswer c acc with
          | (s, some f) => (s, .error (f, p.1))
          | (s, none) => (s, .ok (bs ++ memRead s.host (hostKey (bits (s.vfOf c) 9 7) x.pa) p.2))
        else
          let s : State := s.hwTouch c x p.2 false
          (s, .ok (bs ++ s.hwGet x.pa p.2))) (s, .ok [])

/-- Bytes written for the hardware: nothing is written when a part faults. -/
def State.hwStore (s : State) (c : Ctx) (va : Nat) (bs : List Byte) (acc : Nat) : State × Except (TFault × Nat) Unit :=
  let (s, r) : State × Except (TFault × Nat) (List (Nat × Nat × Xlat)) := (pageParts va bs.length).foldl (fun r p =>
    match r with
    | (s, .error f) => (s, .error f)
    | (s, .ok xs) =>
      match s.hwXlat c p.1 acc .store with
      | (s, .error f) => (s, .error (f, p.1))
      | (s, .ok x) =>
        match (if x.kind = 1 then s.hostAnswer c acc else (s, none)) with
        | (s, some f) => (s, .error (f, p.1))
        | (s, none) => (s, .ok (xs ++ [(p.1, p.2, x)]))) (s, .ok [])
  match r with
  | .error f => (s, .error f)
  | .ok xs =>
    (xs.foldl (fun s p =>
      let x := p.2.2
      let part := (bs.drop (p.1 - va)).take p.2.1
      let s : State := s.reviveNow x
      if x.kind = 1 then
        { s with host := memWrite s.host (hostKey (bits (s.vfOf c) 9 7) x.pa) part }
      else
        let s : State := (s.hwTouch c x p.2.1 true).hwSet x.pa part
        let s : State := { s with syncs := (wordsOf x.pa p.2.1).foldl (fun ss w => syncWrite ss w false []) s.syncs }
        (linesOf x.pa p.2.1).foldl State.fireMonitors s) s, .ok ())

end Sys2Proof.Machine
end

