-- ==== Sys2Proof/Machine/Control.lean ====
section
/-! DEFINITION. Control words: branches, calls and jumps, the join stack, the team barrier, item refill, exit, trap,
yield, nop and rep (06 R115 to R134; 05 R95). -/
namespace Sys2Proof.Machine

/-! ### Branches, calls and jumps -/

/-- A branch target: the header that holds the branch plus four times the signed offset (05 R93, 06 R117). -/
def Acting.target (a : Acting) (o : Fin 262144) : Pc := ⟨wrap 48 ((a.co.hdr : Int) + 4 * sext 18 o.val), 0⟩

/-- The lanes that take a branch leave for the target; the others stay in the cohort (06 R110, R117). -/
def State.branch (s : State) (o : Fin 262144) (take : Acting → Nat → Bool) : State :=
  s.act fun a =>
    ((s.issue).transfer a.co ((a.lanes.filter (take a)).map (fun l => (l, a.target o)))).finish

/-- An exact pair written now, as a link (06 R118, R119). -/
def State.linkNow (s : State) (gid l d v : Nat) : State :=
  s.onGang gid (fun g => (g.writeNow l d (BitVec.ofNat 32 v)).writeNow l (d + 1) (BitVec.ofNat 32 (v / 2 ^ 32)))

/-- BR (R117). -/
def execBr (o : Fin 262144) (s : State) : Host.Outcome State Fault Refusal := .next (s.branch o (fun _ _ => true))

/-- BRNZ (R117). -/
def execBrnz (a : Fin 128) (o : Fin 262144) (s : State) : Host.Outcome State Fault Refusal :=
  .next (s.branch o (fun x l => s.reg x.gang l a.val != 0))

/-- BRZ (R117). -/
def execBrz (a : Fin 128) (o : Fin 262144) (s : State) : Host.Outcome State Fault Refusal :=
  .next (s.branch o (fun x l => s.reg x.gang l a.val == 0))

/-- CALL (R118). -/
def execCall (a : Fin 128) (o : Fin 262144) (s : State) : Host.Outcome State Fault Refusal :=
  .next (s.act fun x =>
    let s : State := x.lanes.foldl (fun s l => s.linkNow x.gid l a.val x.co.after) s.issue
    s.transfer x.co (x.lanes.map (fun l => (l, x.target o))))

/-- `jmp` and `jmpl`: a target that is no multiple of four, or beyond 48 bits, traps the lane with 0x04 and writes no
link (06 R119). -/
def State.jump (s : State) (link : Option (Fin 128)) (a : Fin 128) : State :=
  s.act fun x =>
    let ts : List (Nat × Nat) := x.lanes.map (fun l => (l, s.pair x.gang l a.val))
    let bad := ts.filter (fun t => t.2 % 4 != 0 || decide (2 ^ 48 ≤ t.2))
    let good := ts.filter (fun t => !(t.2 % 4 != 0 || decide (2 ^ 48 ≤ t.2)))
    let s : State := s.issue
    let s : State := match link with
      | none => s
      | some d => good.foldl (fun s t => s.linkNow x.gid t.1 d.val x.co.after) s
    let s : State := s.transfer x.co (good.map (fun t => (t.1, ⟨t.2, 0⟩)))
    s.trapEach (bad.map (fun t => (t.1, { cause := 0x04, tinfo := 2 * 2 ^ 4, taddr := t.2 })))

/-- JMP (R119). -/
def execJmp (a : Fin 128) (s : State) : Host.Outcome State Fault Refusal := .next (s.jump none a)

/-- JMPL (R119). -/
def execJmpl (d a : Fin 128) (s : State) : Host.Outcome State Fault Refusal := .next (s.jump (some d) a)

/-! ### The join stack -/

/-- Why a spill-slot access failed (06 R121): the slot address, and TINFO of cause 0x11. -/
structure SpillFault where
  addr : Nat
  tinfo : Nat

/-- The spill slot of depth i, counted from 1 at the bottom (06 R120). -/
def Gang.slotAddr (g : Gang) (i : Nat) : Nat := g.spillBase + 16 * (i - 1)

/-- A slot outside the gang's spill area (06 R121). -/
def Gang.slotCheck (g : Gang) (i : Nat) : Option SpillFault :=
  if 16 * g.spill < i then some ⟨g.slotAddr i, 2 ^ 16⟩ else none

/-- The lanes below GWIDTH. -/
def Gang.all (g : Gang) : Mask := maskOf (List.range g.width)

/-- An entry read from its slot. -/
def State.slotRead (s : State) (c : Ctx) (g : Gang) (i : Nat) : Except SpillFault (State × (Mask × Mask)) :=
  match g.slotCheck i with
  | some f => .error f
  | none =>
    match s.hwLoad c (g.slotAddr i) 16 0 with
    | (_, .error (f, _)) => .error ⟨g.slotAddr i, f.synd⟩
    | (s, .ok bs) =>
      .ok (s, (BitVec.ofNat 64 (ofLeBytes (bs.take 8)) &&& g.all, BitVec.ofNat 64 (ofLeBytes (bs.drop 8)) &&& g.all))

/-- An entry written to its slot. -/
def State.slotWrite (s : State) (c : Ctx) (g : Gang) (i : Nat) (e : Mask × Mask) : Except SpillFault State :=
  match g.slotCheck i with
  | some f => .error f
  | none =>
    match s.hwStore c (g.slotAddr i) (leBytes 8 e.1.toNat ++ leBytes 8 e.2.toNat) 1 with
    | (_, .error (f, _)) => .error ⟨g.slotAddr i, f.synd⟩
    | (s, .ok _) => .ok s

/-- Push an entry: the entry that becomes the fourth innermost is written to its slot (06 R120, R123). -/
def State.pushEntry (s : State) (c : Ctx) (g : Gang) (e : Mask × Mask) :
    Except SpillFault (State × List (Mask × Mask)) :=
  match g.stack with
  | x :: y :: z :: rest =>
    match s.slotWrite c g (rest.length + 1) z with
    | .error f => .error f
    | .ok s => .ok (s, e :: x :: y :: z :: rest)
  | st => .ok (s, e :: st)

/-- The stack after a pop: the entry that becomes the eighth innermost is read back from its slot (06 R120). -/
def State.afterPop (s : State) (c : Ctx) (g : Gang) (st : List (Mask × Mask)) :
    Except SpillFault (State × List (Mask × Mask)) :=
  if 8 ≤ st.length then
    match s.slotRead c g (st.length - 7) with
    | .error f => .error f
    | .ok (s, e) => .ok (s, setAt st 7 e)
  else .ok (s, st)

/-- Settle the stack (06 R122): empty entries pop, complete entries pop and release their lanes. -/
def State.settle (s : State) (c : Ctx) (g : Gang) (gone : Mask) :
    Nat → List (Mask × Mask) → Mask → Except SpillFault (State × List (Mask × Mask) × Mask)
  | 0, st, rel => .ok (s, st, rel)
  | _ + 1, [], rel => .ok (s, [], rel)
  | n + 1, e :: rest, rel =>
    let eff := e.1 &&& ~~~gone
    if eff = 0 ∨ e.2 = eff then
      match s.afterPop c g rest with
      | .error f => .error f
      | .ok (s, st) => s.settle c g gone n st (if eff = 0 then rel else rel ||| e.2)
    else .ok (s, e :: rest, rel)

/-- The released class (06 R109): its lanes are no longer parked or deferred. -/
def State.releaseClass (s : State) (gid : Nat) (m : Mask) : State :=
  if m = 0 then s
  else
    (s.onGang gid (fun g => g.mapLanes m (fun _ x => { x with released := true, deferred := false }))).wake gid m

/-- A change of the stack or of the gone mask takes effect, with what the settle releases. An entry keeps its slot copy
until it pops, and the entries below the three innermost have one (06 R120). -/
def State.commitStack (s : State) (gid : Nat) (st : List (Mask × Mask)) (rel : Mask) : State :=
  (s.onGang gid (fun g => { g with
    stack := st, copied := min st.length (max g.copied (st.length - 3)) })).releaseClass gid rel

/-- The trap of a failed slot access: every lane of the cohort takes it and nothing has changed (06 R121). -/
def State.spillTrap (s : State) (f : SpillFault) : State :=
  s.act fun a => s.trap a.co.mask { cause := 0x11, tinfo := f.tinfo, taddr := f.addr }

/-- JPUSH (R120, R121, R123). -/
def execJpush (s : State) : Host.Outcome State Fault Refusal :=
  .next (s.act fun a =>
    match s.issue.pushEntry a.ctx a.gang (a.co.mask, 0) with
    | .error f => s.issue.spillTrap f
    | .ok (s, st) => (s.commitStack a.gid st 0).finish)

/-- A change of the innermost entry is written through to its slot copy, when it has one: entries that came back by pops
keep theirs (06 R120). -/
def State.writeThrough (s : State) (c : Ctx) (g : Gang) (changed : Bool) (st : List (Mask × Mask)) :
    Except SpillFault State :=
  match st with
  | [] => .ok s
  | e :: _ => if changed && decide (st.length ≤ g.copied) then s.slotWrite c g st.length e else .ok s

/-- JWAIT (R121, R122, R124). -/
def execJwait (s : State) : Host.Outcome State Fault Refusal :=
  .next (s.act fun a =>
    let (arr, st) : Mask × List (Mask × Mask) := match a.gang.stack with
      | e :: rest => (a.co.mask &&& e.1, (e.1, e.2 ||| (a.co.mask &&& e.1)) :: rest)
      | [] => (0, [])
    match (s.issue.writeThrough a.ctx a.gang (arr != 0) st).bind (fun t =>
        t.settle a.ctx a.gang a.gang.gone (st.length + 1) st 0) with
    | .error f => s.issue.spillTrap f
    | .ok (s, st, rel) =>
      let s : State := ((s.leave arr).setPcs arr (fun _ => a.co.nextPc) 0).onGang a.gid (fun g =>
        { g.mapLanes arr (fun _ x => { x with parked := true, sw := a.co.switchBit }) with
          parkedSince := if arr = 0 then g.parkedSince else s.enabled g.core })
      (s.commitStack a.gid st rel).finish)

/-- The k innermost entries without the lanes of a mask, with the slot copies of those that have one; an entry that is not
held is read from its slot (06 R120, R125). `i` is the number of entries already done. -/
def State.dropFrom (s : State) (c : Ctx) (g : Gang) (m : Mask) :
    Nat → Nat → List (Mask × Mask) → Except SpillFault (State × List (Mask × Mask))
  | 0, _, st => .ok (s, st)
  | _ + 1, _, [] => .ok (s, [])
  | k + 1, i, e :: rest =>
    let depth := rest.length + 1
    match (if 8 ≤ i then s.slotRead c g depth else .ok (s, e)) with
    | .error f => .error f
    | .ok (s, e) =>
      let e : Mask × Mask := (e.1 &&& ~~~m, e.2)
      match (if depth ≤ g.copied then s.slotWrite c g depth e else .ok s) with
      | .error f => .error f
      | .ok s =>
        match s.dropFrom c g m k (i + 1) rest with
        | .error f => .error f
        | .ok (s, st) => .ok (s, e :: st)

/-- JDROP (R121, R122, R125). -/
def execJdrop (k : Fin 64) (s : State) : Host.Outcome State Fault Refusal :=
  .next (s.act fun a =>
    match s.issue.dropFrom a.ctx a.gang a.co.mask (k.val + 1) 0 a.gang.stack with
    | .error f => s.issue.spillTrap f
    | .ok (t, st) =>
      match t.settle a.ctx a.gang a.gang.gone (st.length + 1) st 0 with
      | .error f => s.issue.spillTrap f
      | .ok (t, st, rel) => (t.commitStack a.gid st rel).finish)

/-- JDEPTH (R126). -/
def execJdepth (d : Fin 128) (s : State) : Host.Outcome State Fault Refusal :=
  .next (s.act fun a =>
    (a.lanes.foldl (fun s l => s.onGang a.gid (fun g =>
      g.writeNow l d.val (BitVec.ofNat 32 a.gang.stack.length))) s.issue).finish)

/-! ### The team barrier -/

/-- The barrier of a team completes when every lane that has not exited has arrived (06 R128): each arrived lane
acquires and is released. -/
def State.barrier (s : State) (t : Nat) : State :=
  match s.team? t with
  | none => s
  | some tm =>
    let gs := s.gangsOf t
    if gs.any (fun g => g.2.arrived != 0) &&
        gs.all (fun g => g.2.lanesWhere (fun _ x => x.live) &&& ~~~g.2.arrived == 0) then
      (gs.foldl (fun s g =>
        ((s.acquireLanes g.1 g.2.arrived tm.barVc).onGang g.1 (fun y => { y with arrived := 0 })).releaseClass
          g.1 g.2.arrived) s).onTeam t (fun x => { x with barVc := [] })
    else s

/-- BAR (R128): a release at team scope, then the lanes park as arrived. -/
def execBar (s : State) : Host.Outcome State Fault Refusal :=
  .next (s.takeDue.atRelease 0 (fun s => s.act fun a =>
    let (vc, s) := s.issue.releaseLanes a.gid a.co.mask
    let s : State := (s.onTeam a.gang.team (fun t => { t with barVc := clockJoin t.barVc vc })).endCohort
    let s : State := (s.setPcs a.co.mask (fun _ => a.co.nextPc) 0).onGang a.gid (fun g =>
      { g.mapLanes a.co.mask (fun _ x => { x with parked := true, sw := a.co.switchBit }) with
        arrived := g.arrived ||| a.co.mask, parkedSince := s.enabled g.core })
    s.barrier a.gang.team))

/-! ### Leaving and item refill -/

/-- A gang without lanes: their results are discarded, their monitors unarmed, their places in frames empty. -/
def Gang.retire (g : Gang) (m : Mask) : Gang :=
  { g.mapLanes m (fun _ x => { x with live := false, parked := false, sw := false, monitor := none, frame := none }) with
    gone := g.gone ||| m
    results := g.results.filter (fun r => !m.getLsbD r.2.lane)
    frames := (g.frames.map (fun f => (f.1, { f.2 with mask := f.2.mask &&& ~~~m }))).filter (fun f => f.2.mask != 0)
    due := (g.due.map (fun d => { d with mask := d.mask &&& ~~~m })).filter (fun d => d.mask != 0) }

/-- Lanes of a gang exit (06 R131): a release at the scope, then GONE, the settle and the barrier. Their stores are
performed or recorded and their records delivered. -/
def State.exitLanes (s : State) (gid : Nat) (m : Mask) (scope : Nat) : State :=
  match s.gang? gid with
  | none => s
  | some g =>
    match s.team? g.team with
    | none => s
    | some t =>
      let c := t.ctx (g.lane (lowBit 64 m.toNat)).level g.core
      let lead := s.leadClock gid m
      let (vc, s) := s.releaseLanes gid m
      let s : State := s.releasePins g.team g.core scope lead
      let s : State := (s.onGang gid (fun g => g.retire m)).lapseMonitors (fun r => r.gang == gid && m.getLsbD r.lane)
      let s : State := match s.launch? t.launch with
        | some l => s.setLaunch t.launch { l with exitVc := clockJoin l.exitVc vc }
        | none => s
      match s.settle c g (g.gone ||| m) (g.stack.length + 1) g.stack 0 with
      | .error _ => s.hwHalt g.team 0x80000004
      | .ok (s, st, rel) => (s.commitStack gid st rel).barrier g.team

/-- `exit` (06 R131). -/
def State.exitWord (s : State) (scope : Nat) : State :=
  s.takeDue.afterAll (fun a => s.takeDue.exitPending a.gid a.co.mask scope)
    (fun s => s.act fun a => (s.issue.endCohort).exitLanes a.gid a.co.mask scope)

/-- EXIT (R131). -/
def execExitv (sc : Fin 4) (s : State) : Host.Outcome State Fault Refusal := .next (s.exitWord sc.val)

/-- Whether a launch has values that no core's queue holds (06 R130). -/
def State.valuesLeft (s : State) (launch : Nat) : Bool :=
  match s.launch? launch with
  | some l => l.desc.item && (decide (l.nextItem < l.desc.icount) || !l.returned.isEmpty)
  | none => false

/-- The values of a launch that a core's queue holds, oldest first (06 R129). -/
def Core.itemsOf (c : Core) (launch : Nat) : List Word := (c.items.filter (fun p => p.1 == launch)).map (·.2)

/-- A queue without the oldest value of a launch. -/
def takeItem (launch : Nat) : List (Nat × Word) → List (Nat × Word)
  | [] => []
  | p :: ps => if p.1 = launch then ps else p :: takeItem launch ps

/-- Each lane of a list takes the oldest value of its launch in the core's queue, or none (06 R130): the lanes that
found none are answered. -/
def State.takeItems (s : State) (gid core launch d : Nat) : List Nat → State × List Nat
  | [] => (s, [])
  | l :: ls =>
    match (s.core core).itemsOf launch with
    | [] => (s, l :: ls)
    | v :: _ =>
      ((s.onCore core (fun c => { c with items := takeItem launch c.items })).onGang gid (fun g =>
        g.writeNow l d v)).takeItems gid core launch d ls

/-- The lanes of a list for which the core's queue has no value. -/
def State.withoutItem (s : State) (core launch : Nat) (ls : List Nat) : List Nat :=
  ls.drop ((s.core core).itemsOf launch).length

/-- REFILL (R130): lanes take values in ascending order; the others park while values remain undealt or returned, and
otherwise exit with release at team scope. DESIGN CHOICE: an engine trap that is due to a lane which leaves so is not taken, since
10 R223 lists `exit` and not `refill` (log entry 116). -/
def execRefill (d : Fin 128) (s : State) : Host.Outcome State Fault Refusal :=
  .next (s.act fun a =>
    let launch := a.team.launch
    let rest := maskOf (s.withoutItem a.gang.core launch a.lanes)
    let leaving := if s.valuesLeft launch then 0 else rest
    if s.exitPending a.gid leaving 0 then s
    else
      let due := s.dueLanes a.gid leaving true
      let s : State := (s.leave due).deliver a.gid due true a.pc a.co.repIdx a.co.word
      let s : State := (s.issue.takeItems a.gid a.gang.core launch d.val a.lanes).1
      if leaving = 0 then
        let s : State := (s.leave rest).setPcs rest (fun _ => a.pc) 0
        (s.park rest (.refill d.val) a.co.nextPc a.co.switchBit).finish
      else ((s.leave rest).exitLanes a.gid (leaving &&& ~~~due) 0).finish)

/-! ### Trap, yield, nop and rep -/

/-- TRAP (R132). -/
def execTrapv (c : Fin 262144) (s : State) : Host.Outcome State Fault Refusal :=
  .next (s.act fun a => s.issue.trap a.co.mask { cause := 0x10, tinfo := c.val })

/-- YIELD (R133): the lanes go on deferred, behind every other cohort that is ready now. -/
def execYield (s : State) : Host.Outcome State Fault Refusal :=
  .next (s.act fun a =>
    (s.issue.onGang a.gid (fun g => g.mapLanes a.co.mask (fun _ x =>
      { x with deferred := true, yielded := s.tick + 1 }))).finish)

/-- NOP (R134). -/
def execNop (s : State) : Host.Outcome State Fault Refusal := .next s.issue.finish

/-- How many of the fields d, a, b a word of an ALU or memory major has that a `rep` may step (05 R90, R95). -/
def stepFields (w : Nat) : Nat :=
  let major := bits w 31 25
  if 0x08 ≤ major ∧ major ≤ 0x13 ∨ 0x22 ≤ major ∧ major ≤ 0x23 ∨ 0x30 ≤ major ∧ major ≤ 0x47 then 2
  else if major = 0x14 ∨ major = 0x15 then 1
  else 3

/-- Whether a word of an ALU or memory major is unassigned, or has a reserved fn, as a compare code or a fence order may be: its own
fate, at that word (05 R89 step 5, R96). -/
def unassigned (w : Nat) : Bool :=
  match decodeLow w with
  | .error .unassignedMajor => true
  | .error .reservedFn => true
  | .error (.operand _) => bits w 31 25 == 0x03 || bits w 31 25 == 0x5D
  | _ => false

/-- The checks of a `rep` word against the word it repeats (05 R95): the steps name fields that the format has, no
field passes v127, and no repetition is refused under 05 R91. -/
def repeatOk (w n sd sa sb : Nat) : Bool :=
  if bits w 31 0 = 0 then n == 1 || sd + sa + sb == 0
  else if unassigned w then true
  else
    let k := stepFields w
    let (fd, fa, fb) := if k = 3 then (bits w 20 14, bits w 13 7, bits w 6 0) else (bits w 24 18, bits w 17 11, 0)
    decide (k = 3 ∨ sb = 0) && decide (2 ≤ k ∨ sa = 0) &&
      decide (fd + (n - 1) * sd < 128) && decide (k = 1 ∨ fa + (n - 1) * sa < 128) &&
      decide (fb + (n - 1) * sb < 128) &&
      (List.range n).all (fun j => (decodeLow (repWord w ⟨n, j, sd, sa, sb⟩)).isOk)

/-- REP (R95, R115): the next word is issued c + 1 times. -/
def execRep (c : Fin 64) (x y z : Fin 4) (s : State) : Host.Outcome State Fault Refusal :=
  .next (s.act fun a =>
    if repeatOk (a.co.words.getD (a.co.idx + 1) 0) (c.val + 1) x.val y.val z.val then
      (s.issue.onCohort (fun co => { co with
        idx := co.idx + 1, rep := some ⟨c.val + 1, 0, x.val, y.val, z.val⟩, hold := false, done := 0 })).setPcs
        a.co.mask (fun _ => ⟨a.co.hdr, a.co.idx + 1⟩) 0
    else s.trapWord 0x02)

end Sys2Proof.Machine
end

