-- ==== Sys2Proof/Machine/Queues.lean ====
section
/-! DEFINITION. Work records, queues and appends (01 R16 to R22; 03 R49 to R63, R382). -/
namespace Sys2Proof.Machine

/-! ### Records -/

/-- The doublewords of 64 bytes. -/
def dwords (bs : List Byte) : List Nat := (List.range 8).map (fun i => ofLeBytes ((bs.drop (8 * i)).take 8))

/-- The fields of a record from its doublewords (01 R16). -/
def recOf (w : List Nat) : Rec :=
  let f := fun (i : Nat) => w.getD i 0
  { entry := bits (f 0) 47 0, engerr := bit (f 0) 51, item := bit (f 0) 50, paired := bit (f 0) 49, coop := bit (f 0) 48,
    frame := f 1, queue := bits (f 2) 41 32, succ := f 3, tz := bits (f 4) 63 48, ty := bits (f 4) 47 32,
    tx := bits (f 4) 31 16, gangs := bits (f 4) 7 2, wcode := bits (f 4) 1 0, gz := bits (f 5) 63 48,
    gy := bits (f 5) 47 32, gx := bits (f 5) 31 0, spill := bits (f 6) 39 24, wbuf := bits (f 6) 23 16,
    abuf := bits (f 6) 15 8, regs := bits (f 6) 4 0, affin := bits (f 7) 63 52, icount := bits (f 7) 51 32,
    ibase := bits (f 7) 31 0 }

/-- GWIDTH (01 R16). -/
def Rec.width (r : Rec) : Nat := 16 * 2 ^ r.wcode

/-- The number of teams of the grid. -/
def Rec.teams (r : Rec) : Nat := r.gx * r.gy * r.gz

/-- Gangs that a team places on one core (04 R73). -/
def Rec.gangsPerCore (r : Rec) : Nat := if r.paired then r.gangs / 2 else r.gangs

/-- Register demand of a team on one core, in lane-registers (04 R73). -/
def Rec.demand (r : Rec) : Nat := r.gangsPerCore * r.width * 8 * r.regs

/-- The check at dispatch (01 R17). -/
def recordOk (w : List Nat) : Bool :=
  let f := fun (i : Nat) => w.getD i 0
  let r := recOf w
  bits (f 0) 63 52 == 0 && bits (f 2) 63 42 == 0 && bits (f 4) 15 8 == 0 && bits (f 6) 63 40 == 0 &&
    bits (f 6) 7 5 == 0 && r.wcode != 3 &&
    r.entry % 4 == 0 && r.frame % 8 == 0 && decide (r.frame < 2 ^ 48) && r.succ % 64 == 0 && decide (r.succ < 2 ^ 48) &&
    (if r.paired then decide (2 ≤ r.gangs ∧ r.gangs ≤ 32) && r.gangs % 2 == 0 else decide (1 ≤ r.gangs ∧ r.gangs ≤ 16)) &&
    decide (r.gangs * r.width ≤ 2048) && decide (r.demand ≤ 65536) && decide (r.abuf ≤ 128) && decide (r.wbuf ≤ 192) &&
    decide (1 ≤ r.regs ∧ r.regs ≤ 16) && r.tx * r.ty * r.tz == r.gangs * r.width &&
    decide (0 < r.gx ∧ 0 < r.gy ∧ 0 < r.gz) && decide (r.teams ≤ 2 ^ 32) &&
    (r.item || (r.ibase == 0 && r.icount == 0))

/-! ### Cores of a launch domain -/

/-- Whether a tenant holds its quads as fixed (17 R325). -/
def Tenant.holdsFixed (t : Tenant) : Bool := decide (2 ≤ t.state ∧ t.state ≤ 5) && !bit t.flags 0

/-- The quads of a lease. -/
def Lease.quads (l : Lease) : List Nat :=
  (List.range l.rows).flatMap (fun i => (List.range l.cols).map (fun j => 96 * (l.row0 + i) + (l.col0 + j)))

/-- The tenants of a lease that exist. -/
def State.tenantNumbers (s : State) (lease : Nat) : List Nat :=
  (List.range 16).filter (fun n => (assocGet? s.tenants (tkey lease n)).isSome)

/-- The quads on which a domain's teams may be placed, voids left out (03 R49, 17 R325). -/
def State.domQuads (s : State) (d : Dom) : List Nat :=
  match d with
  | .tenant l n => (s.tenantQuads l n).filter (fun q => !s.voidQuad q)
  | .lsq l =>
    match s.lease? l with
    | none => []
    | some x =>
      let fixed := ((s.tenantNumbers l).filter (fun n => (s.tenantOf (tkey l n)).holdsFixed)).flatMap (s.tenantQuads l)
      x.quads.filter (fun q => !s.voidQuad q && !isIn fixed q)

/-- How many teams of a record fit on an empty core (03 R61); no limit when every term is omitted. -/
def Rec.perCore (r : Rec) : Option Nat :=
  let g := r.gangsPerCore
  let term := fun (n d : Nat) => if d = 0 then none else some (n / d)
  [term 32 g, term 65536 (8 * r.regs * (g * r.width)), term 128 r.abuf, term 192 r.wbuf].foldl (fun m t =>
    match m, t with
    | some x, some y => some (min x y)
    | none, y => y
    | x, none => x) none

/-- Whether a cooperative record exceeds its domain's capacity (03 R61). A reserved WCODE fits nowhere (log entry 23). -/
def State.neverFits (s : State) (d : Dom) (r : Rec) : Bool :=
  r.coop && (match r.perCore with
    | none => false
    | some c =>
      r.wcode == 3 || decide (c * (s.domQuads d).length * (if r.paired then 2 else 4) < r.teams))

/-! ### Queue control blocks -/

/-- The queue q of a domain; the lease service queue is one (17 R325). -/
def State.queueOf (s : State) (d : Dom) (q : Nat) : Queue :=
  match d with
  | .tenant l n => assocGet {} (s.tenantOf (tkey l n)).queues q
  | .lsq l =>
    match s.lease? l with
    | some x => x.lsq
    | none => {}

def State.setQueue (s : State) (d : Dom) (q : Nat) (x : Queue) : State :=
  match d with
  | .tenant l n => s.onTenant (tkey l n) (fun t => { t with queues := assocSet t.queues q x })
  | .lsq l =>
    match s.lease? l with
    | some y => s.setLease l { y with lsq := x }
    | none => s

def State.onQueue (s : State) (d : Dom) (q : Nat) (f : Queue → Queue) : State := s.setQueue d q (f (s.queueOf d q))

/-- How many queues a domain has (03 R49). -/
def State.queueCount (s : State) (d : Dom) : Nat :=
  match d with
  | .tenant l n => bits (s.tenantOf (tkey l n)).queuesW 31 16
  | .lsq _ => 1

/-- Entries in the ring that the dispatcher has not taken. -/
def Queue.used (x : Queue) : Nat := (x.tail + 2 ^ 32 - x.head) % 2 ^ 32

def Queue.full (x : Queue) : Bool := x.used == 2 ^ x.logsz

/-- The address of ring entry i (03 R54). -/
def Queue.slotAddr (x : Queue) (i : Nat) : Nat := x.qbase + 8 * (i % 2 ^ x.logsz)

/-- A write of QBASE (03 R53). -/
def State.queueBase (s : State) (d : Dom) (q v : Nat) : State :=
  s.onQueue d q (fun x => if x.en then x else { x with qbase := v % 2 ^ 64 })

/-- A queue after a write of its control doubleword (03 R53): a write that sets EN is checked, and empties the queue. -/
def Queue.control (x : Queue) (v : Nat) : Queue :=
  if x.en then { x with en := bit v 31 }
  else
    let y : Queue := { x with wm1 := bits v 13 10, prio := bits v 9 8, logsz := bits v 4 0 }
    let ok := decide (4 ≤ y.logsz ∧ y.logsz ≤ 20) && bits x.qbase 63 48 == 0 && bits x.qbase 5 0 == 0 &&
      bits v 63 32 == 0 && bits v 30 14 == 0 && bits v 7 5 == 0
    if bit v 31 && ok then
      { y with en := true, head := 0, tail := 0, held := [], stalled := false, waiting := [], dead := [], vcs := [] }
    else y

/-- A write of CLR (03 R53). -/
def State.queueClear (s : State) (d : Dom) (q v : Nat) : State :=
  s.onQueue d q (fun x => if bit v 0 then { x with drops := 0, badw := false } else x)

/-- A doubleword of a queue block (03 R53). -/
def Queue.read (x : Queue) (off : Nat) : Nat :=
  match off with
  | 0x00 => x.qbase
  | 0x08 => ofBool x.en * 2 ^ 31 + x.wm1 * 2 ^ 10 + x.prio * 2 ^ 8 + x.logsz
  | 0x10 => x.tail * 2 ^ 32 + x.head
  | 0x20 => x.drops * 2 ^ 16 + x.held.length * 2 ^ 8 + x.last * 2 ^ 4 + ofBool x.coophold * 2 ^ 3 + ofBool x.badw * 2 ^ 2 +
      ofBool x.full * 2
  | _ => 0

/-! ### The hardware's accesses (03 R382) -/

/-- The context of the dispatcher's accesses (08 R174); it walks for no core. -/
def domCtx (d : Dom) : Ctx :=
  match d with
  | .tenant l n => ⟨l, some n, 1, 21504, true⟩
  | .lsq l => ⟨l, none, 2, 21504, true⟩

/-- The buffer of the level that handles a fault of the domain's accesses, and the domain's tag and generation. -/
def State.domFb (s : State) (d : Dom) (owner : Nat) : FbRef × Nat × Nat :=
  match d with
  | .tenant l n =>
    (if owner = 1 then s.tenantFb l n else if owner = 2 then .lease l else .owner,
      (s.tenantOf (tkey l n)).tag.getD 0, (s.tenantOf (tkey l n)).pgen)
  | .lsq l => (if owner ≤ 2 then .lease l else .owner, 0, 0)

/-- A faulted access posts a TYPE 9 entry and waits for its answer. -/
def State.hwFault (s : State) (d : Dom) (f : TFault) (va : Nat) (acc : HwAccess) : State :=
  let (fb, tag, pgen) := s.domFb d (causeOwner f.cause f.synd)
  (s.postRequest fb
    { type := 9, lvl := (domCtx d).level, tag := tag, cause := f.cause, pgen := pgen, addr := va, synd := f.synd }
    (.hw d acc)).2

/-- Whether an access is one for the ring of queue q (03 R382). -/
def HwAccess.ofRing (a : HwAccess) (q : Nat) : Bool :=
  match a with
  | .takeEntry k => k == q
  | .takeRecord k _ => k == q
  | .takeFrame k _ _ => k == q
  | .ringWrite k _ _ => k == q
  | _ => false

/-- The outstanding accesses for the ring of a queue are for nothing any more (03 R53). -/
def State.disown (s : State) (d : Dom) (q : Nat) : State :=
  let lose := fun (e : Dom) (a : HwAccess) => if e == d && a.ofRing q then HwAccess.gone else a
  let s : State := [1, 2, 3].foldl (fun s o =>
    let r := (s.domFb d o).1
    let f := s.getFb r
    s.setFb r { f with reqs := f.reqs.map (fun p => (p.1, p.2.1, match p.2.2 with
      | .hw e a => .hw e (lose e a)
      | k => k)) }) s
  match d with
  | .tenant l n => s.onTenant (tkey l n) (fun t => { t with answers := t.answers.map (fun a => (a.1, lose a.1 a.2.1, a.2.2)) })
  | .lsq _ => s

/-- A write of the control doubleword of a queue (03 R53): enabling it discards what its ring held. -/
def State.queueCtl (s : State) (d : Dom) (q v : Nat) : State :=
  let x := s.queueOf d q
  let s : State := s.setQueue d q (x.control v)
  if (x.control v).en && !x.en then s.disown d q else s

/-- The write of 0xFFFF_FFFF into a record's WAIT with the TYPE 3 entry (01 R17, 03 R58); a fault on the write skips
it and is shown in INFO. -/
def State.refuseRecord (s : State) (d : Dom) (addr : Nat) : State :=
  let (s, skipped) : State × Bool := match s.hwStore (domCtx d) (addr + 0x10) (leBytes 4 0xFFFFFFFF) 1 with
    | (s, .ok _) => (s, false)
    | (s, .error _) => (s, true)
  let (fb, tag, pgen) := s.domFb d 1
  s.post fb { type := 3, lvl := match d with
                | .tenant _ _ => 0
                | .lsq _ => 2
              tag := tag, cause := 0x14, pgen := pgen, addr := addr, info := ofBool skipped }

/-! ### Appends -/

/-- Whether a domain's state accepts appends (03 R55, R57). -/
def State.domAccepts (s : State) (d : Dom) : Bool :=
  match d with
  | .tenant l n => decide (2 ≤ (s.tenantOf (tkey l n)).state ∧ (s.tenantOf (tkey l n)).state ≤ 5)
  | .lsq l => (s.lease? l).isSome

/-- The doublewords of a record that the check of 03 R61 reads. -/
def State.readForFit (s : State) (d : Dom) (addr : Nat) : State × Except (TFault × Nat) Rec :=
  match s.hwLoad (domCtx d) addr 64 0 with
  | (s, .error f) => (s, .error f)
  | (s, .ok bs) => (s, .ok (recOf (dwords bs)))

/-- The code of an append and the fault of its record read, if it faulted (03 R55, R61). -/
def State.appendCode (s : State) (d : Dom) (q addr : Nat) : State × Nat × Option (TFault × Nat) :=
  let x := s.queueOf d q
  if s.queueCount d ≤ q then (s, 3, none)
  else if !x.en || !s.domAccepts d then (s, 2, none)
  else if addr % 64 ≠ 0 ∨ 2 ^ 48 ≤ addr then (s, 5, none)
  else
    let (s, r) := s.readForFit d addr
    let full := if x.full || !x.held.isEmpty then 1 else 0
    match r with
    | .error f => (s, full, some f)
    | .ok r => (s, if s.neverFits d r then 4 else full, none)

/-- An address takes the next slot of a ring (03 R54, R56). -/
def State.ringPut (s : State) (d : Dom) (q addr : Nat) (vc : Clock) : State :=
  let x := s.queueOf d q
  let (s, r) := s.hwStore (domCtx d) (x.slotAddr x.tail) (leBytes 8 addr) 1
  let s : State := s.onQueue d q (fun y => { y with tail := (x.tail + 1) % 2 ^ 32, vcs := assocSet y.vcs x.tail vc })
  match r with
  | .ok _ => s
  | .error (f, va) =>
    (s.onQueue d q (fun y => { y with waiting := y.waiting ++ [x.tail] })).hwFault d f va (.ringWrite q x.tail addr)

/-- An append of a host, a `cfgw` or a `wpush`, once its code is known. DESIGN CHOICE: a refusal with code 3 names no queue whose
DROPS could count it, and is counted nowhere; 03 R55 names none (log entry 111). -/
def State.appendAs (s : State) (d : Dom) (q addr code : Nat) (vc : Clock) (last : Bool) : State :=
  let s : State := if code = 0 then s.ringPut d q addr vc
    else if code = 3 then s
    else s.onQueue d q (fun x => { x with drops := min 0xFFFF (x.drops + 1) })
  if last ∧ code ≠ 3 then s.onQueue d q (fun x => { x with last := code }) else s

/-- An append by a host or by a `cfgw` (03 R55): a fault on the record read does not hold it back. -/
def State.append (s : State) (d : Dom) (q addr : Nat) (vc : Clock) : State :=
  let (s, code, _) := s.appendCode d q addr
  s.appendAs d q addr code vc true

/-- Held entries move into the ring while it has room (03 R58). -/
def State.drainHeld (s : State) (d : Dom) (q : Nat) : Nat → State
  | 0 => s
  | n + 1 =>
    let x := s.queueOf d q
    match x.held with
    | [] => s
    | (a, vc) :: rest =>
      if x.full || !x.en then s
      else ((s.onQueue d q (fun y => { y with held := rest })).ringPut d q a vc).drainHeld d q n

/-- The join-driven append of a record (03 R58, R382). -/
def State.joinAppend (s : State) (d : Dom) (addr : Nat) (vc : Clock) : State :=
  match s.readForFit d addr with
  | (s, .error (f, va)) => s.hwFault d f va (.joinRead addr vc)
  | (s, .ok r) =>
    let q := match d with
      | .tenant _ _ => r.queue
      | .lsq _ => 0
    if s.queueCount d ≤ q || !(s.queueOf d q).en || !s.domAccepts d || s.neverFits d r then s.refuseRecord d addr
    else
      let s : State := s.drainHeld d q 64
      let x := s.queueOf d q
      if x.held.isEmpty && !x.full then s.ringPut d q addr vc
      else if 64 ≤ x.held.length then s.refuseRecord d addr
      else s.onQueue d q (fun y => { y with held := y.held ++ [(addr, vc)] })

/-- The indivisible decrement of a record's WAIT by the hardware, translated as a write (01 R19, 03 R382): the old value
with the word's number, or the fault. A WAIT of zero is left as it is. -/
def State.decrementWait (s : State) (c : Ctx) (addr : Nat) (pubs : List Sync) : State × Except (TFault × Nat) (Nat × Nat) :=
  let va := addr + 0x10
  match s.hwXlat c va 1 (.atomic 12) with
  | (s, .error f) => (s, .error (f, va))
  | (s, .ok x) =>
    match (if x.kind = 1 then s.hostAnswer c 1 else (s, none)) with
    | (s, some f) => (s, .error (f, va))
    | (s, none) =>
      let s : State := s.reviveNow x
      let key := if x.kind = 1 then hostKey (bits (s.vfOf c) 9 7) x.pa else x.pa
      let old := if x.kind = 1 then memNat s.host key 4 else s.hwNat key 4
      if old = 0 then (s, .ok (0, key / 4))
      else
        let bs := leBytes 4 (old - 1)
        let s : State := { s with syncs := syncWrite s.syncs (key / 4) true pubs }
        if x.kind = 1 then ({ s with host := memWrite s.host key bs }, .ok (old, key / 4))
        else (((s.hwTouch c x 4 true).hwPut key bs).fireMonitors (lineOf key), .ok (old, key / 4))

/-! ### Writes by a host (03 R51, R52) -/

/-- Whether a function takes MMIO: when it is bound under TDISP, in the RUN state only. -/
def State.mmioOk (s : State) (port vfn : Nat) : Bool :=
  match assocGet? s.fns (port * 128 + vfn) with
  | none => true
  | some f => f.tdisp == 0 || f.tdisp == 2

/-- Whether a host's write reaches the queues of a domain: through the function of its tenant or of its lease, which takes
MMIO. -/
def State.hostReaches (s : State) (d : Dom) : Bool :=
  match d with
  | .tenant l n =>
    let t := s.tenantOf (tkey l n)
    decide (2 ≤ t.state) && bits t.vf 6 0 != 0 && s.mmioOk (bits t.vf 9 7) (bits t.vf 6 0)
  | .lsq l =>
    match s.lease? l with
    | some x => x.vfn != 0 && s.mmioOk x.port x.vfn
    | none => false

/-- Whether a host's write reaches the block of a fault buffer (17 R337): through the function of its level, which takes MMIO;
the owner's is the physical function of port 0 (log entry 110). -/
def State.fbReaches (s : State) (r : FbRef) : Bool :=
  match r with
  | .tenant l n => s.hostReaches (.tenant l n)
  | .lease l => s.hostReaches (.lsq l)
  | .owner => s.mmioOk 0 0

end Sys2Proof.Machine
end

