-- ==== Sys2Proof/Machine/Sync.lean ====
section
/-! DEFINITION. Fences and `sdrain`, round words, monitors, and the cache and discard words (09 R215 to R217; 12 R284
to R294). A word that must wait parks its lanes; the wake of a parked group completes the word. -/
namespace Sys2Proof.Machine

/-! ### Parked groups -/

/-- The parked group w of a gang. -/
def State.wait? (s : State) (gid w : Nat) : Option Wait := (s.gang? gid).bind (fun g => assocGet? g.waits w)

/-- Change a parked group. -/
def State.onWait (s : State) (gid w : Nat) (f : Wait → Wait) : State :=
  s.onGang gid (fun g =>
    match assocGet? g.waits w with
    | some x => { g with waits := assocSet g.waits w (f x) }
    | none => g)

/-- A parked group traps at its word. -/
def State.trapWait (s : State) (gid w : Nat) (i : TrapInfo) : State :=
  match s.gang? gid with
  | none => s
  | some g =>
    match assocGet? g.waits w with
    | none => s
    | some x =>
      let y := g.lane (lowBit 64 x.mask.toNat)
      (s.unpark gid w false).trapLanes gid x.mask y.pc y.rep x.tword i

/-- The lanes of a parked group that hold store-fault records leave it for the frame that delivers them (17 R335). -/
def State.deliverWait (s : State) (gid w : Nat) : State :=
  match s.gang? gid with
  | none => s
  | some g =>
    match assocGet? g.waits w with
    | none => s
    | some x =>
      let due := s.dueLanes gid x.mask true
      if due = 0 then s
      else
        let y := g.lane (lowBit 64 x.mask.toNat)
        let rest := x.mask &&& ~~~due
        let s : State := s.onGang gid (fun g => { g.mapLanes due (fun _ z => { z with parked := false, sw := false }) with
          waits := if rest = 0 then assocErase g.waits w else assocSet g.waits w { x with mask := rest } })
        s.deliver gid due true y.pc y.rep x.tword

/-! ### Fences and sdrain -/

/-- Whether a load of lanes of a gang has neither written its destination nor trapped (12 R286). -/
def Gang.loadsPending (g : Gang) (m : Mask) : Bool := g.results.any (fun p => p.2.isLoad && m.getLsbD p.2.lane)

/-- Whether the waits of a fence of order 1 acq, 2 rel, 3 sc, or of `sdrain` (order 4), are met (12 R286, 09 R217). -/
def State.fenceReady (s : State) (gid : Nat) (m : Mask) (ord scope : Nat) : Bool :=
  (ord % 2 == 0 || (match s.gang? gid with
    | some g => !g.loadsPending m
    | none => true)) &&
  (ord == 1 || ord == 4 || !s.accessPending gid m scope) && (ord != 4 || !s.storesPending gid m 2)

/-- What a fence of lanes of a gang does once its waits are met: a release side publishes through the later writes of
each lane, an acquire side takes what its earlier reads read (11 R258), pins dissolve (11 R268). -/
def State.fenceEffect (s : State) (gid : Nat) (m : Mask) (ord scope : Nat) : State :=
  match s.gang? gid with
  | none => s
  | some g =>
    match s.team? g.team with
    | none => s
    | some t =>
      let field := fieldOfCore g.core
      let s : State := if ord = 1 ∨ ord = 3 then
          s.onGang gid (fun g => g.mapLanes m (fun _ x =>
            { x with vc := clockJoin x.vc (syncsFor x.readSyncs scope g.team field t.part) }))
        else s
      if ord = 2 ∨ ord = 3 then
        let s : State := s.onGang gid (fun g => g.mapLanes m (fun _ x => { x with
          fenceSyncs := ⟨x.vc, scope, g.team, field, t.lease, t.part⟩ :: x.fenceSyncs.filter (fun y => y.scope != scope) }))
        let lead := s.leadClock gid m
        (s.releaseLanes gid m).2.releasePins g.team g.core scope lead
      else s

/-- A fence or `sdrain` of the acting cohort: it goes on at once when its waits are met, and parks otherwise. The lanes of
an `sdrain` without records go on once the traps of the others have been handled (09 R217). -/
def State.fenceWord (s : State) (ord scope : Nat) : State :=
  s.act fun a =>
    if s.fenceReady a.gid a.co.mask ord scope then
      let due := if ord = 1 then 0 else s.dueLanes a.gid a.co.mask true
      let s : State := (s.issue.leave due).deliver a.gid due true a.pc a.co.repIdx a.co.word
      s.act fun b =>
        let s : State := s.fenceEffect b.gid b.co.mask ord scope
        if ord = 4 ∧ due ≠ 0 then s.parkAt b b.co.mask (.handled due (b.gang.lane b.leader).frame) else s.finish
    else s.issue.parkAt a a.co.mask (.fence ord scope)

/-- The parked group of a fence whose waits are met goes on (12 R286). -/
def State.fenceWake (s : State) (gid w ord scope : Nat) : State :=
  let due := match s.wait? gid w with
    | some x => s.dueLanes gid x.mask true
    | none => 0
  let s : State := if ord = 1 then s else s.deliverWait gid w
  match s.wait? gid w, s.gang? gid with
  | some x, some g =>
    let s : State := s.fenceEffect gid x.mask ord scope
    if ord = 4 ∧ due ≠ 0 then
      s.onWait gid w (fun y => { y with kind := .handled due (g.lane (lowBit 64 x.mask.toNat)).frame })
    else s.unpark gid w true
  | _, _ => s

/-- Whether a lane waits for one of the eight frames of its gang (17 R324). -/
def Gang.awaitsFrame (g : Gang) (l : Nat) : Bool :=
  g.waits.any (fun w => w.2.mask.getLsbD l && (match w.2.kind with
    | .frame _ _ _ _ _ _ _ => true
    | _ => false))

/-- Whether the traps that lanes took from a frame have been handled (09 R217): each lane stands in that frame again, or has
exited. -/
def Gang.handled (g : Gang) (m : Mask) (frame : Option Nat) : Bool :=
  (lanesOf m).all (fun l => !(g.lane l).live || ((g.lane l).frame == frame && !g.awaitsFrame l))

/-- FENCE (R286, R287). -/
def execFence (sc o : Fin 4) (s : State) : Host.Outcome State Fault Refusal := .next (s.fenceWord o.val sc.val)

/-- SDRAIN (R217). -/
def execSdrain (s : State) : Host.Outcome State Fault Refusal := .next (s.fenceWord 4 2)

/-! ### Rounds -/

/-- A partition by its coherence number: of a tenant n below 16, else of the lease service code (17 R325). -/
def partKey (lease n : Nat) : Nat := tkey lease (min n 16)

/-- The quads of a team's partition. -/
def State.partQuads (s : State) (t : Team) : List Nat :=
  match t.tenant with
  | some n => s.tenantQuads t.lease n
  | none => s.domQuads (.lsq t.lease)

/-- Every view of region k in a partition: its cores and the home slices of its fields (11 R278). -/
def State.viewKeys (s : State) (t : Team) (k : Nat) : List Nat :=
  let qs := s.partQuads t
  let fs := (List.range 84).filter (fun f => isIn (qs.map fieldOfQuad) f)
  qs.flatMap (fun q => (List.range 4).map (fun c => viewKeyCore (4 * q + c) k)) ++
    fs.flatMap (fun f => (List.range 32).map (fun i => viewKeyHome (32 * f + i) k))

def Tenant.count (t : Tenant) (k : Nat) : Nat := assocGet 0 t.cnt k

/-- A view rises to a value and never falls. -/
def Tenant.raiseView (t : Tenant) (key c : Nat) : Tenant := { t with views := assocSet t.views key (max (t.view key) c) }

/-- A gang obtains round value c of region k: its core's view and its floor rise (11 R282). -/
def State.obtainRound (s : State) (gid part core k c : Nat) : State :=
  (s.onPart part (·.raiseView (viewKeyCore core k) c)).onGang gid (fun g =>
    { g with floors := assocSet g.floors k (max (assocGet 0 g.floors k) c) })

/-- RADV (R288). -/
def execRadv (d : Fin 128) (k : Fin 32) (s : State) : Host.Outcome State Fault Refusal :=
  .next (s.atRelease 2 (fun s => s.act fun a =>
    let part := a.team.part
    let lead := s.leadClock a.gid a.co.mask
    let (vc, s) := s.issue.releaseLanes a.gid a.co.mask
    let s : State := s.releasePins a.gang.team a.gang.core 2 lead
    let old := (s.tenantOf part).count k.val
    if old = 0xFFFFFFFF then s.trap a.co.mask { cause := 0x16, tinfo := 2 ^ 31 + k.val }
    else
      let c := old + 1
      let keys := (s.viewKeys a.team k.val).filter (· != viewKeyCore a.gang.core k.val)
      let s : State := s.onPart part (fun t => { t with
        cnt := assocSet t.cnt k.val c
        cntVc := assocSet t.cntVc k.val (clockJoin (assocGet [] t.cntVc k.val) vc)
        bcasts := t.bcasts ++ keys.map (fun y => (y, c, s.now)) })
      let s : State := s.obtainRound a.gid part a.gang.core k.val c
      (a.lanes.foldl (fun s l => s.pendLane a.gid l false [(d.val, BitVec.ofNat 32 c)]) s).finish))

/-- What `racq` does once CNT_k has reached its minimum (12 R289). -/
def State.roundEffect (s : State) (gid : Nat) (m : Mask) (part core d k : Nat) : State :=
  let c := (s.tenantOf part).count k
  let s : State := (s.acquireLanes gid m (assocGet [] (s.tenantOf part).cntVc k)).obtainRound gid part core k c
  (lanesOf m).foldl (fun s l => s.pendLane gid l false [(d, BitVec.ofNat 32 c)]) s

/-- RACQ (R289): the cohort parks when the counter is below its largest minimum. -/
def execRacq (d va : Fin 128) (k : Fin 32) (s : State) : Host.Outcome State Fault Refusal :=
  .next (s.act fun a =>
    let m := a.lanes.foldl (fun m l => max m (s.reg a.gang l va.val).toNat) 0
    if m ≤ (s.tenantOf a.team.part).count k.val then
      (s.issue.roundEffect a.gid a.co.mask a.team.part a.gang.core d.val k.val).finish
    else s.issue.parkAt a a.co.mask (.round d.val k.val m))

/-- The parked group of a `racq` whose counter has reached the minimum goes on. -/
def State.roundWake (s : State) (gid w d k : Nat) : State :=
  match s.wait? gid w, s.gang? gid with
  | some x, some g =>
    match s.team? g.team with
    | none => s
    | some t => (s.roundEffect gid x.mask t.part g.core d k).unpark gid w true
  | _, _ => s

/-- RVIEW (R290). -/
def execRview (d : Fin 128) (k : Fin 32) (s : State) : Host.Outcome State Fault Refusal :=
  .next (s.laneValue false d.val (fun a _ =>
    BitVec.ofNat 32 ((s.tenantOf a.team.part).view (viewKeyCore a.gang.core k.val))))

/-- RVIEW_CNT (R290). -/
def execRviewCnt (d : Fin 128) (k : Fin 32) (s : State) : Host.Outcome State Fault Refusal :=
  .next (s.laneValue false d.val (fun a _ => BitVec.ofNat 32 ((s.tenantOf a.team.part).count k.val)))

/-! ### Monitors -/

/-- A lane's monitor is unarmed (12 R293). -/
def State.unarm (s : State) (gid l : Nat) : State :=
  { s.onGang gid (fun g => g.mapLanes (maskOf [l]) (fun _ x => { x with monitor := none })) with
    monRegs := s.monRegs.filter (fun r => !(r.gang == gid && r.lane == l)) }

/-- The oldest registration of a home slice lapses when the slice holds more than 4,096 (12 R293). -/
def State.trimMonitors (s : State) (home : Nat) : State :=
  let here := s.monRegs.filter (fun r => r.home == home && (s.pinOf r.line).isNone)
  if here.length ≤ 4096 then s
  else
    match here with
    | [] => s
    | o :: _ => s.lapseMonitors (fun r => r == o)

/-- The core of a lane that has armed its monitor waits for the updates that the home of the line applied before
(12 R294). -/
def State.armedWait (s : State) (a : Acting) (l va : Nat) (x : Xlat) : State :=
  let line := lineOf x.pa
  if s.copyAt a.gang.core line then
    let g : GWord := { op := .armed, size := 0, acc := 0, addr := fun _ _ _ => va }
    State.setAccess { s with nextId := s.nextId + 1 } s.nextId
      { s.mkAccess a g l { x with pa := 64 * line } [] with phase := .updating [a.gang.core], applied := s.nextId }
  else s

/-- A lane's monitor is armed and registered (12 R291). -/
def State.armMonitor (s : State) (a : Acting) (l va : Nat) (x : Xlat) : State :=
  let s : State := s.unarm a.gid l
  let home := s.homeOf a.ctx x
  let s : State := s.onGang a.gid (fun g => g.mapLanes (maskOf [l]) (fun _ y =>
    { y with monitor := some { line := lineOf x.pa, va := va } }))
  let xten := tkey a.team.lease (a.team.xten.getD 16)
  let s : State := { s with monRegs := s.monRegs ++ [⟨lineOf x.pa, a.gid, l, home, a.team.part, xten, x.aidx⟩] }
  (s.armedWait a l va x).trimMonitors home

/-- Whether another team than the acting one holds a line pinned. -/
def State.pinnedByOther (s : State) (a : Acting) (line : Nat) : Bool :=
  match s.pinOf line with
  | some (_, p) => p.team != a.gang.team
  | none => false

/-- A monitor's line as its lane checks it: the translation of a read, and the kinds that take no monitor (12 R291). -/
def State.monCheck (s : State) (a : Acting) (l va : Nat) : State × Except TFault Xlat :=
  match s.xlate l a.ctx va 0 false with
  | (s, .ok y) => (s, match s.hostCheck a.ctx .armed 0 y with
    | some f => .error f
    | none => .ok y)
  | (s, .error f) => (s.migrateHint a.ctx a.gang.slot l va f, .error f)

/-- MON (R291). A lane whose line another team pins is refused, and tries again every 64 enabled cycles with the cohort at
its word; at its 16,384th refusal it takes 0x0D (09 R197, 11 R267). The other lanes arm at once. -/
def execMon (va : Fin 128) (s : State) : Host.Outcome State Fault Refusal :=
  let addr := fun (s : State) (a : Acting) (l : Nat) => s.pair a.gang l va.val
  if s.ownerOutside addr then .fault .noMemory
  else .next (s.act fun a =>
    if s.enabled a.gang.core < a.co.nextTry then s
    else
      let r : State × List (Nat × Nat × Except TFault Xlat) := (lanesOf (a.co.mask &&& ~~~a.co.done)).foldl (fun r l =>
        let c := r.1.monCheck a l (addr s a l)
        (c.1, r.2 ++ [(l, addr s a l, c.2)])) (s, [])
      let refused := fun (x : Except TFault Xlat) => match x with
        | .ok y => s.pinnedByOther a (lineOf y.pa)
        | .error _ => false
      let armed : State := r.2.foldl (fun s p => match p.2.2 with
        | .ok y => if refused p.2.2 then s else s.armMonitor a p.1 p.2.1 y
        | .error _ => s) r.1
      if r.2.any (fun p => refused p.2.2) ∧ a.co.mark + 1 < 16384 then
        armed.onCohort (fun c => { c with
          mark := c.mark + 1, nextTry := s.enabled a.gang.core + 64
          done := c.done ||| maskOf ((r.2.filter (fun p => p.2.2.isOk && !refused p.2.2)).map (·.1)) })
      else
        (armed.issue.trapEach (r.2.filterMap (fun p => match p.2.2 with
          | .ok _ => if refused p.2.2 then some (p.1, { cause := 0x0D, taddr := p.2.1 }) else none
          | .error f => some (p.1, { cause := f.cause, tinfo := f.synd, taddr := p.2.1 })))).finish)

/-- The status that ends a parked lane's `mwait`, if it ends (12 R292, R294): 2 unarmed, 0 lapsed or fired before the
deadline, 1 at the deadline. -/
def mwaitStatus (m : Option Monitor) (now deadline : Nat) : Option Nat :=
  match m with
  | none => some 2
  | some x =>
    if x.lapsed || (x.fired && decide (x.since < deadline)) then some 0
    else if deadline ≤ now then some 1
    else none

/-- A lane leaves its `mwait` with a status that writes a register: status 0 clears fired. -/
def State.mwaitDone (s : State) (gid l d st : Nat) : State :=
  let s : State := if st = 0 then
      s.onGang gid (fun g => g.mapLanes (maskOf [l]) (fun _ x =>
        { x with monitor := x.monitor.map (fun m => { m with fired := false }) }))
    else s
  s.pendLane gid l false [(d, BitVec.ofNat 32 st)]

/-- The trap of `mwait.trap` at its deadline: TADDR is the line address. -/
def monitorTimeout (m : Option Monitor) : TrapInfo :=
  { cause := 0x0F, taddr := match m with
      | some x => x.va / 64 * 64
      | none => 0 }

/-- `mwait` and `mwait.trap`: the lanes whose wait is over write their status, and the others park one by one. -/
def State.mwaitWord (s : State) (d b : Fin 128) (trap : Bool) : State :=
  s.act fun a =>
    let outs : List (Nat × Nat × Option Nat) := a.lanes.map (fun l =>
      let v := (s.reg a.gang l b.val).toNat
      (l, s.now + v, match (a.gang.lane l).monitor with
        | none => some 2
        | some m => if m.fired || m.lapsed then some 0 else if v = 0 then some 1 else none))
    let s : State := outs.foldl (fun s p => match p.2.2 with
      | none => s.parkAt a (maskOf [p.1]) (.monitor d.val trap p.2.1)
      | some st => if st = 1 ∧ trap then s else s.mwaitDone a.gid p.1 d.val st) s.issue
    (s.trapEach (outs.filterMap (fun p =>
      if p.2.2 = some 1 ∧ trap then some (p.1, monitorTimeout (a.gang.lane p.1).monitor) else none))).finish

/-- MWAIT (R292). -/
def execMwait (d b : Fin 128) (s : State) : Host.Outcome State Fault Refusal := .next (s.mwaitWord d b false)

/-- MWAIT_TRAP (R292). -/
def execMwaitTrap (d b : Fin 128) (s : State) : Host.Outcome State Fault Refusal := .next (s.mwaitWord d b true)

/-- The wait of a parked lane's `mwait` is over with a status. -/
def State.mwaitWake (s : State) (gid w d : Nat) (trap : Bool) (st : Nat) : State :=
  match s.wait? gid w, s.gang? gid with
  | some x, some g =>
    let l := lowBit 64 x.mask.toNat
    if st = 1 ∧ trap then s.trapWait gid w (monitorTimeout (g.lane l).monitor)
    else (s.mwaitDone gid l d st).unpark gid w true
  | _, _ => s

/-- MUNARM (R293). -/
def execMunarm (s : State) : Host.Outcome State Fault Refusal :=
  .next (s.act fun a => (a.lanes.foldl (fun s l => s.unarm a.gid l) s.issue).finish)

/-! ### Cache and discard words -/

/-- A cache word for each lane whose address translates to a page of kind 0 and is not discarded; the others do
nothing (09 R215). -/
def State.cacheWord (s : State) (va : Fin 128) (f : State → Acting → Nat → Nat → Xlat → State) : State :=
  s.act fun a =>
    (a.lanes.foldl (fun s l =>
      let v := s.pair a.gang l va.val
      match s.xlate l a.ctx v 0 false with
      | (s, .ok x) => if x.kind = 0 ∧ x.pa < 84 * 2 ^ 35 then f s a l v x else s
      | (s, .error _) => s) s.issue).finish

/-- CINV (R215). -/
def execCinv (va : Fin 128) (s : State) : Host.Outcome State Fault Refusal :=
  .next (s.cacheWord va (fun s a _ _ x =>
    let line := lineOf x.pa
    let core := a.gang.core
    (s.combineCores line ([core].filter (isIn (assocGet [] s.holders line)))).spliceOut core line))

/-- A cache word's request is on its way to the home. -/
def State.sendCache (s : State) (a : Acting) (op : AccOp) (l v : Nat) (x : Xlat) : State :=
  let g : GWord := { op := op, size := 1, acc := 0, addr := fun _ _ _ => v }
  (State.setAccess { s with nextId := s.nextId + 1 } s.nextId (s.mkAccess a g l x [])).sendPacket s.nextId

/-- PFETCH (R215): the fill of a load without a destination. -/
def execPfetch (va : Fin 128) (s : State) : Host.Outcome State Fault Refusal :=
  .next (s.cacheWord va (fun s a l v x =>
    if (x.mode = 0 ∨ x.mode = 1 ∨ x.mode = 5) ∧ !s.reads0 x ∧ (s.pinOf (lineOf x.pa)).isNone then
      s.sendCache a .prefetch l v x
    else s))

/-- PFL2 (R215): the fill of the home slice alone. -/
def execPfl2 (va : Fin 128) (s : State) : Host.Outcome State Fault Refusal :=
  .next (s.cacheWord va (fun s a l v x =>
    if s.reads0 x ∨ s.inL2 (lineOf x.pa) then s else s.sendCache a .fillL2 l v x))

/-- Every copy of a page leaves the caches without write-back, with its partials; fills under way install none, accesses
that have not arrived find the page discarded, and its monitors lapse (09 R216, 12 R293). Its pins have been published. -/
def State.dropPage (s : State) (page : Nat) : State :=
  let inPage := fun (line : Nat) => line / 1024 == page
  let s : State := s.fillsPass (fun y => inPage (lineOf y.pa))
  let s : State := { s with
    sharers := s.sharers.filter (fun p => !inPage p.1)
    holders := s.holders.filter (fun p => !inPage p.1)
    l2 := s.l2.filter (fun l => !inPage l.1)
    cores := s.cores.map (fun c => (c.1, { c.2 with
      l1 := c.2.l1.filter (fun p => !inPage p.1)
      partials := c.2.partials.filter (fun p => p.1 / 2 / 2 ^ 16 != page) }))
    accesses := s.accesses.map (fun p => (p.1,
      if p.2.kind = 0 ∧ inPage (lineOf p.2.pa) then
        (match p.2.phase with
         | .updating _ => { p.2 with phase := .acked }
         | .toHome => { p.2 with disc := true }
         | .atCore => { p.2 with disc := true }
         | _ => p.2)
      else p.2)) }
  s.lapseMonitors (fun r => inPage r.line)

/-- The pins of a page dissolve, and with each of them every pin of its team (11 R268). -/
def State.publishPage (s : State) (page : Nat) : State :=
  (s.cores.flatMap (fun c => (c.2.pins.filter (fun p => p.1 / 1024 == page)).map (·.2.team))).dedup.foldl (fun s t =>
    s.publishPins t []) s

/-- The discard of a page by one lane (09 R216): 0 discarded, 1 already, 2 large page, 3 owner level. Lease service code
that translates by the extent map alone has no leaf, and its status is a free value. -/
def State.discardPage (s : State) (a : Acting) (l va : Nat) (x : Xlat) : State × Word :=
  if a.level = 3 then (s, 3)
  else if x.tabled = false then (s, Config.freeReg (2 * s.tick) l 128)
  else
    let own1 := decide (a.level < 2)
    let (e, at_, lv) := if own1 then (x.leaves.e1, x.leaves.a1, x.leaves.l1) else (x.leaves.e2, x.leaves.a2, x.leaves.l2)
    if lv ≠ 3 then (s, 2)
    else if bit e 10 then (s, 1)
    else
      let ten := tkey a.team.lease (a.team.xten.getD 16)
      let s : State := if x.kind = 0 then s.publishPage (x.pa / 2 ^ 16) else s
      let s : State := s.orEntry at_ e (2 ^ 10)
      let s : State := if x.kind = 0 then s.dropPage (x.pa / 2 ^ 16) else s
      (s.dropTlb (fun y => y.ten == ten && (y.vpage == va / 2 ^ 16 || y.leaves.la / 2 ^ 16 == x.leaves.la / 2 ^ 16)), 0)

/-- PDISC (R216): it waits at its word for the stores of its lanes. -/
def execPdisc (d va : Fin 128) (s : State) : Host.Outcome State Fault Refusal :=
  .next (s.act fun a =>
    if s.storesPending a.gid a.co.mask 2 then s
    else
      let r : State × List (Nat × TrapInfo) := a.lanes.foldl (fun r l =>
        let v := r.1.pair a.gang l va.val
        if v % 2 ^ 16 ≠ 0 then
          (r.1, r.2 ++ [(l, { cause := 0x04, tinfo := r.1.pick l 16 * 2 ^ 4, taddr := v })])
        else
          let fail := fun (s : State) (f : TFault) =>
            (s, r.2 ++ [(l, ({ cause := f.cause, tinfo := f.synd, taddr := v } : TrapInfo))])
          match r.1.walkNow a.ctx v 1 false with
          | (s, .error f) => fail (s.migrateHint a.ctx a.gang.slot l v f) f
          | (s, .ok x) =>
            match s.hostCheck a.ctx .store 1 x with
            | some f => fail s f
            | none =>
              let (s, st) := (s.markLeaves x.leaves false).discardPage a l v x
              (s.pendLane a.gid l false [(d.val, st)], r.2)) (s.issue, [])
      (r.1.trapEach r.2).finish)

end Sys2Proof.Machine
end

