-- ==== Sys2Proof/Machine/Semaphores.lean ====
section
/-! DEFINITION. The semaphores of the cores and their words (10 R224 to R228). -/
namespace Sys2Proof.Machine

/-- The core and key of semaphore N as a team on a core names it (10 R224): above 63 those of the partner core of a
paired team, none in an unpaired team. The teams of one partition share a core's set. -/
def semAt (t : Team) (core n : Nat) : Option (Nat × Nat) :=
  if n < 64 then some (core, 64 * t.part + n)
  else if t.paired then some (if core = t.core then t.core + 1 else t.core, 64 * t.part + (n - 64))
  else none

def State.sem (s : State) (p : Nat × Nat) : Sem := assocGet {} (s.core p.1).sems p.2

def State.setSem (s : State) (p : Nat × Nat) (x : Sem) : State :=
  s.onCore p.1 (fun c => { c with sems := assocSet c.sems p.2 x })

/-- A word of the semaphore words: engine traps that are due come first (10 R223), and a number above 63 traps in an
unpaired team (10 R226). -/
def State.semWord (s : State) (n : Fin 128) (k : State → Acting → Nat × Nat → State) : State :=
  s.takeDue.act fun a =>
    match semAt a.team a.gang.core n.val with
    | none => s.takeDue.issue.trap a.co.mask { cause := 0x15, tinfo := 5 }
    | some p => k s.takeDue a p

/-- SINC (R227): an overflow traps and changes nothing; the increment is a release at partition scope. -/
def execSinc (n b : Fin 128) (s : State) : Host.Outcome State Fault Refusal :=
  .next (s.semWord n (fun s a p =>
    let tooBig := fun (s : State) (a : Acting) => decide (2 ^ 32 - 1 < (s.sem p).value + (s.reg a.gang a.leader b.val).toNat)
    if tooBig s a then s.issue.trap a.co.mask { cause := 0x16, tinfo := n.val }
    else
      s.atRelease 2 (fun s => s.act fun a =>
        if tooBig s a then s.issue.trap a.co.mask { cause := 0x16, tinfo := n.val }
        else
          let x := (s.reg a.gang a.leader b.val).toNat
          let lead := s.leadClock a.gid a.co.mask
          let (vc, s) := s.issue.releaseLanes a.gid a.co.mask
          let s : State := s.releasePins a.gang.team a.gang.core 2 lead
          let y := s.sem p
          (s.setSem p { y with value := y.value + x, vc := clockJoin y.vc vc }).finish)))

/-- Whether a waiter on a semaphore may go on (10 R227). -/
def Sem.ready (y : Sem) (x : Nat) : Bool := y.err || decide (x ≤ y.value)

/-- What a waiter of lanes of a gang does when the semaphore has no error: it acquires, and `sdec` subtracts. -/
def State.semTake (s : State) (gid : Nat) (m : Mask) (p : Nat × Nat) (dec : Bool) (x : Nat) : State :=
  let y := s.sem p
  let s : State := s.acquireLanes gid m y.vc
  if dec then s.setSem p { y with value := y.value - x } else s

/-- `swait` and `sdec`: the cohort goes on at once, traps, or parks. -/
def State.semWait (s : State) (dec : Bool) (n b : Fin 128) : State :=
  s.semWord n (fun s a p =>
    let x := (s.reg a.gang a.leader b.val).toNat
    let y := s.sem p
    if y.err then s.issue.trap a.co.mask { cause := 0x1A, tinfo := n.val }
    else if y.ready x then (s.issue.semTake a.gid a.co.mask p dec x).finish
    else s.issue.parkAt a a.co.mask (.semaphore dec n.val x))

/-- The parked group of a `swait` or `sdec` whose semaphore is ready goes on. -/
def State.semWake (s : State) (gid w : Nat) (dec : Bool) (n x : Nat) : State :=
  match s.wait? gid w, s.gang? gid with
  | some y, some g =>
    match (s.team? g.team).bind (fun t => semAt t g.core n) with
    | none => s
    | some p =>
      if (s.sem p).err then s.trapWait gid w { cause := 0x1A, tinfo := n }
      else (s.semTake gid y.mask p dec x).unpark gid w true
  | _, _ => s

/-- SWAIT (R227). -/
def execSwait (n b : Fin 128) (s : State) : Host.Outcome State Fault Refusal := .next (s.semWait false n b)

/-- SDEC (R227). -/
def execSdec (n b : Fin 128) (s : State) : Host.Outcome State Fault Refusal := .next (s.semWait true n b)

/-- SSET (R227): the error and its record go too. -/
def execSset (n b : Fin 128) (s : State) : Host.Outcome State Fault Refusal :=
  .next (s.semWord n (fun s a p =>
    (s.issue.setSem p { value := (s.reg a.gang a.leader b.val).toNat }).finish))

/-- A word of a semaphore as `sget` reads it (10 R225). -/
def Sem.word (y : Sem) (w : Nat) : Nat :=
  match w with
  | 0 => y.value
  | 1 => y.faults * 2 ^ 16 + ofBool y.err
  | _ => y.record.getD (w - 2) 0

/-- SGET (R225, R227). -/
def execSget (d n : Fin 128) (w : Fin 16) (s : State) : Host.Outcome State Fault Refusal :=
  .next (s.semWord n (fun s _ p => s.laneValue false d.val (fun _ _ => BitVec.ofNat 32 ((s.sem p).word w.val))))

end Sys2Proof.Machine
end

