-- ==== Sys2Proof/Machine/Errors.lean ====
section
/-! DEFINITION. Errors of the on-chip memories: machine errors, health words, and double-bit errors of the buffers and
C-stores (08 R173; 10 R248; 17 R322; 19 R374). How an error comes about is an input (log entry 91). -/
namespace Sys2Proof.Machine

/-- Lease health word j counts n more (19 R374). -/
def Lease.countHealth (l : Lease) (j n : Nat) : Lease :=
  { l with health := assocSet l.health j ((assocGet 0 l.health j + n) % 2 ^ 64) }

/-- Health word j of the leases that hold a quad counts one more. -/
def State.countAt (s : State) (quad j : Nat) : State :=
  { s with leases := s.leases.map (fun l => (l.1, if isIn l.2.quads quad then l.2.countHealth j 1 else l.2)) }

/-- The entry of a machine error at a core (17 R338): its TAG and PGEN are those of the partition that last placed a team on the
core, and 0 for lease service code or none (DESIGN CHOICE, log entry 59). -/
def State.errorEntry (s : State) (core cause : Nat) : Entry :=
  let t : Tenant := match (s.core core).part with
    | some k => s.tenantOf k
    | none => {}
  { type := 7, lvl := 3, tag := t.tag.getD 0, cause := cause, pgen := t.pgen, core := core }

/-- A double-bit error goes to the owner (08 R173, 10 R248, 17 R338). -/
def State.machineError (s : State) (core : Nat) : State :=
  let s : State := s.post .owner (s.errorEntry core 0)
  State.countAt { s with outbox := s.outbox ++ [.machineError 1 core] } (quadOfCore core) 1

/-- A double-bit error that reaches a lane halts its team (17 R322). -/
def State.laneError (s : State) (core team : Nat) : State := (s.machineError core).hwHalt team 0x80000001

/-- Whether n bytes touch an 8-byte unit with a double-bit error; `es` are the bytes of such units that nothing has written
since. -/
def errIn (es : List Nat) (o n : Nat) : Bool := es.any (fun e => decide (e / 8 ≤ (o + n - 1) / 8 ∧ o / 8 ≤ e / 8))

/-- Errors with the bytes of a write taken out. -/
def errAfter (es : List Nat) (o n : Nat) : List Nat := es.filter (fun e => decide (e < o ∨ o + n ≤ e))

def State.bufErr (s : State) (wbuf : Bool) (core o n : Nat) : Bool :=
  errIn (if wbuf then (s.core core).wErr else (s.core core).aErr) o n

/-- A 64-byte unit of a buffer becomes poisoned (10 R249); what its code showed is then known. -/
def Core.poisonUnit (c : Core) (wbuf : Bool) (u : Nat) : Core :=
  if wbuf then { c with wBad := addIn c.wBad u, wErr := errAfter c.wErr (64 * u) 64 }
  else { c with aBad := addIn c.aBad u, aErr := errAfter c.aErr (64 * u) 64 }

/-- The error mode of a partition: bits [2:1] of its flags; poison mode is bit 2, the checksum bit 1 (10 R248). -/
def State.poisonMode (s : State) (ten : Nat) : Bool := bit (s.tenantOf ten).flags 2
def State.checksumMode (s : State) (ten : Nat) : Bool := bit (s.tenantOf ten).flags 1

end Sys2Proof.Machine
end

