-- ==== Sys2Proof/Machine/Scratch.lean ====
section
/-! DEFINITION. The scratch words of the A-buffer and W-buffer and the A-buffer atomics (08 R171 to R173; 09 R203
to R205, R211). -/
namespace Sys2Proof.Machine

/-- Where a scratch offset lies: the core and the byte of its buffer (08 R172); none outside the windows. The
partner of core c of a pair is the other core of the pair. -/
def scratchLoc (t : Team) (core : Nat) (wbuf : Bool) (o : Int) : Option (Nat × Nat) :=
  let side := if core = t.core then 0 else 1
  let base := fun (sd : Nat) => if wbuf then (if sd = 0 then t.wbase else t.wbase2)
    else (if sd = 0 then t.abase else t.abase2)
  let size : Nat := if wbuf then t.wsize else t.asize
  if 0 ≤ o ∧ o < size then some (core, base side + o.toNat)
  else if t.paired ∧ !wbuf ∧ 0x80000 ≤ o ∧ o < 0x80000 + (size : Int) then
    some (t.core + (1 - side), base (1 - side) + (o.toNat - 0x80000))
  else none

/-- A scratch offset (08 R172): the unsigned register plus the signed scaled immediate. -/
def scratchOff (s : State) (a : Acting) (l : Nat) (ra : Fin 128) (off : Int) : Int :=
  ((s.reg a.gang l ra.val).toNat : Int) + off

/-- Steps 1 and 2 of 09 R194 for a scratch access: 0x04, then 0x05. A negative offset is shown modulo 2^64
(log entry 22). -/
def scratchCheck (s : State) (a : Acting) (l : Nat) (ra : Fin 128) (off : Int) (size : Nat) (wbuf : Bool) :
    Except TrapInfo (Nat × Nat) :=
  let o := scratchOff s a l ra off
  let space := if wbuf then 2 else 1
  if o % size ≠ 0 then .error { cause := 0x04, tinfo := spaceInfo space size, taddr := wrap 64 o }
  else
    match scratchLoc a.team a.gang.core wbuf o with
    | none => .error { cause := 0x05, tinfo := spaceInfo space size, taddr := wrap 64 o }
    | some p => .ok p

def State.bufRead (s : State) (wbuf : Bool) (core o n : Nat) : List Byte :=
  memRead (if wbuf then (s.core core).wbuf else (s.core core).abuf) o n

def State.bufWrite (s : State) (wbuf : Bool) (core o : Nat) (bs : List Byte) : State :=
  s.onCore core (fun c =>
    if wbuf then { c with wbuf := memWrite c.wbuf o bs, wErr := errAfter c.wErr o bs.length }
    else { c with abuf := memWrite c.abuf o bs, aErr := errAfter c.aErr o bs.length })

/-! ### Older contents (09 R204; 10 R222, R242; log entry 90) -/

/-- Whether a write comes before what a gang, with a clock, does. -/
def OldUnit.before (e : OldUnit) (gang : Nat) (vc : Clock) : Bool := e.gang == gang || decide (e.clk ≤ assocGet 0 vc e.party)

/-- Whether a lane or a copy must see a write: one that comes before it, or an A-buffer atomic, which is indivisible against
every access to its word (09 R211). -/
def OldUnit.seenBy (e : OldUnit) (gang : Nat) (vc : Clock) : Bool := e.atomic || e.before gang vc

/-- The contents that a unit may show: what it holds, and what it held before each write that the reader need not see. -/
def unitChoices (olds : List OldUnit) (seen : OldUnit → Bool) (now : List Byte) : List (List Byte) :=
  now :: (olds.reverse.takeWhile (fun e => !seen e)).map (·.bytes)

/-- The older contents of a unit, the oldest first. -/
def unitOlds (olds : List OldUnit) (wbuf : Bool) (unit : Nat) : List OldUnit :=
  olds.filter (fun e => e.wbuf == wbuf && e.unit == unit)

/-- What a unit may show to a reader. -/
def State.unitViews (s : State) (wbuf : Bool) (core unit : Nat) (seen : OldUnit → Bool) : List (List Byte) :=
  unitChoices (unitOlds (s.core core).olds wbuf unit) seen (s.bufRead wbuf core (4 * unit) 4)

/-- n bytes as a reader finds them: each aligned 4-byte unit old or new, as a free choice where it need not see the newest
(09 R204). -/
def State.bufSeen (s : State) (wbuf : Bool) (core o n tag : Nat) (seen : OldUnit → Bool) : List Byte :=
  (List.range n).map (fun i =>
    let u := (o + i) / 4
    ((match s.unitViews wbuf core u seen with
      | [v] => v
      | vs => vs.getD (s.pick (2 ^ 40 * (tag + 1) + 2 ^ 20 * (2 * core + ofBool wbuf) + u) vs.length) [])).getD ((o + i) % 4) 0)

/-- The party that writes a buffer: its gang or copy, its party, its clock there, and the clock of what comes before it. -/
structure BufParty where
  gang : Nat
  party : Nat
  clk : Nat
  vc : Clock

/-- A lane as a party. -/
def Lane.bufParty (x : Lane) (gid l : Nat) : BufParty := ⟨gid, laneParty gid l, assocGet 0 x.vc (laneParty gid l), x.vc⟩

/-- Bytes of one unit replaced, by their offsets in it. -/
def patchUnit (bs : List Byte) (part : List (Nat × Byte)) : List Byte := part.foldl (fun bs p => bs.set p.1 p.2) bs

/-- A party writes bytes of one unit. A write of another party that neither comes before it nor after it may come out as the
later one, as a free choice, unless the write is an atomic one (09 R204). -/
def State.unitPut (s : State) (w : BufParty) (wbuf : Bool) (core unit : Nat) (part : List (Nat × Byte)) (atomic : Bool) :
    State :=
  let olds := (s.core core).olds
  let now := s.bufRead wbuf core (4 * unit) 4
  let new : OldUnit :=
    { wbuf := wbuf, unit := unit, bytes := now, mask := part.map (·.1), gang := w.gang, party := w.party, clk := w.clk,
      atomic := atomic }
  let put := fun (s : State) (olds : List OldUnit) (part : List (Nat × Byte)) =>
    State.onCore (part.foldl (fun s p => s.bufWrite wbuf core (4 * unit + p.1) [p.2]) s) core (fun c => { c with olds := olds })
  match (unitOlds olds wbuf unit).getLast? with
  | none => put s (olds ++ [new]) part
  | some e =>
    if !atomic && !e.seenBy w.gang w.vc && s.pick (2 ^ 39 + 2 ^ 20 * (2 * core + ofBool wbuf) + unit) 2 == 1 then
      put s (olds.erase e ++ [{ new with bytes := e.bytes }, { e with bytes := patchUnit e.bytes part }])
        (part.filter (fun p => !isIn e.mask p.1))
    else put s (olds ++ [new]) part

/-- Bytes that a party writes, unit by unit. -/
def State.bufPut (s : State) (w : BufParty) (wbuf : Bool) (core o : Nat) (bs : List Byte) (atomic : Bool) : State :=
  let cells := (bs.zipIdx).map (fun p => (o + p.2, p.1))
  ((cells.map (fun p => p.1 / 4)).dedup).foldl (fun s u =>
    s.unitPut w wbuf core u ((cells.filter (fun p => p.1 / 4 == u)).map (fun p => (p.1 % 4, p.2))) atomic) s

/-- The older contents of units that p selects are out of reach. -/
def Core.forgetOlds (c : Core) (p : OldUnit → Bool) : Core := { c with olds := c.olds.filter (fun e => !p e) }

/-- The commands that a core accepts from now on see the writes that come before an `mfence` of lanes of a gang (10 R242). -/
def fenceOlds (olds : List OldUnit) (core number gid : Nat) (vcs : List Clock) : List OldUnit :=
  olds.map (fun e => if vcs.any (e.before gid) then { e with fenced := (core, number) :: e.fenced } else e)

/-- Whether a byte lies in a poisoned 64-byte unit (10 R249). -/
def State.bufBad (s : State) (wbuf : Bool) (core o : Nat) : Bool :=
  isIn (if wbuf then (s.core core).wBad else (s.core core).aBad) (o / 64)

/-- An A-buffer atomic that is in flight is applied to its word, and its result has its value (09 R211). -/
def State.scratchApply (s : State) (id : Nat) : State :=
  match s.access? id with
  | none => s
  | some x =>
    match x.phase, x.op with
    | .scratch, .atomic fn =>
      let core := x.pa / 2 ^ 20
      let o := x.pa % 2 ^ 20
      let old := ofLeBytes (s.bufRead false core o 4)
      (((s.bufPut ⟨x.gang, x.party, x.clk, x.vc⟩ false core o (leBytes 4 (atomicNew fn old (ofLeBytes x.data) x.cmp)) true).supply x.gang x.dst
        [BitVec.ofNat 32 old])).dropAccess id
    | _, _ => s

/-- Whether an access is an A-buffer atomic in flight of lanes of a gang. -/
def Access.scratchOf (x : Access) (gid : Nat) (m : Mask) : Bool := x.phase == .scratch && x.gang == gid && m.getLsbD x.lane

/-- The A-buffer atomics in flight of lanes of a gang are applied: a later scratch word of a lane follows them
(09 R204). -/
def State.landScratch (s : State) (gid : Nat) (m : Mask) : State :=
  (s.accesses.filter (fun p => p.2.scratchOf gid m)).foldl (fun s p => s.scratchApply p.1) s

/-- The acting cohort's word follows the A-buffer atomics of its lanes. -/
def State.afterScratch (s : State) (f : Acting → State → State) : State :=
  s.act fun a => (fun s : State => s.act fun a => f a s) (s.landScratch a.gid a.co.mask)

/-- Whether a lane's access, one of those that pass their checks, meets a double-bit error (08 R173). -/
def State.anyErr (s : State) (wbuf : Bool) (size : Nat) (ps : List (Nat × Nat)) : Bool :=
  ps.any (fun p => s.bufErr wbuf p.1 p.2 size)

/-- A scratch load (09 R203); a poisoned unit traps precisely with 0x12 (10 R249), and a double-bit error halts the team
(17 R322). Each unit is read old or new where nothing orders a write of another gang before it (09 R204). -/
def State.scratchLoad (s : State) (wbuf : Bool) (size : Nat) (d ra : Fin 128) (i : Fin 2048) : State :=
  s.afterScratch fun a s =>
    let n := (size + 3) / 4
    let met := s.anyErr wbuf size (a.lanes.filterMap (fun l =>
      (scratchCheck s a l ra (imm11 i * size) size wbuf).toOption))
    if met then s.issue.laneError a.gang.core a.gang.team
    else
    let outs : List (Nat × Except TrapInfo (List (Nat × Option Word))) := a.lanes.map (fun l => (l,
      match scratchCheck s a l ra (imm11 i * size) size wbuf with
      | .error e => .error e
      | .ok (c, o) =>
        if s.bufBad wbuf c o then
          .error { cause := 0x12, taddr := wrap 64 (scratchOff s a l ra (imm11 i * size)) }
        else
          .ok ((List.range n).zip (loadWords size false (s.bufSeen wbuf c o size l (fun e => e.seenBy a.gid (a.gang.lane l).vc))) |>.map
            (fun p => (d.val + p.1, some p.2)))))
    let s : State := s.issue
    let s : State := outs.foldl (fun s p => match p.2 with
      | .ok ws => { s.onGang a.gid (fun g => g.pend s.nextId p.1 false true false ws) with nextId := s.nextId + ws.length }
      | .error _ => s) s
    (s.trapEach (outs.filterMap (fun p => match p.2 with
      | .ok _ => none
      | .error e => some (p.1, e)))).finish

/-- A scratch store (09 R203 to R205): ascending lanes, so that the highest LANE's bytes stay; a failed check is
recorded (09 R200). `kind` is the KIND of its records. -/
def State.scratchStore (s : State) (wbuf : Bool) (size kind : Nat) (d ra : Fin 128) (i : Fin 2048) : State :=
  s.afterScratch fun _ s => s.storeWord fun s a lanes =>
    lanes.foldl (fun s l =>
      let bs := (s.regBytes a.gang l d.val ((size + 3) / 4)).take size
      match scratchCheck s a l ra (imm11 i * size) size wbuf with
      | .error e => s.placeRecord a.gang.core (a.record l kind size e.cause 0 e.taddr bs)
      | .ok (c, o) => s.bufPut ((a.gang.lane l).bufParty a.gid l) wbuf c o bs false) s

/-- LDA_H (R203). -/
def execLdaH (d a : Fin 128) (i : Fin 2048) (s : State) : Host.Outcome State Fault Refusal :=
  .next (s.scratchLoad false 2 d a i)

/-- LDA_W (R203). -/
def execLdaW (d a : Fin 128) (i : Fin 2048) (s : State) : Host.Outcome State Fault Refusal :=
  .next (s.scratchLoad false 4 d a i)

/-- LDA_Q (R203). -/
def execLdaQ (d a : Fin 128) (i : Fin 2048) (s : State) : Host.Outcome State Fault Refusal :=
  .next (s.scratchLoad false 16 d a i)

/-- LDW_Q (R203). -/
def execLdwQ (d a : Fin 128) (i : Fin 2048) (s : State) : Host.Outcome State Fault Refusal :=
  .next (s.scratchLoad true 16 d a i)

/-- STA_H (R203). -/
def execStaH (d a : Fin 128) (i : Fin 2048) (s : State) : Host.Outcome State Fault Refusal :=
  .next (s.scratchStore false 2 3 d a i)

/-- STA_W (R203). -/
def execStaW (d a : Fin 128) (i : Fin 2048) (s : State) : Host.Outcome State Fault Refusal :=
  .next (s.scratchStore false 4 3 d a i)

/-- STA_Q (R203). -/
def execStaQ (d a : Fin 128) (i : Fin 2048) (s : State) : Host.Outcome State Fault Refusal :=
  .next (s.scratchStore false 16 3 d a i)

/-- STW_Q (R203). -/
def execStwQ (d a : Fin 128) (i : Fin 2048) (s : State) : Host.Outcome State Fault Refusal :=
  .next (s.scratchStore true 16 4 d a i)

/-! ### A-buffer atomics (09 R211) -/

/-- `sca`: the lanes that pass their checks send their operations, which are applied one at a time, in a freely chosen order;
failed checks trap precisely, and a double-bit error halts the team (17 R322). -/
def State.sca (s : State) (fn : Nat) (d ra b : Fin 128) : State :=
  s.afterScratch fun a s =>
    let outs : List (Nat × Except TrapInfo (Nat × Nat)) :=
      a.lanes.map (fun l => (l, scratchCheck s a l ra 0 4 false))
    let ok : List (Nat × (Nat × Nat)) := outs.filterMap (fun p => match p.2 with
      | .ok q => some (p.1, q)
      | .error _ => none)
    if s.anyErr false 4 (ok.map (·.2)) then s.issue.laneError a.gang.core a.gang.team
    else
    let s : State := ok.foldl (fun s p =>
      let n := s.nextId
      let x : Access :=
        { gang := a.gid, lane := p.1, team := a.gang.team, core := a.gang.core, lease := a.team.lease, ten := a.team.part,
          op := .atomic fn, va := wrap 64 (scratchOff s a p.1 ra 0), pa := 2 ^ 20 * p.2.1 + p.2.2, kind := 2, mode := 0,
          attr := 0, size := 4, data := leBytes 4 (s.reg a.gang p.1 b.val).toNat,
          cmp := (s.reg a.gang p.1 d.val).toNat, scope := 0, dst := [n], wseq := a.wordSeq, pc := a.pc,
          rep := a.co.repIdx, issued := s.now, phase := .scratch, party := laneParty a.gid p.1,
          clk := assocGet 0 (a.gang.lane p.1).vc (laneParty a.gid p.1), vc := (a.gang.lane p.1).vc }
      State.setAccess { s.onGang a.gid (fun g => g.pend n p.1 false true false [(d.val, none)]) with nextId := n + 2 }
        (n + 1) x) s.issue
    (s.trapEach (outs.filterMap (fun p => match p.2 with
      | .ok _ => none
      | .error e => some (p.1, e)))).finish

/-- SCA_ADD (R211). -/
def execScaAdd (d a b : Fin 128) (s : State) : Host.Outcome State Fault Refusal := .next (s.sca 0 d a b)

/-- SCA_MIN (R211). -/
def execScaMin (d a b : Fin 128) (s : State) : Host.Outcome State Fault Refusal := .next (s.sca 1 d a b)

/-- SCA_MAX (R211). -/
def execScaMax (d a b : Fin 128) (s : State) : Host.Outcome State Fault Refusal := .next (s.sca 2 d a b)

/-- SCA_UMIN (R211). -/
def execScaUmin (d a b : Fin 128) (s : State) : Host.Outcome State Fault Refusal := .next (s.sca 3 d a b)

/-- SCA_UMAX (R211). -/
def execScaUmax (d a b : Fin 128) (s : State) : Host.Outcome State Fault Refusal := .next (s.sca 4 d a b)

/-- SCA_AND (R211). -/
def execScaAnd (d a b : Fin 128) (s : State) : Host.Outcome State Fault Refusal := .next (s.sca 5 d a b)

/-- SCA_OR (R211). -/
def execScaOr (d a b : Fin 128) (s : State) : Host.Outcome State Fault Refusal := .next (s.sca 6 d a b)

/-- SCA_XOR (R211). -/
def execScaXor (d a b : Fin 128) (s : State) : Host.Outcome State Fault Refusal := .next (s.sca 7 d a b)

/-- SCA_XCHG (R211). -/
def execScaXchg (d a b : Fin 128) (s : State) : Host.Outcome State Fault Refusal := .next (s.sca 8 d a b)

/-- SCA_CAS (R211). -/
def execScaCas (d a b : Fin 128) (s : State) : Host.Outcome State Fault Refusal := .next (s.sca 9 d a b)

/-- SCA_FADD (R207, R211). -/
def execScaFadd (d a b : Fin 128) (s : State) : Host.Outcome State Fault Refusal := .next (s.sca 10 d a b)

end Sys2Proof.Machine
end

