-- ==== Sys2Proof/Machine/Shapes.lean ====
section
/-! DEFINITION. Shape records: their fields, handles, checks, layouts and extents (01 R23 to R25; 02 R33, R42 to R46;
10 R220). -/
namespace Sys2Proof.Machine

/-- A shape record (01 R23). -/
structure Shape where
  base : Nat
  code : Nat
  rank : Nat
  planes : Bool
  sparse : Bool
  scaled : Bool
  size : List Nat
  stride : List Nat
  box : List Nat
  kind : Nat
  peer : Nat
  auxoff : Nat
  valid : Bool
  gen : Nat
  reserved : Bool
deriving DecidableEq, Repr

/-- The sixteen 32-bit words of 64 bytes. -/
def words16 (bs : List Byte) : List Nat := (List.range 16).map (fun i => ofLeBytes ((bs.drop (4 * i)).take 4))

/-- The fields of a record from its words; the strides are listed from dimension 0, whose stride is 1. -/
def shapeOf (w : List Nat) : Shape :=
  let f := fun (i : Nat) => w.getD i 0
  let d := f 1 * 2 ^ 32 + f 0
  { base := bits d 47 0, code := bits d 51 48, rank := bits d 54 52, planes := bit d 55, sparse := bit d 56,
    scaled := bit d 57, size := [f 2, f 3, f 4, f 5, f 6], stride := [1, f 7, f 8, f 9, f 10],
    box := [bits (f 11) 15 0, bits (f 11) 31 16, bits (f 12) 15 0, bits (f 12) 31 16, bits (f 13) 15 0],
    kind := bits (f 13) 23 16, peer := bits (f 13) 31 24, auxoff := f 14, valid := bit (f 15) 31,
    gen := bits (f 15) 11 0, reserved := bits d 63 58 != 0 || bits (f 15) 30 12 != 0 }

def Shape.sz (x : Shape) (k : Nat) : Nat := x.size.getD k 1
def Shape.st (x : Shape) (k : Nat) : Nat := x.stride.getD k 0
def Shape.bx (x : Shape) (k : Nat) : Nat := x.box.getD k 1

/-- The format; codes 13 to 15 are malformed and never used. -/
def Shape.fmt (x : Shape) : Fmt := (fmtOfCode x.code).getD .bin1

/-- Width of an element in bits. -/
def Shape.w (x : Shape) : Nat := fmtWidth x.fmt

/-- The offset space of a record: buffer offsets for kinds 1 to 3, addresses otherwise. -/
def Shape.origin (x : Shape) : Nat := if 1 ≤ x.kind ∧ x.kind ≤ 3 then x.base % 2 ^ 32 else x.base

/-- Whether a record is malformed (01 R24; 02 R42 to R44). -/
def Shape.malformed (x : Shape) : Bool :=
  let dims := List.range 5
  x.reserved || decide (12 < x.code) || x.rank == 0 || decide (5 < x.rank) ||
    dims.any (fun k => decide (k < x.rank) && (x.sz k == 0 || x.bx k == 0)) ||
    dims.any (fun k => decide (x.rank ≤ k) && (x.sz k != 1 || x.bx k != 1)) ||
    (List.range 4).any (fun k => x.st (k + 1) * x.w % 8 != 0) ||
    ((x.planes || x.sparse) && decide (9 < x.code)) ||
    decide (4 < x.kind) || (x.kind == 4 && decide (47 < x.peer)) ||
    (x.planes && (x.rank != 2 || x.sz 0 % 128 != 0 || x.sz 1 % 64 != 0 || (!x.sparse && x.st 1 != 64))) ||
    (x.scaled && (decide (x.code < 4 ∨ 9 < x.code) || (!x.planes && x.sz 0 % 32 != 0))) ||
    (x.sparse && (!x.planes || !isIn [8, 16, 24, 32, 40, 48, 56] (x.st 1)))

/-! ### Layouts -/

/-- The linear element offset of coordinates (02 R33). -/
def Shape.linear (x : Shape) (c : List Nat) : Nat :=
  (List.range 5).foldl (fun n k => n + x.st k * c.getD k 0) 0

/-- The bit of an element's lowest bit, counted from the record's origin byte 0. -/
def Shape.elemBit (x : Shape) (c : List Nat) : Nat := 8 * x.origin + x.w * x.linear c

/-- The byte of the scale of an element of a record without planes (02 R43). -/
def Shape.scaleByte (x : Shape) (c : List Nat) : Nat :=
  let i := fun (k : Nat) => c.getD k 0
  x.origin + x.auxoff + (i 0 / 32 + x.sz 0 / 32 * (i 1 + x.sz 1 * (i 2 + x.sz 2 * (i 3 + x.sz 3 * i 4))))

/-- The number of K-groups of a plane record. -/
def Shape.groups (x : Shape) : Nat := x.sz 1 / 64

/-- The byte offset of plane block p of column tile c and K-group g (02 R42). -/
def Shape.blockByte (x : Shape) (c g p : Nat) : Nat :=
  x.origin + ((c * x.groups + g) * fmtPlanes x.fmt + p) * (16 * x.st 1)

/-- The bytes of one auxiliary entry (02 R45). -/
def Shape.auxSize (x : Shape) : Nat := 96 * x.st 1 * ofBool x.sparse + 256 * ofBool x.scaled

def Shape.auxByte (x : Shape) (c g : Nat) : Nat := x.origin + x.auxoff + (c * x.groups + g) * x.auxSize

/-- The ranges of bytes that a record covers, as first offset and count (10 R220, step 5). -/
def Shape.extents (x : Shape) : List (Nat × Nat) :=
  if x.planes then
    let units := x.sz 0 / 128 * x.groups
    (x.origin, units * fmtPlanes x.fmt * (16 * x.st 1)) ::
      (if x.sparse || x.scaled then [(x.origin + x.auxoff, units * x.auxSize)] else [])
  else
    (x.origin, (x.w * (x.linear (x.size.map (· - 1)) + 1) + 7) / 8) ::
      (if x.scaled then
        [(x.origin + x.auxoff, x.sz 0 / 32 * x.sz 1 * x.sz 2 * x.sz 3 * x.sz 4)] else [])

/-- Whether a plane record's arrays are aligned to 64 bytes (02 R45). -/
def Shape.aligned (x : Shape) : Bool := !x.planes || (x.base % 64 == 0 && (x.base + x.auxoff) % 64 == 0)

/-- Whether a range of offsets lies in the windows of a team, or in a C-store (08 R172). -/
def rangeIn (t : Team) (kind o n : Nat) : Bool :=
  match kind with
  | 1 =>
    decide (o + n ≤ t.asize) ||
      (t.paired && decide (0x80000 ≤ o ∧ o + n ≤ 0x80000 + t.asize)) ||
      (t.paired && t.asize == 0x80000 && decide (o + n ≤ 0x100000))
  | 2 => decide (o + n ≤ t.wsize)
  | 3 => decide (o < 0x80000 ∧ o % 0x40000 + n ≤ 0x40000)
  | _ => true

/-- Whether every byte of a record lies where its kind allows. -/
def Shape.fits (x : Shape) (t : Team) : Bool := x.extents.all (fun e => rangeIn t x.kind e.1 e.2)

/-! ### Handles (01 R25, 10 R220) -/

/-- The slots of the shape table that a team uses: none for code of no tenant (01 R23). -/
def State.shapeSlots (s : State) (t : Team) : Nat :=
  match t.xten with
  | some n => (s.tenantOf (tkey t.lease n)).shslots
  | none => 0

/-- The context of accesses to a team's shape table: LEVEL 1 of the tenant. -/
def Team.shapeCtx (t : Team) (core : Nat) (eng : Bool) : Ctx := ⟨t.lease, t.xten, 1, core, eng⟩

def State.shapeAddr (s : State) (t : Team) (slot : Nat) : Nat :=
  (s.tenantOf (tkey t.lease (t.xten.getD 16))).shbase + 64 * slot

/-- The record words of a slot, from the copy that the quad's engines hold or from the table, which is then cached;
the fault of the read otherwise. -/
def State.readSlot (s : State) (t : Team) (core slot : Nat) : State × Except (TFault × Nat) (List Nat) :=
  let q := quadOfCore core
  let ten := tkey t.lease (t.xten.getD 16)
  match (s.quad q).shapes.find? (fun y => y.ten == ten && y.slot == slot) with
  | some y => (s, .ok y.words)
  | none =>
    match s.hwLoad (t.shapeCtx core true) (s.shapeAddr t slot) 64 0 with
    | (s, .error f) => (s, .error f)
    | (s, .ok bs) =>
      (s.onQuad q (fun x => { x with shapes := ⟨ten, slot, words16 bs⟩ :: x.shapes }), .ok (words16 bs))

/-- Step 2 of 10 R220 for one handle, named by its operand. -/
def State.useHandle (s : State) (t : Team) (core operand h : Nat) : State × Except TrapInfo (List Nat) :=
  let stale : TrapInfo := { cause := 0x13, tinfo := operand, taddr := h }
  if s.shapeSlots t ≤ h / 2 ^ 12 then (s, .error stale)
  else
    match s.readSlot t core (h / 2 ^ 12) with
    | (s, .error (f, va)) => (s, .error { cause := f.cause, tinfo := f.synd, taddr := va })
    | (s, .ok w) =>
      let x := shapeOf w
      (s, if x.valid && h % 2 ^ 12 != 0 && x.gen == h % 2 ^ 12 then .ok w else .error stale)

/-- Steps 2 and 3 of 10 R220 for handles with their operands: every handle, then every record. -/
def State.useHandles (s : State) (t : Team) (core : Nat) (hs : List (Nat × Nat)) :
    State × Except TrapInfo (List (List Nat)) :=
  let r : State × Except TrapInfo (List (List Nat)) := hs.foldl (fun r h =>
    match r with
    | (s, .error i) => (s, .error i)
    | (s, .ok ws) =>
      match s.useHandle t core h.1 h.2 with
      | (s, .ok w) => (s, .ok (ws ++ [w]))
      | (s, .error i) => (s, .error i)) (s, .ok [])
  match r with
  | (s, .error i) => (s, .error i)
  | (s, .ok ws) =>
    match (hs.zip ws).find? (fun p => (shapeOf p.2).malformed) with
    | some p => (s, .error { cause := 0x14, tinfo := p.1.1, taddr := p.1.2 })
    | none => (s, .ok ws)

/-- Drop every cached copy of a slot in a partition (10 R254). -/
def State.dropShape (s : State) (ten slot : Nat) : State :=
  { s with quads := s.quads.map (fun q => (q.1, { q.2 with
      shapes := q.2.shapes.filter (fun y => !(y.ten == ten && y.slot == slot)) })) }

/-- Step 5 of 10 R220: 0x05 for a record that passes its windows. The offset and size shown are open in the manual, and
are free values. -/
def State.checkExtents (s : State) (t : Team) (xs : List Shape) : Option TrapInfo :=
  match xs.find? (fun x => !x.fits t) with
  | none => none
  | some x => some { cause := 0x05, tinfo := x.kind + s.pick 10 16 * 2 ^ 4, taddr := s.pick 11 (2 ^ 32) }

/-! ### Completion words (10 R221) -/

/-- A completion word: reserved bits, and a semaphore above 63 of an unpaired team (10 R220, step 1). -/
def completionBad (t : Team) (w : Nat) : Bool :=
  bits w 31 26 != 0 || bit w 7 || (!bit w 24 && decide (63 < w % 128) && !t.paired)

def operandTrap (operand : Nat) : TrapInfo := { cause := 0x15, tinfo := operand }

/-! ### Errors of commands (10 R223, R228) -/

/-- What a progress record is filled from. -/
structure Progress where
  guest : Bool := false
  maj : Nat := 0
  fn : Nat
  cause : Nat
  done : Nat := 0
  addr : Nat := 0
  synd : Nat := 0
  coord : Nat := 0
  h0 : Nat := 0
  h1 : Nat := 0

def Progress.words (p : Progress) : List Nat :=
  [ofBool p.guest * 2 ^ 15 + p.maj * 2 ^ 12 + p.fn * 2 ^ 8 + p.cause, p.done % 2 ^ 32, p.addr % 2 ^ 32,
    p.addr / 2 ^ 32 % 2 ^ 32, p.synd, p.coord, p.h0, p.h1]

/-- An error recorded in a semaphore: ERR, FAULTS, and the record when it is the first since `sset`. -/
def Sem.fail (y : Sem) (p : Progress) (vc : Clock) : Sem :=
  { y with err := true, faults := min 0xFFFF (y.faults + 1), record := if y.faults = 0 then p.words else y.record,
           vc := clockJoin y.vc vc }

/-- The entry of an error of a command that names no semaphore, or has no lane left: its INFO is the semaphore, its LANE
the lowest of the issuing cohort (10 R223, 17 R338). -/
def State.engineEntry (s : State) (gid : Nat) (m : Mask) (t : Team) (lvl core cause info addr synd : Nat) : State :=
  let (fb, tag, pgen) : FbRef × Nat × Nat := match t.tenant with
    | some n => (s.tenantFb t.lease n, (s.tenantOf (tkey t.lease n)).tag.getD 0, (s.tenantOf (tkey t.lease n)).pgen)
    | none => (.lease t.lease, 0, 0)
  let slot := match s.gang? gid with
    | some g => g.slot
    | none => 0
  s.post fb { type := 4, lvl := lvl, tag := tag, cause := cause, pgen := pgen, addr := addr, synd := synd, core := core,
              slot := slot, lane := lowBit 64 m.toNat, info := info }

/-- The lanes of an issuing cohort that have not exited. -/
def State.liveLanes (s : State) (gid : Nat) (m : Mask) : Mask :=
  match s.gang? gid with
  | none => 0
  | some g => m &&& g.lanesWhere (fun _ x => x.live)

/-- A trap that an engine raises against lanes of a cohort that have not exited (10 R223). -/
def State.raiseDue (s : State) (gid : Nat) (live : Mask) (cause info : Nat) : State :=
  s.onGang gid (fun g => { g with due := g.due ++ [⟨live, cause, info⟩] })

end Sys2Proof.Machine
end

