-- ==== Sys2Proof/Machine/Copies.lean ====
section
/-! DEFINITION. What an accepted copy command does: its positions, its accesses and its end (10 R230 to R236, R222,
R223, R249). -/
namespace Sys2Proof.Machine

/-! ### Arrays -/

def State.array (s : State) (q k : Nat) : Array := assocGet {} (s.quad q).arrays k

def State.onArray (s : State) (q k : Nat) (f : Array → Array) : State :=
  s.onQuad q (fun x => { x with arrays := assocSet x.arrays k (f (assocGet {} x.arrays k)) })

/-- The contents of an array's C-store as a partition finds them there. -/
def Array.tiles (a : Array) (part : Nat) : TileSet :=
  if a.part = some part then ⟨a.cstore, a.ovf, a.poison, a.cErr⟩ else assocGet {} a.parked part

/-- The C-store serves a partition: what it held for the one before is kept aside when `keep` says so, and reads zero
otherwise. -/
def Array.claim (a : Array) (part : Nat) (keep : Nat → Bool) : Array :=
  if a.part = some part then a
  else
    let t := a.tiles part
    let aside := match a.part with
      | some p => if keep p then assocSet a.parked p (a.tiles p) else a.parked
      | none => a.parked
    { a with part := some part, cstore := t.cstore, ovf := t.ovf, poison := t.poison, cErr := t.cErr,
             olds := [], was := [], parked := (assocErase aside part).filter (fun p => keep p.1) }

/-- An array is about to serve a partition. What another partition with a team on the quad has in the C-store stays its
own, and what one without a team left there is gone (08 R173, 19 R362; log entry 95). -/
def State.claimArray (s : State) (q k part : Nat) : State :=
  s.onArray q k (fun a => a.claim part (fun p =>
    s.teams.any (fun t => t.2.part == p && t.2.placed && quadOfCore t.2.core == q)))

/-- Why a part of a copy's work waits: for the fill of a page, for a token, at its place among the requests of a bucket, for
the completion of a read of a host page, or refused by a pin. -/
inductive CopyWait where
  | room
  | token (held : Option (Nat × Nat))
  | host (acc : Nat)
  | pin
deriving DecidableEq, Repr

/-- The outcome of a part of a copy's work: done, waiting or stopped by an error, each at the address of an element; or an
access of LEVEL 3 to memory that does not exist (08 R168, R174). -/
inductive Move (α : Type) where
  | ok (s : State) (v : α)
  | wait (s : State) (why : CopyWait) (addr : Nat)
  | stop (s : State) (cause synd addr : Nat)
  | outside

def Move.bind {α β : Type} (m : Move α) (f : State → α → Move β) : Move β :=
  match m with
  | .ok s v => f s v
  | .wait s y a => .wait s y a
  | .stop s c y a => .stop s c y a
  | .outside => .outside

/-- The same with the address of the element that it belongs to (10 R228). -/
def Move.named {α : Type} (m : Move α) (addr : Nat) : Move α :=
  match m with
  | .wait s y _ => .wait s y addr
  | .stop s c y _ => .stop s c y addr
  | r => r

/-! ### A copy's parties and records -/

def Copy.shape (c : Copy) (i : Nat) : Shape := shapeOf (c.recs.getD i [])
def Copy.arg (c : Copy) (i : Nat) : Nat := c.args.getD i 0
def Copy.ctx (c : Copy) : Ctx := ⟨c.lease, c.xten, c.level, c.core, true⟩

/-- The number that stands for a copy's gang where races are checked: no gang has it (10 R236). -/
def copyGang (uid : Nat) : Nat := 2 ^ 40 + uid

def Copy.racer (c : Copy) (uid cls : Nat) : Racer := ⟨c.ten, copyParty uid, copyGang uid, c.clk, c.vc, cls, false⟩

/-- The source and the destination of a copy: `cpf` has no source. -/
def Copy.src (c : Copy) : Shape := c.shape 0
def Copy.dst (c : Copy) : Shape := if c.op = 5 then c.shape 0 else c.shape 1

/-- The tile coordinate word. -/
def Copy.tile (c : Copy) : Nat := if c.op = 1 ∨ c.op = 2 then c.arg 4 else c.arg 2

/-- The tile coordinates c0 to c4. -/
def Copy.coords (c : Copy) : List Nat := [bits c.tile 9 0, bits c.tile 19 10, bits c.tile 29 20, 0, 0]

/-- The record from which positions are taken (10 R230, R233, R234). -/
def Copy.posRec (c : Copy) : Shape := if c.op = 1 ∨ c.op = 5 then c.dst else c.src

/-- Whether a copy moves plane units. -/
def Copy.unitwise (c : Copy) : Bool := c.op != 5 && c.src.planes && c.dst.planes

/-- The number of positions of a copy. -/
def Copy.total (c : Copy) : Nat :=
  let x := c.posRec
  if c.unitwise then x.bx 0 / 128 * (x.bx 1 / 64) * 8192 else x.bx 0 * x.bx 1 * x.bx 2 * x.bx 3 * x.bx 4

/-- The index of a position in each dimension, i0 fastest. -/
def Copy.index (c : Copy) (pos : Nat) : List Nat :=
  let x := c.posRec
  [pos % x.bx 0, pos / x.bx 0 % x.bx 1, pos / (x.bx 0 * x.bx 1) % x.bx 2, pos / (x.bx 0 * x.bx 1 * x.bx 2) % x.bx 3,
    pos / (x.bx 0 * x.bx 1 * x.bx 2 * x.bx 3) % x.bx 4]

/-- Element coordinates of a position in a record: c_k x BOX_k + i_k. -/
def Copy.place (c : Copy) (x : Shape) (i : List Nat) : List Nat :=
  (List.range 5).map (fun k => c.coords.getD k 0 * x.bx k + i.getD k 0)

def Shape.inside (x : Shape) (c : List Nat) : Bool := (List.range 5).all (fun k => decide (c.getD k 0 < x.sz k))

/-! ### Byte accesses -/

/-- The slot of a copy's gang. -/
def State.copySlot (s : State) (c : Copy) : Nat :=
  match s.gang? c.gang with
  | some g => g.slot
  | none => 0

/-- What a translation gives a copy: a fault, with the migrate hint of 08 R189, or the place of the access. -/
def State.copyGoes (s : State) (c : Copy) (va acc : Nat) (r : Except TFault Xlat) : Move Xlat :=
  match r with
  | .error f => .stop (s.migrateHint c.ctx (s.copySlot c) (lowBit 64 c.mask.toNat) va f) f.cause f.synd va
  | .ok x =>
    match s.hostCheck c.ctx (if acc = 1 then .store else .load) acc x with
    | some f => .stop s f.cause f.synd va
    | none => if c.level = 3 ∧ 84 * 2 ^ 35 ≤ x.pa then .outside else .ok (s.markLeaves x.leaves (acc == 1)) x

/-- A fresh walk for a copy, which its walk-ahead TLB keeps when it succeeds (08 R186). -/
def State.copyWalk (s : State) (c : Copy) (va acc : Nat) : Move Xlat :=
  let r := s.walkNow c.ctx va acc false
  let s : State := match r.2, c.xten with
    | .ok x, some n =>
      if c.level = 3 then r.1
      else
        let b := 2 ^ 11 + (if acc = 1 then 2 ^ 12 else 0)
        let e : TlbEntry := ⟨tkey c.lease n, false, c.level, va / 2 ^ 16,
          { x.leaves with e1 := x.leaves.e1 ||| b, e2 := x.leaves.e2 ||| b }⟩
        r.1.onQuad (quadOfCore c.core) (fun z => { z with walkAhead := tlbPut z.walkAhead e 512 })
    | _, _ => r.1
  s.copyGoes c va acc r.2

/-- A translation through the quad's walk-ahead TLB (08 R185, R186): under its entry or a fresh walk, as a free choice. -/
def State.copyXlate (s : State) (c : Copy) (va acc : Nat) : Move Xlat :=
  let n := c.xten.getD 16
  match (s.quad (quadOfCore c.core)).walkAhead.find? (·.covers (tkey c.lease n) c.level va) with
  | some e =>
    if (acc == 1 && !e.leaves.dirty) || c.level == 3 || s.pick 3 2 == 0 then s.copyWalk c va acc
    else s.copyGoes c va acc (s.useLeaves c.ctx n va acc false e.leaves)
  | none => s.copyWalk c va acc

/-- Where a copy meets a line of kind-0 memory: the pin of its own team, the home, or a refusal (09 R197, 11 R267). -/
def State.copyPlace (s : State) (c : Copy) (x : Xlat) : Option (Nat × Option Pin) :=
  match s.pinOf (lineOf x.pa) with
  | some (k, p) => if p.team = c.team then some (pinPlace k, some p) else none
  | none => some (s.homeOf c.ctx x, none)

/-- The race check of a copy access, with the class 3 of a read or 4 of a write. -/
def State.copyRace (s : State) (c : Copy) (uid place : Nat) (x : Xlat) (va cls : Nat) : Move Unit :=
  match s.raceCheck place x.pa 1 c.lease { c.racer uid cls with fixed := x.fixed } with
  | (some _, s) => .stop s 0x0C 0 va
  | (none, s) => .ok s ()

/-- The line of a copy's access in its home slice, in its turn for a token; a pinned line stays in its L1. -/
def State.copyTouch (s : State) (c : Copy) (x : Xlat) (place : Nat) (pin : Option Pin) : Option State :=
  match pin with
  | some _ => some s
  | none =>
    if s.inL2 (lineOf x.pa) || s.tokenTurn c.held x.pa then s.touchL2 place (lineOf x.pa) x.fixed false else none

/-- A combine before a copy's access to a sum range (11 R276). -/
def State.copyCombine (s : State) (x : Xlat) : State :=
  if x.mode = 2 ∨ x.mode = 3 then s.combine (lineOf x.pa) else s

/-- Data with a double-bit error, met by a copy (10 R248): a machine error; in poison mode the data is poisoned, else the
copy stops. -/
def State.copyBad (s : State) (c : Copy) (core addr : Nat) (b : Byte) (new : Bool) : Move (Byte × Bool) :=
  if s.poisonMode c.ten then .ok (if new then s.machineError core else s) (b, true)
  else .stop (s.machineError core) 0x15 0 addr

/-- One byte of memory read by a copy, with whether it is poisoned. A read of a host page waits for its completion
(08 R188); a discarded page reads zero (10 R236). -/
def State.copyReadMem (s : State) (c : Copy) (uid va : Nat) : Move (Byte × Bool) :=
  (s.copyXlate c va 0).bind fun s x =>
    if x.kind = 1 then
      if s.reads0 x then .ok s (0, false)
      else if c.granted then .ok s (memByte s.host (hostKey (bits (s.vfOf c.ctx) 9 7) x.pa), false)
      else .wait s (.host 0) va
    else if s.reads0 x then (s.copyRace c uid (s.homeOf c.ctx x) x va 3).bind fun s _ => .ok s (0, false)
    else if !s.reaches c.ten c.core (s.homeOf c.ctx x) then .stop s 0x19 0 va
    else
      match s.copyPlace c x with
      | none => .wait s .pin va
      | some (place, pin) =>
        if isIn s.fills (x.pa / 2 ^ 16) then .wait s .room va
        else
          match s.copyTouch c x place pin with
          | none => .wait s (.token (s.heldFor x.pa)) va
          | some t =>
            let new := !s.inL2 (lineOf x.pa)
            ((t.copyCombine x).copyRace c uid place x va 3).bind fun s _ =>
              let b := match pin with
                | some p => p.data.getD (x.pa % 64) 0
                | none => memByte s.mem x.pa
              if isIn s.badLines (lineOf x.pa) then s.copyBad c c.core va b new else .ok s (b, false)

/-- A byte with the bits of a mask replaced. -/
def mergeByte (old : Byte) (mask v : Nat) : Byte := BitVec.ofNat 8 (old.toNat - (old.toNat &&& mask) + v)

/-- Bits of one byte written by a copy where its access goes: the pin of its team, or the home. Answers the updates of
sharers that are then under way. -/
def State.copyPut (s : State) (c : Copy) (uid va : Nat) (x : Xlat) (place : Nat) (pin : Option Pin) (mask v : Nat) :
    State × List Nat :=
  let line := lineOf x.pa
  let s : State := { s.keepLine line with syncs := syncWrite s.syncs (x.pa / 4) false [] }
  match pin with
  | some p =>
    let d := patchLine p.data (x.pa % 64) [mergeByte (p.data.getD (x.pa % 64) 0) mask v]
    ((s.onCore (place - pinPlace 0) (fun k => { k with
      pins := assocSet k.pins line { p with data := d } })).firePinned line p.team, [])
  | none =>
    let b := mergeByte (memByte s.mem x.pa) mask v
    let s : State := (State.soil { s with mem := memSet s.mem x.pa b } line place x.fixed).fireMonitors line
    match (if x.mode = 0 ∨ x.mode = 5 then assocGet [] s.sharers line else []) with
    | [] => (s, [])
    | ts =>
      let a : Access :=
        { gang := copyGang uid, lane := 0, team := c.team, core := c.core, lease := c.lease, ten := c.ten,
          op := .store, va := va, pa := x.pa, kind := 0, mode := x.mode, attr := x.attr, size := 1,
          data := [b], pc := ⟨0, 0⟩, issued := s.now, party := copyParty uid, clk := c.clk, home := place,
          phase := .updating ts,
          applied := s.nextId, nows := nowsOf s.syncs [x.pa / 4] }
      (State.setAccess { s with nextId := s.nextId + 1 } s.nextId a, [s.nextId])

/-- Bits of one byte of memory written by a copy; updates of sharers that remain under way are noted. A port accepts a
posted write of a host page at once (08 R188). -/
def State.copyWriteMem (s : State) (c : Copy) (uid va mask v : Nat) (bad : Bool) : Move (List Nat) :=
  (s.copyXlate c va 1).bind fun s x =>
    if x.kind = 1 then
      let k := hostKey (bits (s.vfOf c.ctx) 9 7) x.pa
      let s : State := (s.clearDisc x.leaves).getD s
      .ok { s with
        host := memSet s.host k (mergeByte (memByte s.host k) mask v), syncs := syncWrite s.syncs (k / 4) false [] } []
    else if !s.reaches c.ten c.core (s.homeOf c.ctx x) then .stop s 0x19 0 va
    else
      match s.copyPlace c x with
      | none => .wait s .pin va
      | some (place, pin) =>
        match s.reviveAt x.pa true x.disc x.leaves with
        | (true, s) => .wait s .room va
        | (false, s) =>
          match s.copyTouch c x place pin with
          | none => .wait s (.token (s.heldFor x.pa)) va
          | some s =>
            ((s.copyCombine x).copyRace c uid place x va 4).bind fun s _ =>
              let s : State := if bad then { s with badLines := addIn s.badLines (lineOf x.pa) } else s
              let r := s.copyPut c uid va x place pin mask v
              .ok r.1 r.2

/-- The array and byte of a C-store that a kind-3 source names: BASE [18] selects the array (10 R231). -/
def cstoreLoc (core o : Nat) : Nat × Nat := ((core % 4 / 2 + o / 2 ^ 18) % 2, o % 2 ^ 18)

/-- One byte read at an offset or address of a record's kind. A remote byte is what the peer answers. -/
def State.copyRead (s : State) (c : Copy) (uid : Nat) (x : Shape) (o : Nat) : Move (Byte × Bool) :=
  match x.kind with
  | 0 => s.copyReadMem c uid o
  | 3 =>
    let (k, b) := cstoreLoc c.core o
    .ok s (memByte (assocGet {} (s.quad (quadOfCore c.core)).arrays k).cstore b, false)
  | 4 => .ok s (BitVec.ofNat 8 (s.pick (16 + o) 256), false)
  | k =>
    match (s.team? c.team).bind (fun t => scratchLoc t c.core (k == 2) (o : Nat)) with
    | none => .ok s (0, false)
    | some (core, b) =>
      let v := (s.bufSeen (k == 2) core b 1 64 (fun e => e.seenBy (copyGang uid) c.vc)).headD 0
      if s.bufErr (k == 2) core b 1 then
        (s.copyBad c core o v true).bind fun s r => .ok (s.onCore core (·.poisonUnit (k == 2) (b / 64))) r
      else .ok s (v, s.bufBad (k == 2) core b)

/-- Bits of one byte written at an offset or address of a record's kind. A remote byte goes to the peer with the mask of
its bits (10 R235). -/
def State.copyWrite (s : State) (c : Copy) (uid : Nat) (x : Shape) (o mask v : Nat) (bad : Bool) : Move (List Nat) :=
  match x.kind with
  | 0 => s.copyWriteMem c uid o mask v bad
  | 4 => .ok { s with outbox := s.outbox ++ [.peer x.peer true o [BitVec.ofNat 8 v] mask] } []
  | k =>
    match (s.team? c.team).bind (fun t => scratchLoc t c.core (k == 2) (o : Nat)) with
    | none => .ok s []
    | some (core, b) =>
      let m := if k = 2 then (s.core core).wbuf else (s.core core).abuf
      let s : State := s.bufPut ⟨copyGang uid, copyParty uid, c.clk, c.vc⟩ (k == 2) core b [mergeByte (memByte m b) mask v] false
      .ok (if bad then s.onCore core (·.poisonUnit (k == 2) (b / 64)) else s) []

/-! ### Bits, elements, bytes in order -/

/-- `w` bits from a bit position on. -/
def State.copyReadBits (s : State) (c : Copy) (uid : Nat) (x : Shape) (b w : Nat) : Move (Nat × Bool) :=
  let n := (b + w - 1) / 8 + 1 - b / 8
  let r : Move (Nat × Bool) := (List.range n).foldl (fun m i => m.bind fun s v =>
    (s.copyRead c uid x (b / 8 + i)).bind fun s y => .ok s (v.1 + y.1.toNat * 2 ^ (8 * i), v.2 || y.2)) (.ok s (0, false))
  r.bind fun s v => .ok s (v.1 / 2 ^ (b % 8) % 2 ^ w, v.2)

/-- `w` bits written from a bit position on. -/
def State.copyWriteBits (s : State) (c : Copy) (uid : Nat) (x : Shape) (b w v : Nat) (bad : Bool) : Move (List Nat) :=
  let n := (b + w - 1) / 8 + 1 - b / 8
  let mask := (2 ^ w - 1) * 2 ^ (b % 8)
  let val := v % 2 ^ w * 2 ^ (b % 8)
  (List.range n).foldl (fun m i => m.bind fun s ids =>
    (s.copyWrite c uid x (b / 8 + i) (mask / 2 ^ (8 * i) % 256) (val / 2 ^ (8 * i) % 256) bad).bind fun s js =>
      .ok s (ids ++ js)) (.ok s [])

/-- A run of bytes moved unchanged. -/
def State.copyBytes (s : State) (c : Copy) (uid : Nat) (x y : Shape) (from_ to_ n : Nat) (zero : Bool) : Move (List Nat) :=
  (List.range n).foldl (fun m i => m.bind fun s ids =>
    (if zero then Move.ok s ((0 : Byte), false) else s.copyRead c uid x (from_ + i)).bind fun s b =>
      (s.copyWrite c uid y (to_ + i) 255 b.1.toNat b.2).bind fun s js => .ok s (ids ++ js)) (.ok s [])

/-- Whether the row of the C-store that an element's offset names is poisoned (10 R249). A double-bit error there is a
machine error, and poisons the row in poison mode (10 R248). -/
def State.rowPoisoned (s : State) (c : Copy) (o n : Nat) : Move Bool :=
  let q := quadOfCore c.core
  let (k, b) := cstoreLoc c.core o
  let a := assocGet {} (s.quad q).arrays k
  let row := 128 * (b / 0x10000) + b % 0x10000 / 512
  if errIn a.cErr b n then
    (s.copyBad c c.core o 0 true).bind fun s _ =>
      let a' : Array := { a with poison := addIn a.poison row, cErr := errAfter a.cErr (512 * row) 512 }
      .ok (s.onQuad q (fun x => { x with arrays := assocSet x.arrays k a' })) true
  else .ok s (isIn a.poison row)

/-! ### Positions -/

/-- One element moved: the source element at coordinates, or zero outside the source or where there is none. Answers the
updates under way, and the offset of the element when its row is poisoned and it was left unwritten. -/
def State.copyElement (s : State) (c : Copy) (uid : Nat) (from_ : Option (List Nat)) (to_ : List Nat) :
    Move (List Nat × Option Nat) :=
  let x := c.src
  let y := c.dst
  let dst := y.elemBit to_ / 8
  if !y.inside to_ then .ok s ([], none)
  else
    match from_.filter x.inside with
    | none => ((s.copyWriteBits c uid y (y.elemBit to_) y.w 0 false).named dst).bind fun s ids => .ok s (ids, none)
    | some f =>
      let src := x.elemBit f / 8
      (if x.kind = 3 then s.rowPoisoned c src ((x.w + 7) / 8) else .ok s false).bind fun s lost =>
        if lost then .ok s ([], some src)
        else
          ((s.copyReadBits c uid x (x.elemBit f) x.w).named src).bind fun s v =>
            ((s.copyWriteBits c uid y (y.elemBit to_) y.w v.1 v.2).named dst).bind fun s ids => .ok s (ids, none)

/-- The scale of a block of 32 elements moves with the block's first element (02 R43); that of a block outside the
source is open, and a free value. -/
def State.copyScale (s : State) (c : Copy) (uid pos : Nat) (from_ to_ : List Nat) : Move (List Nat) :=
  let x := c.src
  let y := c.dst
  if y.scaled && to_.getD 0 0 % 32 == 0 && y.inside to_ then
    (if x.inside from_ then s.copyRead c uid x (x.scaleByte from_)
      else .ok s (BitVec.ofNat 8 (s.pick pos 256), false)).bind fun s b =>
      s.copyWrite c uid y (y.scaleByte to_) 255 b.1.toNat b.2
  else .ok s []

/-- Plane formation of one element (10 R232): its bits go to their planes, and the scale of a block of 32 with its first
element (log entry 30). -/
def State.formElement (s : State) (c : Copy) (uid : Nat) (p : List Nat) : Move (List Nat) :=
  let x := c.src
  let y := c.dst
  let n := p.getD 0 0
  let k := p.getD 1 0
  if !y.inside p then .ok s []
  else
    (if x.inside p then (s.copyReadBits c uid x (x.elemBit p) x.w).named (x.elemBit p / 8)
      else .ok s (0, false)).bind fun s v =>
      ((List.range x.w).foldl (fun m b => m.bind fun s ids =>
        let o := y.blockByte (n / 128) (k / 64) b + 16 * (k % 64) + n % 128 / 8
        (s.copyWrite c uid y o (2 ^ (n % 8)) (v.1 / 2 ^ b % 2 * 2 ^ (n % 8)) v.2).bind fun s js => .ok s (ids ++ js))
        (Move.ok s [])).bind fun s ids =>
        if y.scaled && x.scaled && k % 32 == 0 then
          (if x.inside p then s.copyRead c uid x (x.scaleByte p) else .ok s (BitVec.ofNat 8 (s.pick k 256), false)).bind
            fun s b =>
              (s.copyWrite c uid y (y.auxByte (n / 128) (k / 64) + 2 * (n % 128) + k % 64 / 32) 255 b.1.toNat b.2).bind
                fun s js => .ok s (ids ++ js)
        else .ok s ids

/-- One unit of a copy between plane records (10 R230, R231): its plane blocks and its auxiliary entry. -/
def State.copyUnit (s : State) (c : Copy) (uid u : Nat) : Move (List Nat) :=
  let x := c.src
  let y := c.dst
  let nc := x.bx 0 / 128
  let ct := c.coords.getD 0 0 * nc + u % nc
  let g := c.coords.getD 1 0 * (x.bx 1 / 64) + u / nc
  if y.sz 0 / 128 ≤ ct ∨ y.groups ≤ g then .ok s []
  else
    let zero := decide (x.sz 0 / 128 ≤ ct ∨ x.groups ≤ g)
    ((List.range (fmtPlanes y.fmt)).foldl (fun m p => m.bind fun s ids =>
      (s.copyBytes c uid x y (x.blockByte ct g p) (y.blockByte ct g p) (16 * y.st 1) zero).bind fun s js =>
        .ok s (ids ++ js)) (Move.ok s [])).bind fun s ids =>
      (s.copyBytes c uid x y (x.auxByte ct g) (y.auxByte ct g) y.auxSize zero).bind fun s js => .ok s (ids ++ js)

/-- The index that a gather or scatter reads for row y: -1 beyond the index record (10 R233). -/
def State.copyRow (s : State) (c : Copy) (uid y : Nat) : Move Int :=
  let x := c.shape 2
  if y < x.sz 0 then
    let at_ := x.elemBit [y, 0, 0, 0, 0]
    ((s.copyReadBits c uid x at_ 32).named (at_ / 8)).bind fun s v => .ok s (sext 32 v.1)
  else .ok s (-1)

/-- What one position of a copy does (10 R231 to R235). -/
def State.copyPosition (s : State) (c : Copy) (uid pos : Nat) : Move (List Nat × Option Nat) :=
  let i := c.index pos
  match c.op with
  | 1 =>
    let d := c.place c.dst i
    if !c.dst.inside d then .ok s ([], none)
    else
      (s.copyRow c uid (d.getD 1 0)).bind fun s r =>
        s.copyElement c uid (if r < 0 then none else some [d.getD 0 0, r.toNat, d.getD 2 0, 0, 0]) d
  | 2 =>
    let f := c.place c.src i
    if c.src.sz 1 ≤ f.getD 1 0 then .ok s ([], none)
    else
      (s.copyRow c uid (f.getD 1 0)).bind fun s r =>
        if 0 ≤ r ∧ r < c.dst.sz 1 then s.copyElement c uid (some f) [f.getD 0 0, r.toNat, f.getD 2 0, 0, 0]
        else .ok s ([], none)
  | 5 =>
    let d := c.place c.dst i
    if !c.dst.inside d then .ok s ([], none)
    else
      ((s.copyWriteBits c uid c.dst (c.dst.elemBit d) c.dst.w (wrap 64 (sext 32 (c.arg 1))) false).named
        (c.dst.elemBit d / 8)).bind fun s ids => .ok s (ids, none)
  | _ =>
    let f := c.place c.src i
    let d := c.place c.dst i
    if c.dst.planes then (s.formElement c uid f).bind fun s ids => .ok s (ids, none)
    else
      (s.copyElement c uid (some f) d).bind fun s r =>
        if c.src.scaled then (s.copyScale c uid pos f d).bind fun s js => .ok s (r.1 ++ js, r.2) else .ok s r

/-! ### Blocks -/

/-- A copy in its quad. -/
def State.copy? (s : State) (q uid : Nat) : Option Copy := assocGet? (s.quad q).copies uid

def State.setCopy (s : State) (q uid : Nat) (c : Copy) : State :=
  s.onQuad q (fun x => { x with copies := assocSet x.copies uid c })

/-- A copy stops with an error (10 R223, R236): a translation fault that the lease or the owner handles is posted there
too. -/
def State.stopCopy (s : State) (q uid : Nat) (c : Copy) (cause synd addr : Nat) : State :=
  let s : State := s.setCopy q uid { c with stopped := some (cause, addr, synd) }
  let lvl := causeOwner cause synd
  if 0x06 ≤ cause ∧ cause ≤ 0x0A ∧ 2 ≤ max lvl c.level then
    let t := s.tenantOf (tkey c.lease (c.xten.getD 16))
    s.post (if max lvl c.level = 2 then .lease c.lease else .owner)
      { type := 5, lvl := c.level, tag := t.tag.getD 0, cause := cause, pgen := t.pgen, addr := addr, synd := synd,
        core := c.core, slot := s.copySlot c, lane := lowBit 64 c.mask.toNat, info := if bit (c.arg 3) 24 then 0 else c.arg 3 % 128 }
  else s

/-- The positions of the next block: at most 4 KiB or one row, or one plane unit (10 R230). -/
def Copy.blockSize (c : Copy) : Nat :=
  if c.unitwise then 8192
  else
    let row := c.posRec.bx 0
    min (row - c.pos % row) (max 1 (32768 / c.posRec.w))

/-- What one position, or one unit, of a copy does. -/
def State.copyNext (s : State) (c : Copy) (uid : Nat) : Move (List Nat × Option Nat) :=
  if c.unitwise then (s.copyUnit c uid (c.pos / 8192)).bind fun s ids => .ok s (ids, none)
  else s.copyPosition c uid c.pos

/-- n positions of a copy from its progress on; it keeps what it has done when it waits or stops. None when it accesses
memory that does not exist. -/
def State.copySteps (s : State) (q uid : Nat) (c : Copy) : Nat → Option State
  | 0 => some (s.setCopy q uid { c with granted := false })
  | n + 1 =>
    match s.copyNext c uid with
    | .ok s v =>
      let c : Copy := { c with
        pos := c.pos + (if c.unitwise then 8192 else 1), writing := c.writing ++ v.1,
        poisoned := if c.poisoned.isSome then c.poisoned else v.2.map (·, c.pos), refusals := 0, nextTry := 0, held := none }
      s.copySteps q uid c n
    | .wait s .pin addr =>
      if c.refusals + 1 < 16384 then some (s.setCopy q uid { c with refusals := c.refusals + 1, nextTry := s.enabled c.core + 64 })
      else some (s.stopCopy q uid c 0x0D 0 addr)
    | .wait s .room _ => some (s.setCopy q uid c)
    | .wait s (.token h) _ =>
      some (State.setCopy { s with nextId := s.nextId + 1 } q uid { c with held := if c.held.isSome then c.held else h })
    | .wait s (.host acc) addr => some (s.setCopy q uid { c with asked := some (addr, acc), since := s.now })
    | .stop s cause synd addr => some (s.stopCopy q uid c cause synd addr)
    | .outside => none

/-- Whether a copy may move its next block: a link that is down stops it, and a read of a host page waits for its
completion. -/
def State.copyMay (s : State) (c : Copy) : Bool :=
  c.stopped.isNone && c.asked.isNone && decide (c.pos < c.total) && decide (c.nextTry ≤ s.enabled c.core)

/-! ### Peer copies (10 R235) -/

/-- The remote record of a peer copy. -/
def Copy.remote (c : Copy) : Option Shape := if c.op = 3 then some c.dst else if c.op = 4 then some c.src else none

/-- The address of a position in a record: that of its unit's first plane block in a copy of planes. -/
def Copy.addrAt (c : Copy) (x : Shape) (pos : Nat) : Nat :=
  if c.unitwise then
    let nc := c.posRec.bx 0 / 128
    x.blockByte (c.coords.getD 0 0 * nc + pos / 8192 % nc) (c.coords.getD 1 0 * (c.posRec.bx 1 / 64) + pos / 8192 / nc) 0
  else x.elemBit (c.place x (c.index pos)) / 8

/-- The position at which a peer copy fails: its next read, or, of the writes that it has sent, one whose acknowledgement
has not come, as a free choice. -/
def State.peerPosition (s : State) (c : Copy) : Nat :=
  if c.op = 4 then c.pos
  else
    let p := s.pick 13 (c.pos + 1)
    if c.unitwise then p - p % 8192 else p

/-- A peer copy stops: its link is down, or the peer has refused an access (10 R235). -/
def State.peerStop (s : State) (q uid : Nat) (c : Copy) (x : Shape) (cause : Nat) : State :=
  let p := s.peerPosition c
  s.stopCopy q uid { c with pos := p } cause 0 (c.addrAt x p)

/-- What a peer has answered by now, as a free choice: 0 nothing new, 1 a refusal, 2 every write acknowledged. -/
def State.peerAnswer (s : State) (c : Copy) : Nat :=
  match s.pick 12 3 with
  | 1 => if c.op = 4 ∧ c.pos = c.total then 2 else if c.op = 3 ∧ c.pos = 0 then 0 else 1
  | n => n

/-- The copy engine moves one block (10 R230). A peer copy stops when its link is down, or when the peer refuses, which
is a free choice (10 R235). -/
def State.copyBlockNow (s : State) (q uid : Nat) (c : Copy) : Option State :=
  let s : State := if c.src.kind = 3 then (s.claimArray q 0 c.ten).claimArray q 1 c.ten else s
  let steps := fun (_ : Unit) => s.copySteps q uid c (if c.unitwise then 1 else min c.blockSize (c.total - c.pos))
  match c.remote with
  | some x =>
    if (assocGet {} s.peerLinks x.peer).down then some (s.peerStop q uid c x 0x19)
    else if s.peerAnswer c = 1 then some (s.peerStop q uid c x 0x1A)
    else steps ()
  | none => steps ()

/-- The completion of a copy's read of a host page, or its error (08 R188). -/
def State.copyAnswer (s : State) (q uid : Nat) (c : Copy) (ok : Bool) : State :=
  match c.asked with
  | none => s
  | some (addr, acc) =>
    if ok then s.setCopy q uid { c with asked := none, granted := true }
    else
      let f := mkFault 2 0 13 acc false true
      s.stopCopy q uid { c with asked := none } f.cause f.synd addr

/-! ### The end of a copy -/

/-- Whether every update of a copy's writes has been performed. -/
def State.copySettled (s : State) (c : Copy) : Bool := c.writing.all (fun i => (s.access? i).isNone)

/-- The end of a command that incremented or failed: its error goes to its semaphore, and the trap that is due to its
lanes that have not exited; with NOSIG, or for a trap that no lane is left to take, one entry is posted (10 R223; log
entry 85). -/
def State.endCommand (s : State) (gid : Nat) (m : Mask) (t : Team) (lvl core word : Nat) (vc : Clock)
    (err : Option Progress) (trap : Option Nat) : State :=
  let at_ := if bit word 24 then none else semAt t core (word % 128)
  let sem := if bit word 24 then 0 else word % 128
  let live := s.liveLanes gid m
  let alone := trap.isSome && live == 0
  let s : State := match err, at_ with
    | some p, some k => s.setSem k ((s.sem k).fail p vc)
    | _, _ => s
  let s : State := match err with
    | some p => if alone || at_.isNone then s.engineEntry gid m t lvl core p.cause sem p.addr p.synd else s
    | none => s
  match trap with
  | some cause => if alone then s else s.raiseDue gid live cause (2 ^ 31 + sem)
  | none => s

/-- The completion increment (10 R221, R222): a release; an overflow leaves the value and sets the error. -/
def State.increment (s : State) (gid : Nat) (m : Mask) (t : Team) (lvl core word : Nat) (vc : Clock) (p : Progress) :
    State :=
  if bit word 24 then s
  else
    match semAt t core (word % 128) with
    | none => s
    | some k =>
      let y := s.sem k
      if 2 ^ 32 - 1 < y.value + bits word 23 8 then
        s.endCommand gid m t lvl core word vc (some { p with cause := 0x16 }) none
      else s.setSem k { y with value := y.value + bits word 23 8, vc := clockJoin y.vc vc }

/-- The join of a team's launch follows every write of its commands (06 R131). -/
def State.joinFollows (s : State) (launch : Nat) (vc : Clock) : State :=
  match s.launch? launch with
  | some y => s.setLaunch launch { y with exitVc := clockJoin y.exitVc vc }
  | none => s

/-- DONE: the positions, in order, that were written or clipped; the first one left unwritten ends the count (10 R230). -/
def Copy.done (c : Copy) : Nat := (c.poisoned.map (·.2)).getD c.pos

/-- A copy ends once every write of it has been performed (10 R222, R223, R228). -/
def State.copyEnd (s : State) (q uid : Nat) (c : Copy) : State :=
  let s : State := s.onQuad q (fun x => { x with copies := assocErase x.copies uid })
  match s.team? c.team with
  | none => s
  | some t =>
    let s : State := s.joinFollows t.launch c.vc
    let p : Progress := { fn := c.op, cause := 0, done := c.done, coord := c.arg 2, h0 := c.arg 0, h1 := c.arg 1 }
    match c.stopped with
    | some (cause, addr, synd) =>
      s.endCommand c.gang c.mask t c.level c.core (c.arg 3) c.vc (some { p with
        cause := cause, addr := addr, synd := if 0x06 ≤ cause ∧ cause ≤ 0x0A then synd else 0 }) none
    | none =>
      match c.poisoned with
      | some (addr, _) =>
        s.endCommand c.gang c.mask t c.level c.core (c.arg 3) c.vc (some { p with cause := 0x12, addr := addr }) (some 0x12)
      | none => s.increment c.gang c.mask t c.level c.core (c.arg 3) c.vc p

end Sys2Proof.Machine
end

