-- ==== Sys2Proof/Machine/Matrix.lean ====
section
/-! DEFINITION. What an accepted matrix command does: K-groups, epilogue, flags and poison, guest engines and the end of
a command (02 R42 to R48; 10 R238 to R252). -/
namespace Sys2Proof.Machine

/-! ### Commands -/

def MCmd.shape (c : MCmd) (i : Nat) : Shape := shapeOf (c.recs.getD i [])
def MCmd.arg (c : MCmd) (i : Nat) : Nat := c.args.getD i 0

/-- The control word: v[d+2] of a multiplying command, v[d] of `mzero` and `mepi` (10 R237). -/
def MCmd.ctl (c : MCmd) : Nat := if c.op ≤ 2 then c.arg 2 else c.arg 0
def MCmd.tile (c : MCmd) : Nat := c.ctl % 4
def MCmd.acc (c : MCmd) : Bool := bit c.ctl 2

/-- The completion word. -/
def MCmd.completion (c : MCmd) : Nat := if c.op = 3 then c.arg 1 else c.arg 3

/-- ENGERR of the record that launched the team. -/
def MCmd.engerr (c : MCmd) : Bool := c.arg 4 == 1

/-- The number of steps: one per K-group, or one. -/
def MCmd.steps (c : MCmd) : Nat := if c.op ≤ 2 then (c.shape 0).sz 0 / 64 else 1

/-- The arrays whose C-stores a command uses (10 R238). -/
def MCmd.arraysOf (c : MCmd) : List Nat :=
  if c.op = 1 then [0, 1]
  else if c.op ≤ 2 then [c.core % 4 / 2]
  else [(c.core % 4 / 2 + c.ctl / 4) % 2]

/-- Change a command wherever it stands: `mmulw` stands in both queues of its quad. -/
def State.onCmd (s : State) (q uid : Nat) (f : MCmd → MCmd) : State :=
  s.onQuad q (fun x => { x with arrays := x.arrays.map (fun a =>
    (a.1, { a.2 with queue := a.2.queue.map (fun c => if c.uid = uid then f c else c) })) })

/-- The number of a row of the C-stores of a quad: array, tile and row. -/
def rowNo (k tile row : Nat) : Nat := 1024 * k + 128 * tile + row

/-! ### Operands -/

/-- Whether a command must see a write: one of a copy that its lanes had observed, or one of a lane that an `mfence` of its core
fenced before it was accepted (10 R222, R242). -/
def MCmd.sees (c : MCmd) (e : OldUnit) : Bool :=
  if copyGang 0 ≤ e.gang then decide (e.clk ≤ assocGet 0 c.seen e.party)
  else e.fenced.any (fun f => f.1 == c.core && decide (f.2 ≤ c.uid))

/-- A mixture of the bits of some values, as a free choice. -/
def State.mixBits (s : State) (tag : Nat) (vs : List Byte) : Byte :=
  (vs.zipIdx).foldl (fun b v =>
    let m : Byte := BitVec.ofNat 8 (s.pick (256 * tag + v.2) 256)
    (b &&& ~~~m) ||| (v.1 &&& m)) (vs.headD 0)

/-- One byte of an operand in the buffers of the issuing team, with its poison. Each element is read old or new where the
command need not see a write to it (10 R222, R242): byte by byte, and bit by bit in the planes of the weight operand
(log entry 90). -/
def State.operandByte (s : State) (c : MCmd) (x : Shape) (o : Nat) : Byte × Bool :=
  match (s.team? c.team).bind (fun t => scratchLoc t c.core (x.kind == 2) (o : Nat)) with
  | none => (0, false)
  | some (core, b) =>
    let w := x.kind == 2
    let tag := 2 ^ 38 + 2 ^ 20 * (2 * core + ofBool w) + b
    ((match (s.unitViews w core (b / 4) c.sees).map (fun bs => bs.getD (b % 4) 0) with
      | [v] => v
      | vs => if w then s.mixBits tag vs else vs.getD (s.pick tag vs.length) 0),
      s.bufBad (x.kind == 2) core b || s.bufErr (x.kind == 2) core b 1)

/-- n bytes of an operand. -/
def State.operandBytes (s : State) (c : MCmd) (x : Shape) (o n : Nat) : List Byte × Bool :=
  let bs := (List.range n).map (fun i => s.operandByte c x (o + i))
  (bs.map (·.1), bs.any (·.2))

/-- A row of the activation operand within a K-group: 64 elements with their scales, whether a scale is a NaN, and its
poison. -/
def State.rowOfA (s : State) (c : MCmd) (g m : Nat) : List FVal × Bool × Bool :=
  let x := c.shape 0
  let vs := (List.range 64).map (fun j =>
    let (bs, bad) := s.operandBytes c x (x.elemBit [64 * g + j, m] / 8) (x.w / 8)
    let v := elemVal x.fmt (ofLeBytes bs)
    if x.scaled then
      let (e, bad') := s.operandByte c x (x.scaleByte [64 * g + j, m])
      ((mulVal v (scaleVal e.toNat)).1, e.toNat == 255, bad || bad')
    else (v, false, bad))
  (vs.map (·.1), vs.any (·.2.1), vs.any (·.2.2))

/-- The kept positions of a column of the weight operand within a K-group: of a dense group every one, of a sparse one
those of its metadata (02 R44, R45). -/
def State.keptOf (s : State) (c : MCmd) (g n : Nat) : List Nat :=
  let x := c.shape 1
  if x.sparse then
    let m := 3 * x.st 1 / 4
    let v := ofLeBytes (s.operandBytes c x (x.auxByte (n / 128) g + m * (n % 128)) m).1
    (List.range (x.st 1)).map (fun j => v / 2 ^ (6 * j) % 64)
  else List.range 64

/-- Strictly ascending (02 R46). -/
def ascending : List Nat → Bool
  | x :: y :: rest => decide (x < y) && ascending (y :: rest)
  | _ => true

/-- The stored element of row j of a K-group at a column: its bits come from its planes (02 R42). -/
def State.weightBits (s : State) (c : MCmd) (g n j : Nat) : Nat :=
  let x := c.shape 1
  (List.range (fmtPlanes x.fmt)).foldl (fun v p =>
    let b := (s.operandByte c x (x.blockByte (n / 128) g p + 16 * j + n % 128 / 8)).1
    v + b.toNat / 2 ^ (n % 8) % 2 * 2 ^ p) 0

/-- The byte of the scale of half h of a K-group at a column of the weight operand (02 R45). -/
def MCmd.scaleOfW (c : MCmd) (g n h : Nat) : Nat :=
  let x := c.shape 1
  x.auxByte (n / 128) g + 96 * x.st 1 * ofBool x.sparse + 2 * (n % 128) + h

/-- The kept weights of a column within a K-group, as position in the group and exact value with its scale, and whether a
scale of the column is a NaN, be it of a half without a kept position (02 R47, R48). -/
def State.columnOfW (s : State) (c : MCmd) (g n : Nat) : List (Nat × FVal) × Bool :=
  let x := c.shape 1
  let scale := fun (h : Nat) => (s.operandByte c x (c.scaleOfW g n h)).1.toNat
  (((s.keptOf c g n).zipIdx).map (fun p =>
    let v := elemVal x.fmt (s.weightBits c g n p.2)
    (p.1, if x.scaled then (mulVal v (scaleVal (scale (p.1 / 32)))).1 else v)),
    x.scaled && (scale 0 == 255 || scale 1 == 255))

/-- Whether a unit of the K-group's planes, metadata or scales of a column tile is poisoned (10 R249). -/
def State.badOfW (s : State) (c : MCmd) (g ct : Nat) : Bool :=
  let x := c.shape 1
  (s.operandBytes c x (x.blockByte ct g 0) (fmtPlanes x.fmt * (16 * x.st 1))).2 ||
    (s.operandBytes c x (x.auxByte ct g) x.auxSize).2

/-! ### Sums (02 R47) -/

/-- The exponent of the leading bit of a product; none of zero. -/
def leadExp : FVal → Option Int
  | .fin _ m e => if m = 0 then none else some ((Nat.log2 m : Int) + e)
  | _ => none

/-- A product truncated towards zero to a multiple of 2^q, in units of 2^q. -/
def truncTo (q : Int) : FVal → Int
  | .fin neg m e =>
    let n : Nat := if q ≤ e then m * 2 ^ (e - q).toNat else m / 2 ^ (q - e).toNat
    if neg then -(n : Int) else n
  | _ => 0

/-- GroupSum of the products of a group, the zeros of unkept positions left out: the FP32 encoding. `nan` says that a scale
is a NaN. -/
def groupSum (nan : Bool) (ps : List FVal) : Nat :=
  let pos := ps.any (isInfV false)
  let neg := ps.any (isInfV true)
  if nan || ps.any isNanV || (pos && neg) then nanBits .fp32
  else if pos then infBits .fp32
  else if neg then signBit .fp32 true + infBits .fp32
  else
    match (ps.filterMap leadExp).foldl (fun m e => some (match m with
      | some x => if x < e then e else x
      | none => e)) (none : Option Int) with
    | none => 0
    | some emax =>
      let q := emax - 60
      let sum := ps.foldl (fun n p => n + truncTo q p) 0
      (fround .fp32 .rne false (.fin (sum < 0) sum.natAbs q)).1

/-- The products of a row and a column of a K-group: only kept positions are read. -/
def products (row : List FVal) (col : List (Nat × FVal)) : List FVal :=
  col.map (fun p => (mulVal (row.getD p.1 (.fin false 0 0)) p.2).1)

/-- The exact integer of an integer element. -/
def intOf : FVal → Int
  | .fin neg m _ => if neg then -(m : Int) else m
  | _ => 0

/-- One element after a K-group, with OVF. -/
def groupElement (int nan : Bool) (old : Nat) (ps : List FVal) : Nat × Bool :=
  if int then
    let v := sext 32 old + ps.foldl (fun n p => n + intOf p) 0
    (wrap 32 v, decide (v < -(2 ^ 31) ∨ 2 ^ 31 - 1 < v))
  else ((fround .fp32 .rne false (addVal .rne (fdecode .fp32 old) (fdecode .fp32 (groupSum nan ps))).1).1, false)

/-! ### Tiles -/

/-- Element (m, n) of a tile. -/
def tileWord (c : Mem) (tile m n : Nat) : Nat := memNat c (0x10000 * tile + 512 * m + 4 * n) 4

/-- A tile replaced by words in row-major order. -/
def putTile (c : Mem) (tile : Nat) (ws : List Nat) : Mem :=
  let lo := 0x10000 * tile
  let cells := (ws.zipIdx).flatMap (fun p =>
    ((leBytes 4 p.1).zipIdx.map (fun b => (lo + 4 * p.2 + b.2, b.1))).filter (fun b => b.2 != 0))
  c.filter (fun y => decide (y.1 < lo)) ++ cells ++ c.filter (fun y => decide (lo + 0x10000 ≤ y.1))

/-- The word of a tile that a step adds to, or an `mepi` converts: old or new where the command need not see an `acwr` to it
(10 R242). -/
def State.tileSeen (s : State) (c : MCmd) (k m n : Nat) : Nat :=
  let a := s.array c.home k
  let u := 0x4000 * c.tile + 128 * m + n
  match unitChoices (unitOlds a.olds false u) c.sees (memRead a.cstore (4 * u) 4) with
  | [v] => ofLeBytes v
  | vs => ofLeBytes (vs.getD (s.pick (2 ^ 38 + 2 ^ 20 * k + u) vs.length) [])

/-- What a step of one array gives. -/
inductive StepOut where
  | tile (ws : List Nat) (ovf poison : List Nat)
  | bad (machine : Bool)

/-- The ranges of operand bytes that a step reads (10 R249): those of the rows of A, and those of W for a column tile. -/
def MCmd.reads (c : MCmd) (g ct : Nat) : List (Shape × Nat × Nat) :=
  let x := c.shape 0
  let y := c.shape 1
  (List.range 128).flatMap (fun m =>
    (x, x.elemBit [64 * g, m] / 8, 64 * x.w / 8) ::
      (if x.scaled then [(x, x.scaleByte [64 * g, m], 2)] else [])) ++
    [(y, y.blockByte ct g 0, fmtPlanes y.fmt * (16 * y.st 1)), (y, y.auxByte ct g, y.auxSize)]

/-- The 64-byte units of the buffers that a step reads with a double-bit error: buffer, core and unit. -/
def State.stepErrs (s : State) (c : MCmd) (g ct : Nat) : List (Bool × Nat × Nat) :=
  (c.reads g ct).flatMap (fun r =>
    match (s.team? c.team).bind (fun t => scratchLoc t c.core (r.1.kind == 2) (r.2.1 : Nat)) with
    | none => []
    | some (core, b) =>
      ((if r.1.kind = 2 then (s.core core).wErr else (s.core core).aErr).filter (fun e =>
        errIn [e] b r.2.2 && r.2.2 != 0)).map (fun e => (r.1.kind == 2, core, e / 64)))

/-- The column offset of an array's part of the weight operand (10 R240): 128 for array 1 of an `mmulw`. -/
def MCmd.firstCol (c : MCmd) (k : Nat) : Nat := if c.op = 1 then 128 * k else 0

/-- Whether a step starts its tile at zero (02 R47). -/
def MCmd.clears (c : MCmd) : Bool := c.step == 0 && !c.acc

/-- The rows of a tile whose words a step reads with a double-bit error. -/
def tileErrs (a : Array) (tile : Nat) : List Nat :=
  ((a.cErr.filter (fun e => e / 0x10000 == tile)).map (fun e => e % 0x10000 / 512)).dedup

/-- Whether a step of array k meets a double-bit error: in its operands, or in the tile that it adds to (08 R173,
10 R248). -/
def State.stepMeets (s : State) (c : MCmd) (k : Nat) : Bool :=
  !(s.stepErrs c c.step (c.firstCol k / 128)).isEmpty || (!c.clears && !(tileErrs (s.array c.home k) c.tile).isEmpty)

/-- One K-group on array k (02 R47, 10 R240). -/
def State.groupStep (s : State) (c : MCmd) (k : Nat) : StepOut :=
  let g := c.step
  let n0 := c.firstCol k
  let a := s.array c.home k
  let cols := (List.range 128).map (fun n => (s.keptOf c g (n0 + n), s.columnOfW c g (n0 + n)))
  let rows := (List.range 128).map (s.rowOfA c g)
  let wBad := s.badOfW c g (n0 / 128)
  if s.stepMeets c k && !s.poisonMode c.ten then .bad true
  else if (c.shape 1).sparse && cols.any (fun p => !ascending p.1) then .bad false
  else
    let int := (c.shape 0).code == 3 && decide ((c.shape 1).code ≤ 3)
    let res := (rows.zipIdx).map (fun r => (cols.zipIdx).map (fun p =>
      groupElement int (r.1.2.1 || p.1.2.2) (if c.clears then 0 else s.tileSeen c k r.2 p.2)
        (products r.1.1 p.1.2.1)))
    let errs := if c.clears then [] else tileErrs a c.tile
    .tile (res.flatMap (·.map (·.1)))
      ((res.zipIdx).filterMap (fun r => if r.1.any (·.2) then some (rowNo k c.tile r.2) else none))
      ((rows.zipIdx).filterMap (fun r =>
        if wBad || r.1.2.2 || isIn errs r.2 then some (rowNo k c.tile r.2) else none))

/-! ### Epilogue (10 R244) -/

/-- Conv: rounded once to nearest even, saturated, NaN canonical, integers tie to even. -/
def epilogueConv (f : Fmt) (y : FVal) : Nat :=
  match f, y with
  | .int8, .nan _ => 0
  | .int8, .inf neg => if neg then 0x80 else 0x7F
  | .int8, .fin neg m e => wrap 8 (clampInt (-128) 127 (roundInt .rne neg m e).1)
  | _, .inf neg => signBit f neg + maxBits f
  | _, _ => (fround f .rne true y).1

/-- One element of the epilogue. -/
def epilogueElement (f : Fmt) (cint relu : Bool) (scale c : Nat) : Nat :=
  let v := if cint then intVal (sext 32 c) else fdecode .fp32 c
  let v := if relu && !isNanV v && decide (cmpVal v (.fin false 0 0) ≤ 0) then .fin false 0 0 else v
  epilogueConv f (mulVal v (fdecode .fp32 scale)).1

/-- Bits written into an A-buffer record of a team. -/
def State.putBits (s : State) (c : MCmd) (x : Shape) (b w v : Nat) : State :=
  (List.range (w / 8)).foldl (fun s i =>
    match (s.team? c.team).bind (fun t => scratchLoc t c.core false (b / 8 + i : Nat)) with
    | none => s
    | some (core, o) => (s.bufWrite (x.kind == 2) core o [BitVec.ofNat 8 (v / 2 ^ (8 * i))]).onCore core
        (·.forgetOlds (fun e => e.wbuf == (x.kind == 2) && e.unit == o / 4))) s

/-- A row flag list of an array with the rows of a tile cleared, or not, and others added. -/
def flagsAfter (old : List Nat) (tile : Nat) (clear : Bool) (k : Nat) (rows : List Nat) : List Nat :=
  let kept := if clear then old.filter (fun r => r / 128 != tile) else old
  ((rows.filter (fun r => r / 1024 == k)).map (· % 1024)).foldl addIn kept

/-- A list of row flags of array k after a command that sets some of its tile (10 R243, 02 R47): `mepi` changes none. -/
def MCmd.flagsIn (c : MCmd) (k : Nat) (old rows : List Nat) : List Nat :=
  if c.op = 4 ∨ !isIn c.arraysOf k then old else flagsAfter old c.tile (c.op == 3 || !c.acc) k rows

/-- The poison and OVF rows of an array as the commands behind see them (10 R222, R246): with those of the commands of its
queue that have run and whose flags have not changed yet. -/
def State.flagsNow (s : State) (q k : Nat) : List Nat × List Nat :=
  let a := s.array q k
  ((a.queue.filter (fun c => c.done && !c.settled && a.part == some c.ten)).foldl (fun (r : List Nat × List Nat) c =>
    (c.flagsIn k r.1 c.ovfRows, c.flagsIn k r.2 c.poisoned)) (a.ovf, a.poison))

/-- `mepi`: every row that is not poisoned; element (m, n) goes to destination element (n, m). -/
def State.epilogue (s : State) (c : MCmd) (k : Nat) : State × Bool :=
  let a := s.array c.home k
  let d := c.shape 0
  let poison := (s.flagsNow c.home k).2
  let errs := tileErrs a c.tile
  let bad := (List.range 128).filter (fun m => isIn poison (128 * c.tile + m) || isIn errs m)
  let t := s
  ((List.range 128).foldl (fun s m =>
    if isIn bad m then s
    else (List.range 128).foldl (fun s n =>
      s.putBits c d (d.elemBit [n, m]) d.w
        (epilogueElement d.fmt (bit c.ctl 8) (bits c.ctl 7 4 == 1) (c.arg 2) (t.tileSeen c k m n))) s) s,
    !bad.isEmpty)

/-! ### Steps -/

/-- The flags of a tile change as a command that writes it completes (10 R246): with those of the commands before it in the
queue that have run and write the same tile. -/
def State.commitFlags (s : State) (c : MCmd) : State :=
  c.arraysOf.foldl (fun s k =>
    (s.claimArray c.home k c.ten).onArray c.home k (fun a =>
      let due := (a.queue.takeWhile (fun d => d.uid != c.uid) ++ a.queue.filter (fun d => d.uid == c.uid)).filter
        (fun d => d.done && !d.settled && d.ten == c.ten && d.tile == c.tile && d.op != 4)
      { a with
        ovf := due.foldl (fun r d => d.flagsIn k r d.ovfRows) a.ovf
        poison := due.foldl (fun r d => d.flagsIn k r d.poisoned) a.poison
        queue := a.queue.map (fun d => if due.any (fun e => e.uid == d.uid) then { d with settled := true } else d) })) s

/-- A command has run its last step, or stops with an error. -/
def State.finishCmd (s : State) (c : MCmd) (stopped : Option Nat) : State :=
  let c : MCmd := { c with done := true, stopped := stopped }
  s.onCmd c.home c.uid (fun _ => c)

/-- How an array fault met by a step ends (10 R248). -/
inductive ArrayFault where
  /-- No fault, or one that the rerun of the step did not meet again. -/
  | none
  /-- The command stops with an engine error. -/
  | error
  /-- The rows of the tile are poisoned. -/
  | poison
  /-- Parity did not reach the fault: what the step leaves is open. -/
  | silent
deriving DecidableEq, Repr

/-- The fate of a step on array k of a quad. With the checksum the step is run again once, and a soft error does not recur;
without it parity detects the fault as far as it reaches, which is a free choice. -/
def State.arrayFault (s : State) (c : MCmd) (quad k : Nat) : ArrayFault :=
  let a := s.array quad k
  if !a.faulty && !a.upset then .none
  else if s.checksumMode c.ten && !a.faulty then .none
  else if !s.checksumMode c.ten && s.pick (5 + k) 2 == 0 then .silent
  else if s.poisonMode c.ten then .poison
  else .error

/-- The words of a tile whose step met a fault that nothing detected: free values. -/
def State.lostTile (s : State) (k : Nat) : List Nat :=
  (List.range 16384).map (fun i => s.pick (2 ^ 20 + 16384 * k + i) (2 ^ 32))

/-- The array of a command's part k has its tile replaced; what it held stays in reach of `acrd` until the command completes
(10 R246). -/
def State.setTile (s : State) (c : MCmd) (k : Nat) (ws : List Nat) : State :=
  s.onArray c.home k (fun a => { a with
    olds := a.olds.filter (fun e => e.unit / 0x4000 != c.tile), was := a.was ++ [(c.uid, c.tile, a.cstore)]
    cstore := putTile a.cstore c.tile ws, cErr := errAfter a.cErr (0x10000 * c.tile) 0x10000 })

/-- The tiles of a command start at zero (02 R47, 10 R243). -/
def State.zeroTiles (s : State) (c : MCmd) : State := c.arraysOf.foldl (fun s k => s.setTile c k []) s

/-- A double-bit error that a step meets is a machine error; in poison mode the data that it met is then poisoned
(10 R248). -/
def State.meetErrs (s : State) (c : MCmd) (k : Nat) : State :=
  (s.stepErrs c c.step (c.firstCol k / 128)).foldl (fun s e => s.onCore e.2.1 (·.poisonUnit e.1 e.2.2)) (s.machineError c.core)

/-- What a K-group step leaves: the tiles with their OVF and poisoned rows; or the error with which it stops. -/
def State.groupSteps (s : State) (c : MCmd) (quad : Nat) : Option (List (Nat × List Nat × List Nat × List Nat)) :=
  c.arraysOf.foldr (fun k r =>
    match s.groupStep c k, s.arrayFault c quad k, r with
    | .tile ws ovf poison, .none, some xs => some ((k, ws, ovf, poison) :: xs)
    | .tile _ ovf poison, .silent, some xs => some ((k, s.lostTile k, ovf, poison) :: xs)
    | .tile ws ovf _, .poison, some xs => some ((k, ws, ovf, (List.range 128).map (rowNo k c.tile)) :: xs)
    | _, _, _ => none) (some [])

/-- A K-group step of a multiplying command (10 R240, R247). -/
def State.mulStep (s : State) (c : MCmd) (quad : Nat) : State :=
  let met := c.arraysOf.filter (fun k => s.stepMeets c k)
  let r := s.groupSteps c quad
  let s : State := met.foldl (fun s k => if s.poisonMode c.ten then s.meetErrs c k else s.machineError c.core) s
  match r with
  | none => (if c.clears then s.zeroTiles c else s).finishCmd c (some 0x15)
  | some outs =>
    let s : State := outs.foldl (fun s o => s.setTile c o.1 o.2.1) s
    let c : MCmd := { c with
      step := c.step + 1
      ovfRows := (outs.flatMap (·.2.2.1)).foldl addIn c.ovfRows
      poisoned := (outs.flatMap (·.2.2.2)).foldl addIn c.poisoned }
    if c.steps ≤ c.step then s.finishCmd c none else s.onCmd c.home c.uid (fun _ => c)

/-- The step of an `mepi`: a double-bit error in its tile is a machine error, which stops it outside poison mode
(10 R248). -/
def State.epiStep (s : State) (c : MCmd) : State :=
  let k := c.arraysOf.headD 0
  let met := !(tileErrs (s.array c.home k) c.tile).isEmpty
  if met && !s.poisonMode c.ten then (s.machineError c.core).finishCmd c (some 0x15)
  else
    let s : State := if met then s.machineError c.core else s
    let (s, bad) := s.epilogue c k
    s.finishCmd { c with step := 1 } (if bad then some 0x12 else none)

/-- One Churn step of a command on the arrays of an executing quad (10 R240, R247): it is a guest there outside its own
quad (10 R251), and a soft error of the array is gone with it. -/
def State.churn (s : State) (c : MCmd) (quad : Nat) : State :=
  let c : MCmd := { c with guest := quad != c.home }
  let s : State := c.arraysOf.foldl (fun s k => s.claimArray c.home k c.ten) s
  let t : State := match c.op with
    | 3 => (s.zeroTiles c).finishCmd { c with step := 1 } none
    | 4 => s.epiStep c
    | _ => s.mulStep c quad
  c.arraysOf.foldl (fun t k => t.onArray quad k (fun a => { a with lastGuest := quad != c.home, upset := false })) t

/-! ### Which command steps next (10 R238, R250 to R252) -/

/-- The quad that runs the commands of a quad: its own engine, or the neighbour that ENG names. -/
def State.engineOf (s : State) (q : Nat) : Nat :=
  match (s.quad q).eng with
  | 1 => q + 1
  | 2 => q - 1
  | _ => q

/-- Whether the commands of a team may run: its team is placed and its tenant is not being stopped (17 R342). -/
def State.cmdRuns (s : State) (c : MCmd) : Bool :=
  (match s.team? c.team with
   | some t => t.placed
   | none => false) &&
  !s.acknowledged c.ten 2

/-- The command at the head of a queue: those that have run their steps are left out, but an `mmulw` holds its queues until
it retires (10 R238). -/
def headIn (queue : List MCmd) : Option MCmd :=
  match (queue.filter (fun c => !c.done || c.op == 1)).head? with
  | some c => if c.done then none else some c
  | none => none

/-- A queue with a command in its place by acceptance. -/
def insertCmd (c : MCmd) : List MCmd → List MCmd
  | [] => [c]
  | d :: ds => if c.uid < d.uid then c :: d :: ds else d :: insertCmd c ds

/-- The quads whose commands the engine of a quad runs as a guest (10 R250). -/
def State.guestsOf (s : State) (e : Nat) : List Nat :=
  ([e - 1, e + 1].dedup).filter (fun h => h != e && s.engineOf h == e)

/-- The home queue of an array of a quad, or its guest queue: the commands that dead engines redirect to it, in the order
of their acceptance (10 R219, R250). -/
def State.cmdQueue (s : State) (e k : Nat) (guest : Bool) : List MCmd :=
  if guest then ((s.guestsOf e).flatMap (fun h => (s.array h k).queue)).foldr insertCmd []
  else if s.engineOf e = e then (s.array e k).queue
  else []

/-- The command of a queue of an array that may step: an `mmulw` once it is at the head of both queues. -/
def State.readyIn (s : State) (e k : Nat) (guest : Bool) : Option MCmd :=
  match headIn (s.cmdQueue e k guest) with
  | none => none
  | some c =>
    if !s.cmdRuns c then none
    else if c.op = 1 then
      match headIn (s.cmdQueue e (1 - k) guest) with
      | some d => if d.uid = c.uid then some c else none
      | none => none
    else some c

/-- The commands that an array of a quad may step: of its home queue, and of its guest queue. -/
def State.candidates (s : State) (e k : Nat) : List MCmd :=
  (s.readyIn e k false).toList ++ (s.readyIn e k true).toList

/-- The command that an array steps next: after a step of one side, one of the other side when it has one (10 R252). -/
def State.turn (s : State) (e k : Nat) : Option MCmd :=
  let cs := s.candidates e k
  match cs.find? (fun c => (c.home != e) != (s.array e k).lastGuest) with
  | some c => some c
  | none => cs.head?

/-- The command that the step of array k of a quad runs now: array 0 steps an `mmulw` for both arrays unless array 1 owes
a step to a command of the other side. DESIGN CHOICE: when the turns of the two arrays name an `mmulw` each, of different
sides, the one of array 0 steps; 10 R252 cannot hold for both arrays then (log entry 115). -/
def State.stepOf (s : State) (e k : Nat) : Option MCmd :=
  match s.turn e k with
  | none => none
  | some c =>
    if c.op = 1 then
      if k = 0 then
        match s.turn e 1 with
        | some d => if d.op = 1 ∨ (d.home != e) = (c.home != e) then some c else none
        | none => some c
      else none
    else some c

/-! ### The end of a command -/

/-- The commands of a quad. -/
def State.cmdsOf (s : State) (q : Nat) : List MCmd := (s.quad q).arrays.flatMap (fun a => a.2.queue)

/-- Whether a cohort of a gang holds a matrix command at its word that was issued before another (10 R219). -/
def State.heldBefore (s : State) (gid order : Nat) : Bool :=
  match s.gang? gid with
  | none => false
  | some g => g.cohorts.any (fun c => c.2.hold && decide (c.2.order < order) && (match c.2.args with
      | op :: _ => decide (16 ≤ op.toNat)
      | [] => false))

/-- Whether a command that has run may retire: the increments of one gang follow its issue order (10 R222), and none comes
once the Churn has acknowledged a stop (17 R342). -/
def State.mayRetire (s : State) (q : Nat) (c : MCmd) : Bool :=
  c.done && s.cmdRuns c && !s.heldBefore c.gang c.order && (s.cmdsOf q).all (fun d => d.gang != c.gang || decide (c.order ≤ d.order))

/-- A command retires with its increment or its error, and the flags of its tile change with it (10 R222, R223, R228,
R246). -/
def State.retireCmd (s : State) (q : Nat) (c : MCmd) : State :=
  let s : State := (s.commitFlags c).onQuad q (fun x => { x with arrays := x.arrays.map (fun a =>
    (a.1, { a.2 with queue := a.2.queue.filter (fun d => d.uid != c.uid), was := a.2.was.filter (·.1 != c.uid) })) })
  match s.team? c.team with
  | none => s
  | some t =>
    let p : Progress := { guest := c.guest, maj := 1, fn := c.op, cause := 0, done := c.step, coord := c.ctl, h0 := c.arg 0,
                          h1 := c.arg 1 }
    match c.stopped with
    | some cause =>
      s.endCommand c.gang c.mask t c.level c.core c.completion c.vc (some { p with cause := cause })
        (if cause = 0x12 then some 0x12 else if c.engerr then some cause else none)
    | none => s.increment c.gang c.mask t c.level c.core c.completion c.vc p

end Sys2Proof.Machine
end

