-- ==== Sys2Proof/Machine/Routes.lean ====
section
/-! DEFINITION. Static routes: their configuration, stations, FIFOs and traps (12 R295 to R302). -/
namespace Sys2Proof.Machine

/-- A doubleword of a route's block, by number. -/
def Route.w (r : Route) (i : Nat) : Nat := assocGet 0 r.words i

def Route.en (r : Route) : Bool := bit (r.w 0) 63
def Route.nhops (r : Route) : Nat := bits (r.w 0) 47 40
def Route.last (r : Route) : Nat := bits (r.w 0) 35 32
def Route.squad (r : Route) : Nat := bits (r.w 0) 15 0

/-- The 16 bits of station i. -/
def Route.station (r : Route) (i : Nat) : Nat := bits (r.w (2 + i / 4)) (16 * (i % 4) + 15) (16 * (i % 4))
def Route.hop (r : Route) (i : Nat) : Nat := bits (r.station i) 9 2
def Route.coreIdx (r : Route) (i : Nat) : Nat := bits (r.station i) 1 0

/-- The direction of hop h: 0 row - 1, 1 col + 1, 2 row + 1, 3 col - 1. -/
def Route.dir (r : Route) (h : Nat) : Nat := bits (r.w (6 + h / 32)) (2 * (h % 32) + 1) (2 * (h % 32))

/-- The lease-logical row and column after a hop. -/
def hopTo (p : Int × Int) (d : Nat) : Int × Int :=
  match d with
  | 0 => (p.1 - 1, p.2)
  | 1 => (p.1, p.2 + 1)
  | 2 => (p.1 + 1, p.2)
  | _ => (p.1, p.2 - 1)

/-- The lease-logical coordinates along a path, from hop h on. -/
def Route.pathFrom (r : Route) : Nat → Nat → Int × Int → List (Int × Int)
  | 0, _, p => [p]
  | n + 1, h, p => p :: r.pathFrom n (h + 1) (hopTo p (r.dir h))

/-- The wafer-logical quads of a path; none for a place outside the lease. -/
def Lease.pathQuads (l : Lease) (r : Route) : List (Option Nat) :=
  (r.pathFrom r.nhops 0 ((r.squad / l.cols : Nat), (r.squad % l.cols : Nat))).map (fun p =>
    if 0 ≤ p.1 ∧ p.1 < (l.rows : Int) ∧ 0 ≤ p.2 ∧ p.2 < (l.cols : Int) then
      some (96 * (l.row0 + p.1.toNat) + (l.col0 + p.2.toNat))
    else none)

/-- The logical core of station i. -/
def Lease.stationCore (l : Lease) (r : Route) (i : Nat) : Option Nat :=
  ((l.pathQuads r).getD (r.hop i) none).map (fun q => 4 * q + r.coreIdx i)

/-- Where a core stands in a route, as the entry is (12 R300). -/
def Lease.stationOf (l : Lease) (r : Route) (core : Nat) : Option Nat :=
  if r.last = 0 then none
  else findIdx (fun i => l.stationCore r i == some core) (List.range (r.last + 1))

def State.route (s : State) (lease n rt : Nat) : Route := assocGet {} (s.tenantOf (tkey lease n)).routes rt

/-- Change a route of a tenant, configured or not (12 R295). -/
def State.onRoute (s : State) (lease n rt : Nat) (f : Route → Route) : State :=
  s.onPart (tkey lease n) (fun t => { t with routes := assocSet t.routes rt (f (assocGet {} t.routes rt)) })

/-- The quads that receive in a route: those of stations 1 to LAST. -/
def Lease.receivers (l : Lease) (r : Route) : List Nat :=
  ((List.range r.last).filterMap (fun i => l.stationCore r (i + 1))).map quadOfCore

/-- The check of a write that sets EN (12 R296), in the order of its codes. `v` is the word as written. -/
def State.routeCheck (s : State) (lease n rt : Nat) (r : Route) (v : Nat) : Nat :=
  match s.lease? lease with
  | none => 1
  | some l =>
    let path := l.pathQuads r
    let mine := s.tenantQuads lease n
    let ixs := List.range (r.last + 1)
    if path.any (fun q => match q with
        | some x => !isIn mine x
        | none => true) || (List.range 320).any (fun h => decide (r.nhops ≤ h) && r.dir h != 0) then 1
    else if path.any (fun q => match q with
        | some x => s.voidQuad x
        | none => true) then 2
    else if r.last = 0 || r.hop 0 != 0 ||
        (List.range r.last).any (fun i => decide (r.hop (i + 1) < r.hop i)) ||
        ixs.any (fun i => decide (r.nhops < r.hop i)) ||
        ixs.any (fun i => ixs.any (fun j => decide (i < j) && l.stationCore r i == l.stationCore r j)) ||
        (List.range 16).any (fun i => decide (r.last < i) && r.station i != 0) then 3
    else if (l.receivers r).any (fun q => decide (16 < ((s.tenantOf (tkey lease n)).routes.filter (fun p =>
        p.1 != rt && p.2.en && isIn (l.receivers p.2) q)).length + 1)) then 4
    else if bits v 62 56 != 0 || bits v 39 36 != 0 || bits v 31 16 != 0 ||
        (List.range 16).any (fun i => bits (r.station i) 15 10 != 0) then 5
    else 0

/-! ### Traps of route words (12 R301) -/

/-- A trap of a route word: the reason, the core's station and the LOST count of the segment. -/
def State.routeTrap (s : State) (lease n rt core reason : Nat) (send : Bool) : TrapInfo :=
  let r := s.route lease n rt
  let st := (s.lease? lease).bind (fun l => l.stationOf r core)
  let lost := match st with
    | some i => assocGet 0 r.lost (if send then i + 1 else i)
    | none => 0
  { cause := 0x17, tinfo := reason * 2 ^ 10 + (st.getD 15) * 2 ^ 6 + rt, taddr := if reason = 0 then lost else 0 }

/-- Cohorts parked on a route trap at their word with a reason; `p` selects sends or receives. -/
def State.trapRouteWaits (s : State) (lease n rt reason : Nat) (p : Bool → Bool) : State :=
  s.gangs.foldl (fun s g =>
    match s.team? g.2.team with
    | none => s
    | some t =>
      if t.lease = lease ∧ t.tenant = some n then
        g.2.waits.foldl (fun s w =>
          match w.2.kind with
          | .route send r _ _ _ =>
            if r = rt && p send then
              let x := g.2.lane (lowBit 64 w.2.mask.toNat)
              (s.unpark g.1 w.1 false).trapLanes g.1 w.2.mask x.pc x.rep w.2.tword
                (s.routeTrap lease n rt g.2.core reason send)
            else s
          | _ => s) s
      else s) s

/-! ### Writes of a route's block -/

/-- Whether a route has words under way. -/
def Route.moving (r : Route) : Bool := r.flight.any (fun p => !p.2.isEmpty)

/-- A write to offset 0x00 while EN is 0 (12 R296). -/
def State.routeSet (s : State) (lease n rt v : Nat) : State :=
  let fields := bits v 47 40 * 2 ^ 40 + bits v 35 32 * 2 ^ 32 + bits v 15 0
  let r := s.route lease n rt
  let old := r.w 0
  let r : Route := { r with words := assocSet r.words 0 (fields + bits old 55 48 * 2 ^ 48) }
  if bit v 63 then
    let code := s.routeCheck lease n rt r v
    if code = 0 then
      s.onRoute lease n rt (fun _ =>
        { r with words := assocSet r.words 0 (fields + 2 ^ 63), broken := false, lost := [], fifos := [], flight := [] })
    else s.onRoute lease n rt (fun _ => { r with words := assocSet r.words 0 (fields + code * 2 ^ 48) })
  else s.onRoute lease n rt (fun _ => r)

/-- A write that clears EN, once no word is under way (12 R296). -/
def State.routeClear (s : State) (lease n rt v : Nat) : State :=
  ((s.onRoute lease n rt (fun r => { r with words := assocSet r.words 0 (r.w 0 % 2 ^ 63) })).trapRouteWaits
    lease n rt 1 (fun _ => true)).routeSet lease n rt (v % 2 ^ 63)

/-- A write of doubleword i of a route's block. -/
def State.routeWrite (s : State) (lease n rt i v : Nat) : State :=
  let r := s.route lease n rt
  if i = 0 then
    (if r.en then (if bit v 63 then s else s.routeClear lease n rt v) else s.routeSet lease n rt v)
  else if r.en ∨ i = 1 then s
  else s.onRoute lease n rt (fun r => { r with words := assocSet r.words i v })

/-- Whether a write must wait until the words under way have arrived. -/
def State.routeWriteWaits (s : State) (lease n rt i v : Nat) : Bool :=
  let r := s.route lease n rt
  i == 0 && r.en && !bit v 63 && r.moving

end Sys2Proof.Machine
end

