-- ==== Sys2Proof/Machine/Placement.lean ====
section
/-! DEFINITION. What fits on a core, the choice of the core, the start of a team, and the end of its windows (04 R71
to R75, R81; 08 R173). -/
namespace Sys2Proof.Machine

/-- A gang has finished when all its lanes have exited (06 R131). -/
def Gang.finished (g : Gang) : Bool := g.lanes.all (fun x => !x.live)

/-- Whether a placed team holds a core. -/
def Team.on (t : Team) (core : Nat) : Bool := t.placed && (t.core == core || (t.paired && t.core + 1 == core))

/-- The placed teams of a core. -/
def State.teamsOn (s : State) (core : Nat) : List (Nat × Team) := s.teams.filter (fun p => p.2.on core)

/-- The gangs that hold a slot of a core (04 R72). -/
def State.gangsOn (s : State) (core : Nat) : List (Nat × Gang) :=
  s.gangs.filter (fun p => p.2.core == core && !p.2.finished && (match s.team? p.2.team with
    | some t => t.placed
    | none => false))

/-- The register demand of a gang, in lane-registers (04 R75). -/
def Gang.demand (g : Gang) : Nat := g.width * 8 * g.nregs

/-- Whether a gang belongs to a cooperative team. -/
def State.coopGang (s : State) (g : Gang) : Bool :=
  match s.team? g.team with
  | some t =>
    match s.launch? t.launch with
    | some l => l.desc.coop
    | none => false
  | none => false

def sumBy {α : Type} (f : α → Nat) (xs : List α) : Nat := xs.foldl (fun n x => n + f x) 0

/-- The windows of placed teams in a buffer of a core, as base and size. -/
def State.windows (s : State) (core : Nat) (wbuf : Bool) : List (Nat × Nat) :=
  (s.teamsOn core).map (fun p =>
    if wbuf then (if p.2.core = core then p.2.wbase else p.2.wbase2, p.2.wsize)
    else (if p.2.core = core then p.2.abase else p.2.abase2, p.2.asize))

/-- The lowest free run of n units of 4 KiB (04 R71; log entry 24). -/
def findRun (used : List (Nat × Nat)) (total n : Nat) : Option Nat :=
  (((List.range (total + 1 - n)).filter (fun i => decide (n ≤ total) && used.all (fun w =>
    w.2 == 0 || decide (w.1 + w.2 ≤ i * 4096 ∨ (i + n) * 4096 ≤ w.1)))).head?).map (· * 4096)

/-- The registers that the resident gangs of a core have in the register file. -/
def State.fileUsed (s : State) (core : Nat) : Nat :=
  sumBy (fun p => if p.2.swapped then 0 else p.2.demand) (s.gangsOn core)

/-- The swapped registers of a core, in bytes (04 R75). -/
def State.swappedBytes (s : State) (core : Nat) : Nat :=
  sumBy (fun p => if p.2.swapped then 4 * p.2.demand else 0) (s.gangsOn core)

/-- What a team asks of one core: gang slots, lane-registers, windows in 4 KiB units, and whether it is
cooperative (04 R73). -/
structure Ask where
  gangs : Nat
  demand : Nat
  abuf : Nat
  wbuf : Nat
  coop : Bool

def Rec.ask (r : Rec) : Ask := ⟨r.gangsPerCore, r.demand, r.abuf, r.wbuf, r.coop⟩

/-- The test of 04 R73 for one core, its place in the tenant's quads aside; the windows it would take. -/
def State.fitsCore (s : State) (a : Ask) (core : Nat) : Option (Nat × Nat) :=
  let gs := s.gangsOn core
  let d := sumBy (fun p => p.2.demand) gs
  let k := sumBy (fun p => if s.coopGang p.2 then p.2.demand else 0) gs
  let taken := sumBy (fun w => w.2) (s.windows core false) + 4096 * a.abuf + s.swappedBytes core
  if 32 - gs.length < a.gangs then none
  else
    match findRun (s.windows core false) 128 a.abuf, findRun (s.windows core true) 192 a.wbuf with
    | some ab, some wb =>
      if 2 ^ 19 < taken then none
      else if a.coop then (if d + a.demand ≤ 65536 then some (ab, wb) else none)
      else if k + a.demand ≤ 65536 ∧ d + a.demand ≤ 65536 + min 16384 ((2 ^ 19 - taken) / 4) then some (ab, wb)
      else none
    | _, _ => none

/-- Whether the slice of a domain runs on its quads: a tenant places teams in state 3 only (17 R345), and a lease none while
a quiesce has stopped its service code (19 R360). -/
def State.domRuns (s : State) (d : Dom) : Bool :=
  match d with
  | .tenant l n => (s.tenantOf (tkey l n)).state == 3
  | .lsq l => !(s.lease? l).any (·.quiet)

/-- A place for a team: its core, or the first core of its pair, with the windows on each. -/
structure Spot where
  core : Nat
  win : Nat × Nat
  win2 : Nat × Nat
deriving DecidableEq, Repr

def State.spotAt (s : State) (a : Ask) (paired : Bool) (core : Nat) : Option Spot :=
  match s.fitsCore a core with
  | none => none
  | some w =>
    if paired then (s.fitsCore a (core + 1)).map (fun w2 => ⟨core, w, w2⟩) else some ⟨core, w, (0, 0)⟩

/-- The cores, or first cores of pairs, of a domain's quads. -/
def State.domCores (s : State) (d : Dom) (paired : Bool) : List Nat :=
  (s.domQuads d).flatMap (fun q => if paired then [4 * q, 4 * q + 2] else [4 * q, 4 * q + 1, 4 * q + 2, 4 * q + 3])

/-- The order of preference among cores that fit (04 R74), as one number. -/
def State.preference (s : State) (affin : Nat) (paired : Bool) (core : Nat) : Nat :=
  let q := s.quad (quadOfCore core)
  let away := !(decide (1 ≤ affin ∧ affin ≤ 84) && fieldOfCore core == affin - 1)
  let gs := (s.gangsOn core).length + (if paired then (s.gangsOn (core + 1)).length else 0)
  (((ofBool away * 2 + ofBool (q.pwr != 3)) * 2 + ofBool (q.cap != 0)) * 128 + gs) * 2 ^ 20 + core

/-- The place that the dispatcher takes for a team, if one fits. -/
def State.findSpot (s : State) (d : Dom) (a : Ask) (paired : Bool) (affin : Nat) : Option Spot :=
  minBy (fun p => s.preference affin paired p.core) ((s.domCores d paired).filterMap (s.spotAt a paired))

/-! ### Windows passing from party to party (08 R173, 10 R224) -/

/-- A buffer without the bytes that p selects. -/
def clearBytes (m : Mem) (p : Nat → Bool) : Mem := m.filter (fun c => !p c.1)

def inWindow (w : Nat × Nat) (a : Nat) : Bool := decide (w.1 ≤ a ∧ a < w.1 + w.2)

/-- The parts of a core's buffers that p and q select, for A and W, hold nothing: no bytes, poison or errors. -/
def Core.wipe (c : Core) (p q : Nat → Bool) : Core :=
  { c with
    abuf := clearBytes c.abuf p, wbuf := clearBytes c.wbuf q
    aBad := c.aBad.filter (fun u => !p (64 * u)), wBad := c.wBad.filter (fun u => !q (64 * u))
    aErr := c.aErr.filter (fun e => !p e), wErr := c.wErr.filter (fun e => !q e)
    olds := c.olds.filter (fun e => !(if e.wbuf then q else p) (4 * e.unit)) }

/-- What lies outside the windows of the teams that are resident on a core holds nothing. -/
def State.wipeOutside (s : State) (core : Nat) (c : Core) : Core :=
  let keepA := s.windows core false
  let keepW := s.windows core true
  c.wipe (fun a => !keepA.any (inWindow · a)) (fun a => !keepW.any (inWindow · a))

/-- A core is about to hold a team of a partition: what another partition left outside the windows of resident teams
reads zero (08 R173), and so do the semaphores of a partition that has no team on the core (10 R224; log entry 95). -/
def State.takeCore (s : State) (core part : Nat) : State :=
  let c := s.core core
  let stays := fun (p : Nat) => (c.part == some part && p == part) || (s.teamsOn core).any (fun t => t.2.part == p)
  let d : Core := { (if c.part = some part then c else s.wipeOutside core c) with
    part := some part, sems := c.sems.filter (fun y => stays (y.1 / 64)) }
  s.setCore core d

/-- The array of a core's pair is about to serve a partition (08 R173). -/
def State.takeArray (s : State) (core part : Nat) : State := s.claimArray (quadOfCore core) (core % 4 / 2) part

/-- At team start each byte of a window is what an earlier team of the tenant left, or zero (08 R173). -/
def State.startWindow (s : State) (core tag : Nat) (a w : Nat × Nat) : State :=
  s.onCore core (fun c =>
    { c.wipe (fun x => inWindow a x && s.pick (tag + x) 2 == 0) (fun x => inWindow w x && s.pick (tag + 2 ^ 20 + x) 2 == 0) with
      aBad := c.aBad.filter (fun u => !inWindow a (64 * u)), wBad := c.wBad.filter (fun u => !inWindow w (64 * u))
      aErr := c.aErr.filter (fun e => !inWindow a e), wErr := c.wErr.filter (fun e => !inWindow w e) })

/-- The windows of a team on a core. -/
def Team.windowsOn (t : Team) (core : Nat) : (Nat × Nat) × (Nat × Nat) :=
  if t.core = core then ((t.abase, t.asize), (t.wbase, t.wsize)) else ((t.abase2, t.asize), (t.wbase2, t.wsize))

/-- A core without what it holds in the windows of a team. -/
def Core.wipeWindows (c : Core) (w : (Nat × Nat) × (Nat × Nat)) : Core := c.wipe (inWindow w.1) (inWindow w.2)

/-- The windows of a team that leaves a core which another partition has taken over read zero. -/
def State.leaveWindows (s : State) (t : Team) (core : Nat) : State :=
  s.onCore core (fun c => if c.part = some t.part then c else c.wipeWindows (t.windowsOn core))

/-- The cores that a team holds. -/
def Team.cores (t : Team) : List Nat := if t.paired then [t.core, t.core + 1] else [t.core]

/-! ### The start of a team -/

/-- The lowest free slots of a core (04 R72). -/
def State.freeSlots (s : State) (core : Nat) : List Nat :=
  let used := (s.gangsOn core).map (fun p => p.2.slot)
  (List.range 32).filter (fun i => !isIn used i)

/-- The lanes of a gang at its start (06 R108): counter at the entry, level, clock of the launch, own region 1. -/
def startLanes (gid width entry level : Nat) (vc : Clock) : List Lane :=
  (List.range width).map (fun l =>
    { fresh := some gid, pc := ⟨entry, 0⟩, level := level, vc := assocSet vc (laneParty gid l) 1 })

/-- Start gang number i of a team on a core. -/
def State.startGang (s : State) (team core i : Nat) (t : Team) (y : Launch) : State :=
  let r := y.desc
  let gid := s.nextId
  let g : Gang :=
    { team := team, g := i, core := core, slot := (s.freeSlots core).headD 0, width := r.width, nregs := r.regs,
      swapped := decide (65536 < s.fileUsed core + r.width * 8 * r.regs), readySince := s.enabled core, parkedSince := s.enabled core,
      gone := 0, spillBase := (y.spillBase + (t.t * r.gangs + i) * r.spill * 256) % 2 ^ 64, spill := r.spill,
      lanes := startLanes gid r.width r.entry t.level y.vc }
  State.setGang { s with nextId := gid + 1 } gid g

/-- The tenant through which a team on a core translates (17 R325, 20 R375): its own, or for a lease service team the
tenant that holds the quad, one that runs before others (log entry 25). -/
def State.xtenFor (s : State) (d : Dom) (core : Nat) : Option Nat :=
  match d with
  | .tenant _ n => some n
  | .lsq l =>
    let holds := (s.tenantNumbers l).filter (fun n =>
      decide (2 ≤ (s.tenantOf (tkey l n)).state) && isIn (s.tenantQuads l n) (quadOfCore core))
    match holds.find? (fun n => (s.tenantOf (tkey l n)).state == 3) with
    | some n => some n
    | none => holds.head?

/-- Binding a team to a gated quad starts its power-on (04 R81); whether a neighbour is above its limit is free. -/
def State.powerOn (s : State) (quad : Nat) : State :=
  s.onQuad quad (fun q =>
    if q.pwr = 0 then { q with pwr := if s.pick 7 2 = 0 then 2 else 1, waitSince := s.now } else q)

/-- The next team of a launch is bound to a place and its gangs start (04 R72 to R75). -/
def State.placeTeam (s : State) (launch : Nat) (y : Launch) (p : Spot) : State :=
  let r := y.desc
  let (lease, tenant) : Nat × Option Nat := match y.dom with
    | .tenant l n => (l, some n)
    | .lsq l => (l, none)
  let t : Team :=
    { launch := launch, t := y.nextTeam, lease := lease, tenant := tenant, xten := s.xtenFor y.dom p.core,
      core := p.core, paired := r.paired, abase := p.win.1, asize := 4096 * r.abuf, wbase := p.win.2,
      wsize := 4096 * r.wbuf, abase2 := p.win2.1, wbase2 := p.win2.2,
      level := if tenant.isSome then 0 else 2 }
  let id := s.nextId
  let s : State := t.cores.foldl (fun s c => (s.takeCore c t.part).takeArray c t.part) { s with nextId := id + 1 }
  let s : State := s.startWindow p.core 0 (t.abase, t.asize) (t.wbase, t.wsize)
  let s : State := if r.paired then s.startWindow (p.core + 1) (2 ^ 21) (t.abase2, t.asize) (t.wbase2, t.wsize) else s
  let s : State := (s.setTeam id t).setLaunch launch { y with nextTeam := y.nextTeam + 1 }
  let n := r.gangsPerCore
  let s : State := (List.range r.gangs).foldl (fun s i =>
    s.startGang id (if i < n then p.core else p.core + 1) i t y) s
  s.powerOn (quadOfCore p.core)

/-- All the remaining teams of a launch are placed together, or none (03 R62). -/
def State.placeAll (s : State) (launch : Nat) : Nat → Option State
  | 0 => some s
  | n + 1 =>
    match s.launch? launch with
    | none => none
    | some y =>
      match s.findSpot y.dom y.desc.ask y.desc.paired y.desc.affin with
      | none => none
      | some p => (s.placeTeam launch y p).placeAll launch n

/-! ### The return of a saved team (17 R344) -/

/-- What a saved team asks for. -/
def State.savedAsk (s : State) (team : Nat) (t : Team) : Ask :=
  let gs := (s.gangsOf team).filter (fun p => !p.2.finished && p.2.core == t.core)
  let gs2 := (s.gangsOf team).filter (fun p => !p.2.finished && p.2.core != t.core)
  ⟨max gs.length gs2.length, max (sumBy (fun p => p.2.demand) gs) (sumBy (fun p => p.2.demand) gs2), t.asize / 4096,
    t.wsize / 4096, match s.launch? t.launch with
      | some y => y.desc.coop
      | none => false⟩

/-- Where the gangs of a returning team sit on a core, in order: the free slots, and whether the register file has room
left (04 R72, R75). -/
def seatGangs : List Nat → Nat → List (Nat × Gang) → List (Nat × Nat × Bool)
  | _, _, [] => []
  | free, used, g :: gs =>
    let full := decide (65536 < used + g.2.demand)
    (g.1, free.headD 0, full) :: seatGangs free.tail (if full then used else used + g.2.demand) gs

/-- What a saved window carried on one side of a team, put back at a base: kind 0 or 1 of its marks are poisoned units,
2 or 3 bytes with errors. -/
def Team.marksAt (t : Team) (kind side base : Nat) : List Nat :=
  (t.savedMarks.filter (fun m => m.1 == kind && m.2 / 2 ^ 20 == side)).map (fun m =>
    if kind < 2 then (base + m.2 % 2 ^ 20) / 64 else base + m.2 % 2 ^ 20)

/-- The saved bytes of one side put back at a base. -/
def putCells (m : Mem) (base side : Nat) (cells : List Host.Cell) : Mem :=
  (cells.filter (fun c => c.1 / 2 ^ 20 == side)).foldl (fun m c => memSet m (base + c.1 % 2 ^ 20) c.2) m

/-- The windows of one side of a returning team on a core, with the same contents, poison and errors (04 R71). -/
def State.fillWindows (s : State) (t : Team) (core side : Nat) (w : Nat × Nat) : State :=
  s.onCore core (fun c =>
    let c : Core := c.wipeWindows ((w.1, t.asize), (w.2, t.wsize))
    { c with
      abuf := putCells c.abuf w.1 side t.savedA, wbuf := putCells c.wbuf w.2 side t.savedW
      aBad := t.marksAt 0 side w.1 ++ c.aBad, wBad := t.marksAt 1 side w.2 ++ c.wBad
      aErr := t.marksAt 2 side w.1 ++ c.aErr, wErr := t.marksAt 3 side w.2 ++ c.wErr })

/-- The views of a core are no older than the floors of a gang on it (11 R282). -/
def State.raiseViews (s : State) (part core : Nat) (floors : List (Nat × Nat)) : State :=
  floors.foldl (fun s f => s.onPart part (fun x =>
    if x.view (viewKeyCore core f.1) < f.2 then { x with views := assocSet x.views (viewKeyCore core f.1) f.2 } else x)) s

/-- A saved team returns to a core: windows with the same contents, gangs in the lowest free slots, no round-region
copies on a new core, and views that its floors raise (11 R282); a gated quad powers on for it (04 R81). -/
def State.returnTeam (s : State) (team : Nat) (t : Team) (p : Spot) : State :=
  let cores := if t.paired then [p.core, p.core + 1] else [p.core]
  let s : State := cores.foldl (fun s c => (s.takeCore c t.part).takeArray c t.part) s
  let s : State := s.fillWindows t p.core 0 p.win
  let s : State := if t.paired then s.fillWindows t (p.core + 1) 1 p.win2 else s
  let dest := fun (c : Nat) => if c = t.core then p.core else p.core + 1
  let seats := cores.flatMap (fun c => seatGangs (s.freeSlots c) (s.fileUsed c)
    ((s.gangsOf team).filter (fun g => !g.2.finished && dest g.2.core == c)))
  let s : State := s.setTeam team { t with
    core := p.core, placed := true, abase := p.win.1, wbase := p.win.2, abase2 := p.win2.1, wbase2 := p.win2.2,
    savedA := [], savedW := [], savedMarks := [] }
  let s : State := if p.core = t.core then s else cores.foldl (fun s c =>
    s.onCore c (fun x => { x with l1 := x.l1.filter (fun l => !(l.2.round.isSome && l.2.ten == t.part)) })) s
  let s : State := (s.gangsOf team).foldl (fun s g =>
    let core := dest g.2.core
    let seat := assocGet (g.2.slot, false) seats g.1
    let s : State := s.setGang g.1 { g.2 with
      core := core, slot := seat.1, swapped := seat.2, readySince := s.enabled core, parkedSince := s.enabled core }
    s.raiseViews t.part core g.2.floors) s
  s.powerOn (quadOfCore p.core)

/-- The saved teams of a partition that were on cores of a quad, by index. -/
def State.cluster (s : State) (part quad : Nat) (cs : List Nat) : List (Nat × Team) :=
  s.teams.filter (fun p => p.2.part == part && !p.2.placed && quadOfCore p.2.core == quad && isIn cs (p.2.core % 4))

/-- Teams return, each onto the core that `dest` gives for the index of its old one. -/
def State.returnAll (s : State) (dest : Nat → Nat) : List (Nat × Team) → Option State
  | [] => some s
  | (id, t) :: rest =>
    match s.spotAt (s.savedAsk id t) t.paired (dest (t.core % 4)) with
    | none => none
    | some p => (s.returnTeam id t p).returnAll dest rest

/-- Whether something of tile i lies in a set. -/
def TileSet.touches (x : TileSet) (i : Nat) : Bool :=
  x.cstore.any (fun c => c.1 / 0x10000 == i) || x.ovf.any (fun r => r / 128 == i) || x.poison.any (fun r => r / 128 == i) ||
    x.cErr.any (fun e => e / 0x10000 == i)

/-- The parts of tiles that p selects. -/
def TileSet.part (x : TileSet) (p : Nat → Bool) : TileSet :=
  { cstore := x.cstore.filter (fun c => p (c.1 / 0x10000)), ovf := x.ovf.filter (fun r => p (r / 128))
    poison := x.poison.filter (fun r => p (r / 128)), cErr := x.cErr.filter (fun e => p (e / 0x10000)) }

/-- The tiles that an array holds with saved ones put back beside them (10 R247). -/
def TileSet.merge (old new : TileSet) : TileSet :=
  let pick := fun (i : Nat) => (if new.touches i then new else old).part (· == i)
  { cstore := (List.range 4).flatMap (fun i => (pick i).cstore)
    ovf := (List.range 4).flatMap (fun i => (pick i).ovf)
    poison := (List.range 4).flatMap (fun i => (pick i).poison)
    cErr := (List.range 4).flatMap (fun i => (pick i).cErr) }

/-- Whether two sets of tiles can stand in one C-store: no tile of both differs. -/
def TileSet.beside (old new : TileSet) : Bool :=
  (List.range 4).all (fun i => !old.touches i || !new.touches i || old.part (· == i) == new.part (· == i))

/-- A semaphore that nothing has touched. -/
def Sem.idle (y : Sem) : Bool := y.value == 0 && !y.err && y.faults == 0 && y.vc.isEmpty

/-- Whether a team of a partition holds a core that p selects. -/
def State.holds (s : State) (part : Nat) (p : Nat → Bool) : Bool :=
  s.teams.any (fun t => t.2.part == part && t.2.placed && t.2.cores.any p)

/-- Whether the arrays of a pair change places when cores go to other ones. -/
def flipOf (cs : List Nat) (dest : Nat → Nat) : Nat := (dest (cs.headD 0) % 4 / 2 + cs.headD 0 / 2) % 2

/-- Whether what was saved of the cores `cs` of a quad beside their teams has a place on the cores that `dest` gives: room in
their queues (00 R1), and no other set of semaphores or tiles of the partition there that is in use, so that each set stands
on one core (10 R224, R247; log entry 26). -/
def State.setsFit (s : State) (part old : Nat) (cs : List Nat) (dest : Nat → Nat) : Bool :=
  match assocGet? (s.tenantOf part).saved old with
  | none => true
  | some k =>
    let new := quadOfCore (dest (cs.headD 0))
    (k.cores.filter (fun c => isIn cs c.1)).all (fun c =>
      let x := s.core (dest c.1)
      (!s.holds part (· == dest c.1) || c.2.sems.all (·.2.idle) ||
        (x.sems.filter (fun y => y.1 / 64 == part)).all (·.2.idle)) &&
      decide (x.items.length + c.2.items.length ≤ 4096) && decide (x.sfq.length + c.2.sfq.length ≤ 32)) &&
    (!s.holds part (fun c => quadOfCore c == new) || k.arrays.all (fun a =>
      ((s.array new ((a.1 + flipOf cs dest) % 2)).tiles part).beside (a.2.tiles part)))

/-- What was saved of the cores `cs` of a quad beside their teams returns to the cores that `dest` gives: semaphores, items,
records, copies, and the arrays of their pairs with their tiles and commands (10 R224, R247, 17 R342). `held` says which cores
teams of the partition held before: elsewhere what was saved takes the place of what is there. -/
def State.returnCores (s : State) (part old : Nat) (cs : List Nat) (dest : Nat → Nat) (held : Nat → Bool) : State :=
  match assocGet? (s.tenantOf part).saved old with
  | none => s
  | some k =>
    let new := quadOfCore (dest (cs.headD 0))
    let s : State := (k.cores.filter (fun c => isIn cs c.1)).foldl (fun s c => s.onCore (dest c.1) (fun x =>
      { x with
        sems := (c.2.sems.filter (fun y => !y.2.idle)).foldl (fun ys y => assocSet ys y.1 y.2)
          (if held (dest c.1) then x.sems else x.sems.filter (fun y => y.1 / 64 != part))
        items := x.items ++ c.2.items.filter (fun p => (s.launch? p.1).isSome), sfq := x.sfq ++ c.2.sfq })) s
    let mine := fun (core : Nat) => isIn cs (core % 4)
    let move := fun (m : MCmd) => { m with core := dest (m.core % 4), home := new }
    let shared := [0, 1, 2, 3].any (fun i => held (4 * new + i))
    let s : State := k.arrays.foldl (fun s a =>
      let j := (a.1 + flipOf cs dest) % 2
      (s.claimArray new j part).onArray new j (fun b =>
        let t := if shared then (b.tiles part).merge (a.2.tiles part) else a.2.tiles part
        { b with
          cstore := t.cstore, ovf := t.ovf, poison := t.poison, cErr := t.cErr, olds := [], was := []
          queue := ((a.2.queue.filter (fun m => mine m.core)).map move).foldr insertCmd b.queue })) s
    let s : State := s.onQuad new (fun q => { q with
      copies := (k.copies.filter (fun c => mine c.2.core)).foldl (fun xs c =>
        assocSet xs c.1 { c.2 with core := dest (c.2.core % 4) }) q.copies
      idleSince := s.now })
    let rest : SavedQuad :=
      { cores := k.cores.filter (fun c => !isIn cs c.1)
        arrays := k.arrays.map (fun a => (a.1, { a.2 with queue := a.2.queue.filter (fun m => !mine m.core) }))
        copies := k.copies.filter (fun c => !mine c.2.core) }
    (s.onQuad old (fun q => { q with idleSince := s.now })).onPart part (fun t => { t with
      saved := if rest.cores.isEmpty then assocErase t.saved old else assocSet t.saved old rest })

/-- Some teams return to the cores that `dest` gives with what was saved of their old cores, if `teams` finds a place for
them there. -/
def State.returnTo (s : State) (part old : Nat) (cs : List Nat) (dest : Nat → Nat) (teams : State → Option State) :
    Option State :=
  if s.setsFit part old cs dest then
    (teams s).map (fun u => u.returnCores part old cs dest (fun c => s.holds part (· == c)))
  else none

/-- The groups of cores of a saved quad whose teams return together: a pair that holds a paired team, else each core with
a team (10 R224, 17 R344). -/
def coreGroups (ts : List (Nat × Team)) : List (List Nat) :=
  [0, 2].flatMap (fun p =>
    if ts.any (fun t => t.2.paired && t.2.core % 4 == p) then [[p, p + 1]]
    else ([p, p + 1].filter (fun i => ts.any (fun t => t.2.core % 4 == i))).map (fun i => [i]))

/-- Those of some teams that fit the cores that `dest` gives return there; none when no team fits. -/
def State.returnSome (s : State) (dest : Nat → Nat) (ts : List (Nat × Team)) : Option State :=
  let r : State × Bool := ts.foldl (fun r p =>
    match r.1.spotAt (r.1.savedAsk p.1 p.2) p.2.paired (dest (p.2.core % 4)) with
    | some w => (r.1.returnTeam p.1 p.2 w, true)
    | none => r) (s, false)
  if r.2 then some r.1 else none

/-- A group of cores returns to a core or pair that fits its teams: first those without a team of the partition, then
those with the index of the old one, then by 04 R74 (log entry 26). With `split` a core that fits only some of the teams
serves when none fits them all (19 R360). -/
def State.returnGroup (s : State) (d : Dom) (part quad : Nat) (cs : List Nat) (split : Bool) : Option State :=
  let first := cs.headD 0
  let dest := fun (b i : Nat) => b + (i - first)
  let key := fun (b : Nat) =>
    (ofBool (s.holds part (fun c => decide (b ≤ c ∧ c < b + cs.length))) * 2 + ofBool (b % 4 != first)) * 2 ^ 40 +
      s.preference 0 (cs.length == 2) b
  let order := (s.domCores d (cs.length == 2)).mergeSort (fun x y => decide (key x ≤ key y))
  let ts := s.cluster part quad cs
  match order.findSome? (fun b => s.returnTo part quad cs (dest b) (·.returnAll (dest b) ts)) with
  | some u => some u
  | none => if split then order.findSome? (fun b => s.returnTo part quad cs (dest b) (·.returnSome (dest b) ts)) else none

/-- The saved teams of a quad return with what was saved of it: together to their quad or the first one without a team of
the partition that fits them all, else in groups, of which one that fits nowhere stays saved (17 R344, 19 R360; log
entry 26). -/
def State.returnCluster (s : State) (d : Dom) (part quad : Nat) (split : Bool) : State :=
  let all := [0, 1, 2, 3]
  let ts := s.cluster part quad all
  let here := s.domQuads d
  let order := ((here.filter (· == quad)) ++ (if ts.isEmpty then [] else here.filter (· != quad))).filter (fun q =>
    !s.holds part (fun c => quadOfCore c == q))
  match order.findSome? (fun q => s.returnTo part quad all (fun i => 4 * q + i) (·.returnAll (fun i => 4 * q + i) ts)) with
  | some s => s
  | none =>
    let s : State := (coreGroups ts).foldl (fun s cs => (s.returnGroup d part quad cs split).getD s) s
    if !(s.cluster part quad all).isEmpty then s
    else
      match (if isIn here quad then s.returnTo part quad all (fun i => 4 * quad + i) some else none) with
      | some u => u
      | none => (s.onQuad quad (fun q => { q with idleSince := s.now })).onPart part (fun t => { t with
          saved := assocErase t.saved quad })

/-- A team that its core-mates have left behind goes to any core that it fits (19 R360, R361). -/
def State.returnLone (s : State) (d : Dom) (part id : Nat) (t : Team) : State :=
  let left := match assocGet? (s.tenantOf part).saved (quadOfCore t.core) with
    | some k => k.cores.any (fun c => c.1 == t.core % 4)
    | none => false
  if left then s
  else
    match s.findSpot d (s.savedAsk id t) t.paired 0 with
    | some p => s.returnTeam id t p
    | none => s

/-- Whether some teams of a cooperative launch of a partition hold cores while others are saved. -/
def State.coopSplit (s : State) (part : Nat) : Bool :=
  s.teams.any (fun t => t.2.part == part && !t.2.placed && !t.2.halted &&
    (s.launch? t.2.launch).any (fun y => y.desc.coop) &&
    s.teams.any (fun u => u.2.launch == t.2.launch && u.2.placed && !u.2.halted))

/-- Saved quads return. Quads with teams of cooperative launches return only when that splits no launch (03 R62,
17 R344). -/
def State.returnQuads (s : State) (d : Dom) (part : Nat) (qs : List Nat) : State :=
  let coop := qs.filter (fun q => (s.cluster part q [0, 1, 2, 3]).any (fun t =>
    !t.2.halted && (s.launch? t.2.launch).any (fun y => y.desc.coop)))
  let u := coop.foldl (fun s q => s.returnCluster d part q false) s
  (qs.filter (fun q => !isIn coop q)).foldl (fun s q => s.returnCluster d part q false) (if u.coopSplit part then s else u)

end Sys2Proof.Machine
end

