-- ==== Sys2Proof/Machine/DispatchEvents.lean ====
section
/-! DEFINITION. The steps of queues and dispatchers: appends and control writes, the taking of records, the release of
teams, cooperative blocks, hold lists, item chunks, and the ends of teams and launches (01 R17 to R22; 03 R53 to R62,
R382; 06 R129, R131). -/
namespace Sys2Proof.Machine

/-! ### Writes by a host (03 R53 to R57) -/

/-- A host's write to the block of queue q of a domain: it reaches the block through a function (03 R51, R52), and a queue
beyond the count has none. -/
def State.hostQueue (s : State) (d : Dom) (q : Nat) (k : State → State) : State :=
  if s.hostReaches d && decide (q < s.queueCount d) then k s else s

/-- QUEUE_APPEND (R55, R57): a host write to APPEND of so many bytes. -/
def execQueueAppend (dom : Dom) (q addr bytes : Nat) (s : State) : Host.Outcome State Fault Refusal :=
  .next (s.hostQueue dom q (fun s =>
    if bytes ≠ 8 then s.onQueue dom q (fun x => { x with badw := true })
    else s.append dom q (addr % 2 ^ 64) []))

/-- QUEUE_ENABLE (R53): a write of the control doubleword with EN set. -/
def execQueueEnable (dom : Dom) (q ctl : Nat) (s : State) : Host.Outcome State Fault Refusal :=
  .next (s.hostQueue dom q (·.queueCtl dom q (ctl % 2 ^ 64 ||| 2 ^ 31)))

/-- QUEUE_DISABLE (R53): a write of the control doubleword with EN clear. -/
def execQueueDisable (dom : Dom) (q ctl : Nat) (s : State) : Host.Outcome State Fault Refusal :=
  .next (s.hostQueue dom q (·.queueCtl dom q (ctl % 2 ^ 64 - (ctl % 2 ^ 64 &&& 2 ^ 31))))

/-- QUEUE_CLR (R53). -/
def execQueueClr (dom : Dom) (q : Nat) (s : State) : Host.Outcome State Fault Refusal :=
  .next (s.hostQueue dom q (·.queueClear dom q 1))

/-! ### Taking a record (03 R59) -/

/-- The launches of a domain. -/
def State.launchesOf (s : State) (d : Dom) : List (Nat × Launch) := s.launches.filter (fun y => y.2.dom == d)

/-- Whether teams of a launch are still to be released. -/
def Launch.pending (y : Launch) : Bool := !y.halted && decide (y.nextTeam < y.desc.teams)

/-- Whether a domain's dispatcher takes records and releases teams: a tenant's in state 3 only (03 R57). -/
def State.dispatches (s : State) (d : Dom) : Bool := s.domAccepts d && s.domRuns d

/-- Whether nothing about a queue keeps its dispatcher from the entry at HEAD, or from the held entry that comes next. -/
def State.takeable (s : State) (d : Dom) (q : Nat) : Bool :=
  let x := s.queueOf d q
  x.en && !x.stalled && (if x.used = 0 then !x.held.isEmpty else !isIn x.waiting x.head) &&
    (s.launchesOf d).all (fun y => y.2.queue != q || !y.2.pending)

/-- Whether the dispatcher may take the entry at HEAD of a queue. -/
def State.mayTake (s : State) (d : Dom) (q : Nat) : Bool :=
  s.dispatches d && decide (q < s.queueCount d) && (s.queueOf d q).used != 0 && s.takeable d q

/-- The entry at HEAD counts as taken. -/
def State.takeHead (s : State) (d : Dom) (q : Nat) : State :=
  s.onQueue d q (fun x => { x with
    head := (x.head + 1) % 2 ^ 32, stalled := false, dead := x.dead.filter (· != x.head), vcs := assocErase x.vcs x.head })

/-- A fault on a read of the dispatcher: the queue stalls until the answer (03 R382). -/
def State.takeFault (s : State) (d : Dom) (q : Nat) (f : TFault × Nat) (acc : HwAccess) : State :=
  (s.onQueue d q (fun x => { x with stalled := true })).hwFault d f.1 f.2 acc

/-- A checked record is taken as a launch, with the frame's first doubleword when it has a spill area (01 R18, R22). -/
def State.takeFrame (s : State) (d : Dom) (q addr : Nat) (w : List Nat) : State :=
  let r := recOf w
  match (if r.spill = 0 then (s, .ok []) else s.hwLoad (domCtx d) r.frame 8 0 :
      State × Except (TFault × Nat) (List Byte)) with
  | (s, .error f) => s.takeFault d q f (.takeFrame q addr w)
  | (s, .ok bs) =>
    let x := s.queueOf d q
    let y : Launch :=
      { dom := d, queue := q, addr := addr, desc := r, spillBase := ofLeBytes bs, takenAt := s.now,
        vc := assocGet [] x.vcs x.head }
    (State.setLaunch { s with nextId := s.nextId + 1 } s.nextId y).takeHead d q

/-- The record at an address is read, checked and taken, or refused (01 R17, R18, R22; 03 R61). -/
def State.takeRecord (s : State) (d : Dom) (q addr : Nat) : State :=
  match s.hwLoad (domCtx d) addr 64 0 with
  | (s, .error f) => s.takeFault d q f (.takeRecord q addr)
  | (s, .ok bs) =>
    let w := dwords bs
    if !recordOk w || s.neverFits d (recOf w) then (s.refuseRecord d addr).takeHead d q else s.takeFrame d q addr w

/-- The dispatcher takes the entry at HEAD of a queue. -/
def State.takeEntry (s : State) (d : Dom) (q : Nat) : State :=
  let x := s.queueOf d q
  if isIn x.dead x.head then s.takeHead d q
  else
    match s.hwLoad (domCtx d) (x.slotAddr x.head) 8 0 with
    | (s, .error f) => s.takeFault d q f (.takeEntry q)
    | (s, .ok bs) => s.takeRecord d q (ofLeBytes bs)

/-- A read of the dispatcher at which a queue stalled is made again, while the queue is enabled (03 R53, R382). -/
def State.retake (s : State) (d : Dom) (q : Nat) (k : State → State) : State :=
  let x := s.queueOf d q
  let t : State := s.setQueue d q { x with stalled := false }
  if !x.stalled then s else if x.en then k t else t

/-- The entry at which a queue stalled counts as taken (03 R382). -/
def State.passHead (s : State) (d : Dom) (q : Nat) : State := if (s.queueOf d q).stalled then s.takeHead d q else s

/-- A retried hardware queue access (03 R382): the access that faulted is made again. -/
def State.retryHw (s : State) (d : Dom) (a : HwAccess) : State :=
  match a with
  | .takeEntry q => s.retake d q (·.takeEntry d q)
  | .takeRecord q addr => s.retake d q (·.takeRecord d q addr)
  | .takeFrame q addr w => s.retake d q (·.takeFrame d q addr w)
  | .ringWrite q slot addr =>
    let x := s.queueOf d q
    if isIn x.waiting slot then
      let s : State := s.onQueue d q (fun y => { y with waiting := y.waiting.filter (· != slot) })
      match s.hwStore (domCtx d) (x.slotAddr slot) (leBytes 8 addr) 1 with
      | (s, .ok _) => s
      | (s, .error (f, va)) =>
        (s.onQueue d q (fun y => { y with waiting := y.waiting ++ [slot] })).hwFault d f va (.ringWrite q slot addr)
    else s
  | .joinRead addr vc => s.joinAppend d addr vc
  | .succ l =>
    match s.launch? l with
    | some y => s.setLaunch l { y with joined := false }
    | none => s
  | .gone => s

/-- An abandoned hardware queue access (03 R382). -/
def State.abandonHw (s : State) (d : Dom) (a : HwAccess) : State :=
  match a with
  | .takeEntry q => s.passHead d q
  | .takeRecord q _ => s.passHead d q
  | .takeFrame q _ _ => s.passHead d q
  | .ringWrite q slot _ => s.onQueue d q (fun y =>
      if isIn y.waiting slot then { y with waiting := y.waiting.filter (· != slot), dead := y.dead ++ [slot] } else y)
  | .joinRead addr _ => s.refuseRecord d addr
  | .succ l => { s with launches := assocErase s.launches l }
  | .gone => s

/-- DISPATCH_TAKE (R59). -/
def execDispatchTake (dom : Dom) (q : Nat) (s : State) : Host.Outcome State Fault Refusal :=
  .next (if s.mayTake dom q then s.takeEntry dom q else s)

/-! ### The release of a team (03 R60, R62) -/

/-- The place of a team of a launch that fits now. -/
def State.spotFor (s : State) (y : Launch) : Option Spot := s.findSpot y.dom y.desc.ask y.desc.paired y.desc.affin

/-- A launch no longer holds the block of its partition (03 R62). -/
def State.endBlock (s : State) (id : Nat) : State :=
  match s.launch? id with
  | none => s
  | some y =>
    if y.blocking then
      (s.setLaunch id { y with blocking := false }).onQueue y.dom y.queue (fun x => { x with coophold := false })
    else s

/-- A cooperative record is admitted when all its teams can be placed at this moment (03 R62). -/
def State.admitCoop (s : State) (id : Nat) (y : Launch) : Option State :=
  (s.placeAll id (y.desc.teams - y.nextTeam)).map (fun s =>
    State.endBlock (match s.launch? id with
      | some z => s.setLaunch id { z with admitted := true }
      | none => s) id)

/-- The rotation state of a domain. -/
def State.dispOf (s : State) (d : Dom) : Disp :=
  match d with
  | .tenant l n => (s.tenantOf (tkey l n)).disp
  | .lsq l =>
    match s.lease? l with
    | some x => x.disp
    | none => {}

def State.setDisp (s : State) (d : Dom) (x : Disp) : State :=
  match d with
  | .tenant l n => s.onTenant (tkey l n) (fun t => { t with disp := x })
  | .lsq l =>
    match s.lease? l with
    | some y => s.setLease l { y with disp := x }
    | none => s

/-- The waiting launches of a domain at a priority. -/
def State.waitingAt (s : State) (d : Dom) (p : Nat) : List (Nat × Launch) :=
  (s.launchesOf d).filter (fun y => y.2.pending && (s.queueOf d y.2.queue).prio == p)

/-- Queues in rotation from one of them on, wrapping around: `after` leaves it for last. -/
def rotateFrom (qs : List Nat) (q : Nat) (after : Bool) : List Nat :=
  qs.filter (fun x => decide (q < x) || (!after && x == q)) ++ qs.filter (fun x => decide (x < q) || (after && x == q))

/-- The queues of a rotation, ascending. -/
def sortNats (xs : List Nat) : List Nat := (xs.dedup).mergeSort (fun a b => decide (a ≤ b))

/-- The release of what a launch offers, if it fits: all teams of a cooperative record (03 R62), else its next team; with
the number of teams released. -/
def State.offer (s : State) (id : Nat) (y : Launch) : Option (State × Nat) :=
  if y.desc.coop then (s.admitCoop id y).map (fun t => (t, y.desc.teams - y.nextTeam))
  else (s.spotFor y).map (fun z => (s.placeTeam id y z, 1))

/-- The release from the rotation of one priority (03 R60 steps 3 and 4): the pointer's queue first, else the first team
that fits from the queues that follow, with pointer and credit as they were. Each team released takes one credit; the teams
of a cooperative record go together, and take what credit there is (log entry 56). -/
def State.releaseAt (s : State) (d : Dom) (p : Nat) : Option State :=
  let ys := s.waitingAt d p
  let qs := sortNats (ys.map (·.2.queue))
  match qs with
  | [] => none
  | first :: _ =>
    let x := s.dispOf d
    let weight := fun (q : Nat) => (s.queueOf d q).wm1 + 1
    let (at_, credit) : Nat × Nat := match assocGet? x.ptr p with
      | none => (first, weight first)
      | some q =>
        if isIn qs q ∧ assocGet 0 x.credit p ≠ 0 then (q, assocGet 0 x.credit p)
        else
          let n := (rotateFrom qs q true).headD first
          (n, weight n)
    let found := (rotateFrom qs at_ false).findSome? (fun q =>
      (ys.find? (fun y => y.2.queue == q)).bind (fun y => (s.offer y.1 y.2).map (fun r => (q, r))))
    found.map (fun c =>
      let (s, n) := c.2
      if c.1 = at_ then
        if credit ≤ n then
          match rotateFrom (sortNats ((s.waitingAt d p).map (·.2.queue))) at_ true with
          | [] => s.setDisp d { ptr := assocSet x.ptr p at_, credit := assocSet x.credit p 0 }
          | q :: _ => s.setDisp d { ptr := assocSet x.ptr p q, credit := assocSet x.credit p (weight q) }
        else s.setDisp d { ptr := assocSet x.ptr p at_, credit := assocSet x.credit p (credit - n) }
      else s.setDisp d { ptr := assocSet x.ptr p at_, credit := assocSet x.credit p credit })

/-- A saved team of a partition that is running again, for which no place was found at the restore, returns before any
new team is released (17 R344). -/
def State.unplaced (s : State) (d : Dom) : List (Nat × Team) :=
  match d with
  | .tenant l n => s.teams.filter (fun t => t.2.part == tkey l n && !t.2.placed && !t.2.halted)
  | .lsq _ => []

/-- The cooperative record of a domain whose wait began first, when no other holds the block. -/
def State.coopWaiter (s : State) (d : Dom) : Option (Nat × Launch) :=
  let ys := (s.launchesOf d).filter (fun y => y.2.desc.coop && y.2.pending)
  if ys.any (·.2.blocking) then none else minBy (fun y => y.2.takenAt * 2 ^ 32 + y.1) ys

/-- A cooperative record that has waited 100 µs, which are 85,000 a-cycles, holds the block (03 R62). -/
def State.coopDue (s : State) (d : Dom) : Option (Nat × Launch) :=
  (s.coopWaiter d).filter (fun y => decide (y.2.takenAt + 85000 ≤ s.now))

/-- The block begins for a record that is due. -/
def State.beginBlock (s : State) (d : Dom) : State :=
  match s.coopDue d with
  | some y =>
    (s.setLaunch y.1 { y.2 with blocking := true }).onQueue d y.2.queue (fun x => { x with coophold := true })
  | none => s

/-- The next team of a domain is released (03 R60, R62); none when nothing fits. The cooperative block comes first, and a
record that is due holds it. -/
def State.release (s : State) (d : Dom) : Option State :=
  match d, s.unplaced d with
  | .tenant l n, t :: ts =>
    let u := s.returnQuads (.tenant l n) (tkey l n) (((t :: ts).map (fun t => quadOfCore t.2.core)).dedup)
    if (u.unplaced d).length < (t :: ts).length then some u else none
  | _, _ =>
    let s : State := s.beginBlock d
    match (s.launchesOf d).find? (fun y => y.2.blocking && y.2.pending) with
    | some y => s.admitCoop y.1 y.2
    | none => [0, 1, 2, 3].findSome? (s.releaseAt d)

/-- TEAM_RELEASE (R60, R62, R74). -/
def execTeamRelease (dom : Dom) (s : State) : Host.Outcome State Fault Refusal :=
  .next (if s.dispatches dom then (s.release dom).getD s else s)

/-- COOP_BLOCK (R62): a cooperative record has waited 100 µs without admission. -/
def execCoopBlock (dom : Dom) (s : State) : Host.Outcome State Fault Refusal :=
  .next (if s.dispatches dom then s.beginBlock dom else s)

/-- HOLD_LIST_DRAIN (R58). -/
def execHoldListDrain (dom : Dom) (q : Nat) (s : State) : Host.Outcome State Fault Refusal :=
  .next (s.drainHeld dom q 64)

/-! ### Items (06 R129) -/

/-- The next n values of a launch: those returned first, then those that were never dealt, by index (01 R21). -/
def Launch.deal (y : Launch) (n : Nat) : List Word × Launch :=
  let back := y.returned.take n
  let k := min (n - back.length) (y.desc.icount - y.nextItem)
  (back ++ (List.range k).map (fun i => BitVec.ofNat 32 (y.desc.ibase + y.nextItem + i)),
    { y with returned := y.returned.drop n, nextItem := y.nextItem + k })

/-- How many values a core may receive as one chunk. -/
def State.chunkSize (s : State) (core launch : Nat) (y : Launch) : Nat :=
  let c := s.core core
  if (s.teamsOn core).any (fun t => t.2.launch == launch && !t.2.halted) && y.desc.item && !y.halted &&
      !s.acknowledged y.part 5 &&
      decide ((c.items.filter (fun p => p.1 == launch)).length < 64) then
    min 64 (min (y.returned.length + (y.desc.icount - y.nextItem)) (4096 - c.items.length))
  else 0

/-- ITEM_CHUNK_DEAL (R129). -/
def execItemChunkDeal (core launch : Nat) (s : State) : Host.Outcome State Fault Refusal :=
  .next (match s.launch? launch with
    | none => s
    | some y =>
      let n := s.chunkSize core launch y
      if n = 0 then s
      else
        let (vs, y) := y.deal n
        (s.setLaunch launch y).onCore core (fun c => { c with items := c.items ++ vs.map (fun v => (launch, v)) }))

/-! ### The ends of teams and launches -/

/-- Whether engine commands of a team are still to complete. -/
def State.commandsOf (s : State) (team : Nat) : Bool :=
  s.quads.any (fun q => q.2.copies.any (fun c => c.2.team == team) ||
    q.2.arrays.any (fun a => a.2.queue.any (fun c => c.team == team)))

/-- Whether engine commands of a team were saved with its tenant. -/
def State.savedCommandsOf (s : State) (team : Nat) : Bool :=
  s.tenants.any (fun k => k.2.saved.any (fun q => q.2.copies.any (fun c => c.2.team == team) ||
    q.2.arrays.any (fun a => a.2.queue.any (fun c => c.team == team))))

/-- Whether a team may exit (06 R131): all its gangs are finished and its commands have completed. A halted team counts
as exited then too, a saved one without commands at once (17 R331). -/
def State.mayExit (s : State) (team : Nat) (t : Team) : Bool :=
  (t.placed || (t.halted && !s.savedCommandsOf team)) && (s.gangsOf team).all (fun g => g.2.finished) && !s.commandsOf team

/-- The values of a launch that a core holds return when its last team there has exited (06 R129). -/
def State.returnItems (s : State) (core launch : Nat) : State :=
  if (s.teamsOn core).any (fun t => t.2.launch == launch) then s
  else
    let vs := ((s.core core).items.filter (fun p => p.1 == launch)).map (·.2)
    let s : State := s.onCore core (fun c => { c with items := c.items.filter (fun p => p.1 != launch) })
    match s.launch? launch with
    | some y => if y.halted then s else s.setLaunch launch { y with returned := y.returned ++ vs }
    | none => s

/-- A team has exited: its pins dissolve (11 R268), its windows, slots and item values return (08 R173, 19 R354); A-buffer
atomics still in flight are lost with its windows (15 R316). -/
def State.exitTeam (s : State) (team : Nat) (t : Team) : State :=
  let s : State := s.publishPins team []
  let gs := (s.gangsOf team).map (·.1)
  let s : State := { s with
    gangs := s.gangs.filter (fun g => !isIn gs g.1)
    teams := assocErase s.teams team
    accesses := s.accesses.filter (fun p => !(p.2.phase == .scratch && isIn gs p.2.gang))
    cores := s.cores.map (fun c => (c.1, { c.2 with sfq := c.2.sfq.filter (fun r => !isIn gs r.gang) })) }
  let s : State := if t.placed then t.cores.foldl (fun s c => (s.leaveWindows t c).returnItems c t.launch) s else s
  let q := quadOfCore t.core
  let s : State := if !t.placed || s.teams.any (fun x => quadOfCore x.2.core == q) then s
    else s.onQuad q (fun x => { x with idleSince := s.now })
  match s.launch? t.launch with
  | some y => s.setLaunch t.launch { y with exited := y.exited + 1, tails := y.tails ++ [team] }
  | none => s

/-- TEAM_EXIT (R131). -/
def execTeamExit (team : Nat) (s : State) : Host.Outcome State Fault Refusal :=
  .next (match s.team? team with
    | some t => if s.mayExit team t then s.exitTeam team t else s
    | none => s)

/-- Whether every team of a launch has exited, and every access of its teams has been performed at partition scope
(01 R20, 11 R257). -/
def State.launchOver (s : State) (id : Nat) (y : Launch) : Bool :=
  !y.pending && !y.joined && s.teams.all (fun t => t.2.launch != id) &&
    s.accesses.all (fun p => !p.2.op.counts || !isIn y.tails p.2.team)

/-- A launch is gone; the values still held are discarded (06 R129). -/
def State.endLaunch (s : State) (id : Nat) : State :=
  { s with
    launches := assocErase s.launches id
    cores := s.cores.map (fun c => (c.1, { c.2 with items := c.2.items.filter (fun p => p.1 != id) })) }

/-- The decrement of SUCC's WAIT at a record's retirement (01 R20), as a release at partition scope after every exit. -/
def State.joinSuccessor (s : State) (id : Nat) (y : Launch) : State :=
  let (lease, part) : Nat × Nat := match y.dom with
    | .tenant l n => (l, tkey l n)
    | .lsq l => (l, tkey l 16)
  let pub : Sync := ⟨y.exitVc, 2, 0, 0, lease, part⟩
  match s.decrementWait (domCtx y.dom) y.desc.succ [pub] with
  | (s, .error (f, va)) => (s.setLaunch id { y with joined := true }).hwFault y.dom f va (.succ id)
  | (s, .ok (old, w)) =>
    let vc := clockJoin (assocGet [] s.joinVcs w) y.exitVc
    let s : State := s.endLaunch id
    if old = 1 then State.joinAppend { s with joinVcs := assocErase s.joinVcs w } y.dom y.desc.succ vc
    else if old = 0 then s
    else { s with joinVcs := assocSet s.joinVcs w vc }

/-- SUCCESSOR_JOIN (R20): the last team of a launch has exited; a launch of which a team was halted joins nothing. -/
def execSuccessorJoin (launch : Nat) (s : State) : Host.Outcome State Fault Refusal :=
  .next (match s.launch? launch with
    | some y =>
      if s.launchOver launch y then
        if y.halted ∨ y.desc.succ = 0 then s.endLaunch launch else s.joinSuccessor launch y
      else s
    | none => s)

end Sys2Proof.Machine
end

