-- ==== Sys2Proof/Machine/Engines.lean ====
section
/-! DEFINITION. The engine words: acceptance of copy and matrix commands, the accumulator words, `mfence` and the
shape-record words (10 R218 to R221, R229 to R245, R253, R254). -/
namespace Sys2Proof.Machine

/-! ### Acceptance of a copy (10 R220) -/

/-- Whether a record holds elements outside planes in a memory or buffer kind. -/
def Shape.plain (x : Shape) : Bool := !x.planes && decide (x.kind ≤ 2)

/-- Boxes that plane copies accept (10 R231). -/
def planeBoxes (x y : Shape) : Bool := x.box == y.box && y.bx 0 % 128 == 0 && y.bx 1 % 64 == 0

/-- The element row of 10 R231, kinds aside. -/
def elementRow (x y : Shape) : Bool :=
  !x.planes && !y.planes && x.code == y.code && x.scaled == y.scaled && x.box == y.box &&
    (!x.scaled || x.bx 0 % 32 == 0)

/-- The plane-to-plane row of 10 R231, kinds aside. -/
def planeRow (x y : Shape) : Bool :=
  x.planes && y.planes && x.code == y.code && x.sparse == y.sparse && x.scaled == y.scaled && x.st 1 == y.st 1 &&
    planeBoxes x y

/-- The C-store row of 10 R231. -/
def cstoreRow (x y : Shape) : Bool :=
  x.kind == 3 && y.plain && (x.code == 10 || x.code == 11) && x.code == y.code && x.rank == 2 && x.sz 0 == 128 &&
    x.sz 1 == 128 && bits x.base 17 0 % 0x10000 == 0 && bits x.base 31 19 == 0

/-- The plane-formation row of 10 R231. -/
def formationRow (x y : Shape) : Bool :=
  !x.planes && decide (x.kind ≤ 1) && y.planes && (y.kind == 0 || y.kind == 2) && decide (x.code ≤ 9) &&
    x.code == y.code && x.rank == 2 && y.rank == 2 && !x.sparse && !y.sparse && planeBoxes x y

/-- Whether a peer link is bound to a lease (10 R235). -/
def State.peerBound (s : State) (link lease : Nat) : Bool := (assocGet {} s.peerLinks link).lease == some lease

/-- Step 4 of 10 R220 for a copy: the operand that a broken rule names. -/
def State.copyRules (s : State) (lease op : Nat) (xs : List Shape) : Option Nat :=
  let x := xs.getD 0 (shapeOf [])
  let y := xs.getD 1 (shapeOf [])
  let aligned := if !x.aligned then some 0 else if !y.aligned then some 1 else none
  match op with
  | 0 =>
    if x.kind = 4 then some 0
    else if 2 < y.kind then some 1
    else if (x.plain && y.plain && elementRow x y) || cstoreRow x y || formationRow x y ||
        (decide (x.kind ≤ 2) && planeRow x y) then aligned
    else some 1
  | 5 => if x.plain then none else some 0
  | 3 =>
    if 2 < x.kind then some 0
    else if y.kind ≠ 4 ∨ !s.peerBound y.peer lease then some 1
    else if elementRow x y || planeRow x y then aligned else some 1
  | 4 =>
    if x.kind ≠ 4 ∨ !s.peerBound x.peer lease then some 0
    else if 2 < y.kind then some 1
    else if elementRow x y || planeRow x y then aligned else some 1
  | _ =>
    let z := xs.getD 2 (shapeOf [])
    if z.code ≠ 11 ∨ z.rank ≠ 1 ∨ 1 < z.kind then some 2
    else if x.planes || decide (x.kind = 4) || x.scaled || decide (x.rank < 2 ∨ 3 < x.rank) then some 0
    else if !y.plain || y.scaled || decide (y.rank < 2 ∨ 3 < y.rank) then some 1
    else if x.code ≠ y.code ∨ x.bx 0 ≠ y.bx 0 ∨ x.bx 2 ≠ y.bx 2 then some 1
    else none

/-- The handles of a copy with their operands. -/
def copyHandles (op : Nat) (v : Nat → Nat) : List (Nat × Nat) :=
  match op with
  | 5 => [(0, v 0)]
  | 1 => [(0, v 0), (1, v 1), (2, v 2)]
  | 2 => [(0, v 0), (1, v 1), (2, v 2)]
  | _ => [(0, v 0), (1, v 1)]

/-- Step 1 of 10 R220 for a copy. -/
def copyControl (t : Team) (op : Nat) (v : Nat → Nat) : Option Nat :=
  if completionBad t (v 3) then some 3
  else if op = 1 ∨ op = 2 then (if bits (v 4) 31 30 ≠ 0 then some 4 else none)
  else if bits (v 2) 31 30 ≠ 0 then some 2 else none

/-- The checks of a copy in their order: the records, or the trap that refuses it. -/
def State.checkCopy (s : State) (a : Acting) (op : Nat) (v : Nat → Nat) :
    State × Except TrapInfo (List (List Nat)) :=
  match copyControl a.team op v with
  | some i => (s, .error (operandTrap i))
  | none =>
    match s.useHandles a.team a.gang.core (copyHandles op v) with
    | (s, .error i) => (s, .error i)
    | (s, .ok recs) =>
      match s.copyRules a.team.lease op (recs.map shapeOf) with
      | some i => (s, .error (operandTrap i))
      | none =>
        match s.checkExtents a.team (recs.map shapeOf) with
        | some i => (s, .error i)
        | none => (s, .ok recs)

/-- Whether a core's copies leave room (10 R219). -/
def State.copyRoom (s : State) (core : Nat) : Bool :=
  decide (((s.quad (quadOfCore core)).copies.filter (fun c => c.2.core == core)).length < 16)

/-- A copy is accepted or refused: its issue is a release at partition scope (10 R222). -/
def State.acceptCopy (s : State) (op : Nat) (args : List Nat) : State :=
  s.act fun a =>
    let v := fun (i : Nat) => args.getD i 0
    match s.checkCopy a op v with
    | (s, .error i) => s.trap a.co.mask i
    | (s, .ok recs) =>
      let lead := s.leadClock a.gid a.co.mask
      let (vc, s) := s.releaseLanes a.gid a.co.mask
      let s : State := s.releasePins a.gang.team a.gang.core 2 lead
      let uid := s.nextId
      let c : Copy :=
        { gang := a.gid, mask := a.co.mask, team := a.gang.team, lease := a.team.lease, ten := a.team.part,
          xten := a.team.xten, level := a.level, core := a.gang.core, op := op, recs := recs, args := args, clk := 1,
          vc := assocSet vc (copyParty uid) 1 }
      (State.setCopy { s with nextId := uid + 1 } (quadOfCore a.gang.core) uid c).finish

/-! ### Acceptance of a matrix command -/

/-- The rule of 10 R239 that a multiplying command breaks, by its operand. -/
def mulRules (op : Nat) (x y : Shape) : Option Nat :=
  if x.kind ≠ 1 ∨ !fmtAsA x.fmt ∨ x.planes ∨ x.sparse ∨ x.rank ≠ 2 ∨ x.sz 1 ≠ 128 ∨ x.sz 0 % 64 ≠ 0 ∨ x.sz 0 < 64 ∨
      65536 < x.sz 0 ∨ x.st 1 < x.sz 0 then some 0
  else if y.kind ≠ 2 ∨ !y.planes ∨ y.sz 1 ≠ x.sz 0 ∨ y.sz 0 ≠ (if op = 1 then 256 else 128) ∨ (op = 0 ∧ y.sparse) ∨
      (op = 2 ∧ !y.sparse) ∨ !y.aligned then some 1
  else none

/-- The rules of an epilogue's destination (10 R244). -/
def epilogueRules (x : Shape) : Option Nat :=
  if x.kind ≠ 1 ∨ x.rank ≠ 2 ∨ x.sz 0 ≠ 128 ∨ x.sz 1 ≠ 128 ∨ !fmtAsA x.fmt ∨ x.planes ∨ x.sparse ∨ x.scaled then some 1
  else none

/-- Step 1 of 10 R220 for a matrix command. -/
def matrixControl (t : Team) (op : Nat) (v : Nat → Nat) : Option Nat :=
  if op = 3 then
    (if completionBad t (v 1) then some 1 else if bits (v 0) 31 3 ≠ 0 then some 0 else none)
  else if completionBad t (v 3) then some 3
  else if op = 4 then
    (if bits (v 0) 31 9 ≠ 0 ∨ bit (v 0) 3 ∨ 1 < bits (v 0) 7 4 then some 0 else none)
  else if bits (v 2) 31 3 ≠ 0 then some 2 else none

def matrixHandles (op : Nat) (v : Nat → Nat) : List (Nat × Nat) :=
  match op with
  | 3 => []
  | 4 => [(1, v 1)]
  | _ => [(0, v 0), (1, v 1)]

def matrixRules (op : Nat) (xs : List Shape) : Option Nat :=
  match op with
  | 3 => none
  | 4 => epilogueRules (xs.getD 0 (shapeOf []))
  | _ => mulRules op (xs.getD 0 (shapeOf [])) (xs.getD 1 (shapeOf []))

def State.checkMatrix (s : State) (a : Acting) (op : Nat) (v : Nat → Nat) :
    State × Except TrapInfo (List (List Nat)) :=
  match matrixControl a.team op v with
  | some i => (s, .error (operandTrap i))
  | none =>
    match s.useHandles a.team a.gang.core (matrixHandles op v) with
    | (s, .error i) => (s, .error i)
    | (s, .ok recs) =>
      match matrixRules op (recs.map shapeOf) with
      | some i => (s, .error (operandTrap i))
      | none =>
        match s.checkExtents a.team (recs.map shapeOf) with
        | some i => (s, .error i)
        | none => (s, .ok recs)

/-- The arrays whose queues a command enters (10 R238). -/
def matrixArrays (core op sel : Nat) : List Nat :=
  if op = 1 then [0, 1] else if op ≤ 2 then [core % 4 / 2] else [(core % 4 / 2 + sel / 4) % 2]

/-- Whether the queues that a command enters have room: those of its arrays, or, of a dead engine, the guest queues of the
one that runs its commands (10 R219). -/
def State.matrixRoom (s : State) (core op sel : Nat) : Bool :=
  let q := quadOfCore core
  let e := s.engineOf q
  (matrixArrays core op sel).all (fun k => decide ((s.cmdQueue e k (e != q)).length < 16))

/-- Whether two matrix commands enter a common queue. -/
def sameQueue (core op sel op' sel' : Nat) : Bool :=
  (matrixArrays core op sel).any (fun k => isIn (matrixArrays core op' sel') k)

/-- Whether no matrix command of a core that was issued before waits at its word for a queue that a command enters: the
commands of one core run in issue order (10 R238). -/
def State.matrixTurn (s : State) (core op sel order : Nat) : Bool :=
  s.gangs.all (fun g => g.2.core != core || g.2.cohorts.all (fun c =>
    !(c.2.hold && decide (c.2.order < order)) || (match c.2.args with
      | o :: v :: _ => decide (o.toNat < 16) || !sameQueue core op sel (o.toNat - 16) v.toNat
      | _ => true)))

/-- A matrix command is accepted or refused; `mmulw` enters both queues at once (10 R238). -/
def State.acceptMatrix (s : State) (op : Nat) (args : List Nat) (order : Nat) : State :=
  s.act fun a =>
    let v := fun (i : Nat) => args.getD i 0
    match s.checkMatrix a op v with
    | (s, .error i) => s.trap a.co.mask i
    | (s, .ok recs) =>
      let q := quadOfCore a.gang.core
      let uid := s.nextId
      let engerr := match s.launch? a.team.launch with
        | some y => ofBool y.desc.engerr
        | none => 0
      let c : MCmd :=
        { uid := uid, gang := a.gid, mask := a.co.mask, team := a.gang.team, lease := a.team.lease, ten := a.team.part,
          level := a.level, core := a.gang.core, home := q, op := op, recs := recs,
          args := [v 0, v 1, v 2, v 3, engerr], order := order,
          seen := a.lanes.foldl (fun vc l => clockJoin vc (a.gang.lane l).vc) [] }
      ((matrixArrays a.gang.core op (v 0)).foldl (fun (s : State) k =>
        (s.claimArray q k a.team.part).onArray q k (fun x => { x with queue := x.queue ++ [c] }))
        { s with nextId := uid + 1 }).finish

/-! ### The command words -/

/-- A command is accepted or refused now; its number is 0 to 5 for copies, 16 to 20 for matrix commands. -/
def State.acceptCmd (s : State) (op : Nat) (args : List Nat) (order : Nat) : State :=
  if op < 16 then s.acceptCopy op args else s.acceptMatrix (op - 16) args order

/-- Whether a command that has issued may be accepted or refused: its queue has room, and it is its turn. -/
def State.cmdRoom (s : State) (core op : Nat) (args : List Nat) (order : Nat) : Bool :=
  if op < 16 then s.copyRoom core
  else s.matrixRoom core (op - 16) (args.getD 0 0) && s.matrixTurn core (op - 16) (args.getD 0 0) order

/-- The operands that a command word reads at issue from its leader lane: v[d] to v[d+n-1], and V(ld,a). -/
def State.cmdArgs (s : State) (a : Acting) (d n : Nat) (x : Option Nat) : List Nat :=
  ((List.range n).map (fun i => (s.reg a.gang a.leader (d + i)).toNat)) ++ (match x with
    | some r => [(s.reg a.gang a.leader r).toNat]
    | none => [])

/-- A command word at a release point or none: it is accepted or refused, or waits at its word for room with the
operands it has read (10 R219). -/
def State.cmdWord (s : State) (op d n : Nat) (x : Option Nat) : State :=
  s.act fun a =>
    let args := s.cmdArgs a d n x
    let (order, s) := s.issue.fresh
    if s.cmdRoom a.gang.core op args order then s.acceptCmd op args order
    else s.onCohort (fun c => { c with hold := true, args := (op :: args).map (BitVec.ofNat 32), order := order })

/-- A copy word: due engine traps, the release of its issue, for which it waits at its word, then the command. -/
def State.copyWord (s : State) (op : Nat) (d : Fin 128) (x : Option Nat) : Host.Outcome State Fault Refusal :=
  .next (s.takeDue.beginWord.atRelease 2 (fun s => s.cmdWord op d.val 4 x))

/-- CPY (R231, R232). -/
def execCpy (d : Fin 128) (s : State) : Host.Outcome State Fault Refusal := s.copyWord 0 d none

/-- CPG (R233). -/
def execCpg (d a : Fin 128) (s : State) : Host.Outcome State Fault Refusal := s.copyWord 1 d (some a.val)

/-- CPS (R233). -/
def execCps (d a : Fin 128) (s : State) : Host.Outcome State Fault Refusal := s.copyWord 2 d (some a.val)

/-- CPXW (R235). -/
def execCpxw (d : Fin 128) (s : State) : Host.Outcome State Fault Refusal := s.copyWord 3 d none

/-- CPXR (R235). -/
def execCpxr (d : Fin 128) (s : State) : Host.Outcome State Fault Refusal := s.copyWord 4 d none

/-- CPF (R234). -/
def execCpf (d : Fin 128) (s : State) : Host.Outcome State Fault Refusal := s.copyWord 5 d none

/-- MMUL (R239, R240). -/
def execMmul (d : Fin 128) (s : State) : Host.Outcome State Fault Refusal := .next (s.takeDue.cmdWord 16 d.val 4 none)

/-- MMULW (R239, R240). -/
def execMmulw (d : Fin 128) (s : State) : Host.Outcome State Fault Refusal := .next (s.takeDue.cmdWord 17 d.val 4 none)

/-- MMSP (R239, R240). -/
def execMmsp (d : Fin 128) (s : State) : Host.Outcome State Fault Refusal := .next (s.takeDue.cmdWord 18 d.val 4 none)

/-- MZERO (R243). -/
def execMzero (d : Fin 128) (s : State) : Host.Outcome State Fault Refusal := .next (s.takeDue.cmdWord 19 d.val 2 none)

/-- MEPI (R244). -/
def execMepi (d : Fin 128) (s : State) : Host.Outcome State Fault Refusal := .next (s.takeDue.cmdWord 20 d.val 4 none)

/-- MFENCE (R242): every scratch store and `acwr` of the gang has been performed when its word has issued, and the A-buffer
atomics of the gang are applied. The commands that the core accepts from then on see them, and the writes of other lanes that
come before. -/
def execMfence (s : State) : Host.Outcome State Fault Refusal :=
  .next (s.takeDue.act fun a =>
    let s : State := s.takeDue.landScratch a.gid (-1)
    let vcs := a.lanes.map (fun l => (a.gang.lane l).vc)
    let mark := fun (es : List OldUnit) => fenceOlds es a.gang.core s.nextId a.gid vcs
    let s : State := (if a.team.paired then [a.gang.core - a.gang.core % 2, a.gang.core - a.gang.core % 2 + 1] else
      [a.gang.core]).foldl (fun s c =>
        if (s.core c).olds.isEmpty then s else s.onCore c (fun x => { x with olds := mark x.olds })) s
    let q := quadOfCore a.gang.core
    ([0, 1].foldl (fun s k => if (s.array q k).olds.isEmpty then s
      else s.onArray q k (fun x => { x with olds := mark x.olds })) s).issue.finish)

/-! ### The accumulator words (10 R245) -/

/-- The array that an accumulator word names: the pair's, or the quad's other one. -/
def accArray (core x : Nat) : Nat := (core % 4 / 2 + x) % 2

/-- The checks of `acrd` and `acwr` for one lane. -/
def accCheck (o : Nat) : Option TrapInfo :=
  if o % 4 ≠ 0 then some { cause := 0x04, tinfo := spaceInfo 3 4, taddr := o }
  else if 0x3FFFC < o then some { cause := 0x05, tinfo := spaceInfo 3 4, taddr := o }
  else none

/-- The offsets of the lanes of an accumulator word that pass their checks. -/
def State.accOffsets (s : State) (a : Acting) (va : Fin 128) : List Nat :=
  (a.lanes.map (fun l => (s.reg a.gang l va.val).toNat)).filter (fun o => (accCheck o).isNone)

/-- The word of a C-store that `acrd` returns to a lane: while a command that writes the tile is outstanding, one that it held
before the command or after any step of it, as a free choice (10 R246). -/
def State.accWord (s : State) (y : Array) (l o : Nat) : Nat :=
  match memNat y.cstore o 4 :: ((y.was.filter (fun w => w.2.1 == o / 0x10000)).map (fun w => memNat w.2.2 o 4)) with
  | [v] => v
  | vs => vs.getD (s.pick (2 ^ 37 + 2 ^ 20 * l + o) vs.length) 0

/-- ACRD (R245, R246): a double-bit error halts the team (17 R322). -/
def execAcrd (d va : Fin 128) (x : Fin 2) (s : State) : Host.Outcome State Fault Refusal :=
  .next (s.takeDue.act fun a =>
    let k := accArray a.gang.core x.val
    let t : State := s.takeDue.claimArray (quadOfCore a.gang.core) k a.team.part
    if (t.accOffsets a va).any (fun o => errIn (t.array (quadOfCore a.gang.core) k).cErr o 4) then
      t.issue.laneError a.gang.core a.gang.team
    else t.laneWord false (fun b l =>
      let o := (t.reg b.gang l va.val).toNat
      match accCheck o with
      | some i => .trap i
      | none =>
        let y := t.array (quadOfCore a.gang.core) k
        if isIn y.poison (128 * (o / 0x10000) + o % 0x10000 / 512) then .trap { cause := 0x12, taddr := o }
        else .regs [(d.val, BitVec.ofNat 32 (t.accWord y l o))]))

/-- ACWR (R245). A command that writes the tile and this word leave the element as some serial order of them would (R246): what
`acrd` may return from before is the value written too. -/
def execAcwr (d va : Fin 128) (x : Fin 2) (s : State) : Host.Outcome State Fault Refusal :=
  .next (s.takeDue.act fun a =>
    let q := quadOfCore a.gang.core
    let k := accArray a.gang.core x.val
    let s : State := (s.takeDue.claimArray q k a.team.part).issue
    let off := fun (l : Nat) => (s.reg a.gang l va.val).toNat
    let s : State := a.lanes.foldl (fun t l =>
      if (accCheck (off l)).isNone then
        let v := (s.reg a.gang l d.val).toNat
        let p := (a.gang.lane l).bufParty a.gid l
        t.onArray q k (fun y => { y with
          olds := y.olds ++ [{ wbuf := false, unit := off l / 4, bytes := memRead y.cstore (off l) 4, mask := [0, 1, 2, 3],
                               gang := p.gang, party := p.party, clk := p.clk }]
          was := y.was.map (fun w => (w.1, w.2.1, memPut w.2.2 (off l) 4 v))
          cstore := memPut y.cstore (off l) 4 v, cErr := errAfter y.cErr (off l) 4 })
      else t) s
    (s.trapEach (a.lanes.filterMap (fun l => (accCheck (off l)).map (fun i => (l, i))))).finish)

/-- ACST (R245). -/
def execAcst (d : Fin 128) (k : Fin 64) (s : State) : Host.Outcome State Fault Refusal :=
  .next (s.takeDue.act fun a =>
    let q := quadOfCore a.gang.core
    let i := accArray a.gang.core (bits k.val 2 2)
    let t : State := s.takeDue.claimArray q i a.team.part
    let y := t.array q i
    let rows := if bit k.val 5 then y.poison else y.ovf
    let first := 128 * bits k.val 1 0 + 32 * bits k.val 4 3
    let v := (List.range 32).foldl (fun n j => n + ofBool (isIn rows (first + j)) * 2 ^ j) 0
    t.laneValue false d.val (fun _ _ => BitVec.ofNat 32 v))

/-! ### Shape-record words (10 R253, R254) -/

/-- The bytes of a record that `shset` writes. -/
def State.shapeBytes (s : State) (a : Acting) (r g : Nat) : List Byte :=
  (List.range 15).flatMap (fun i => leBytes 4 (s.reg a.gang a.leader (r + i)).toNat) ++ leBytes 4 (2 ^ 31 + g)

/-- SHSET (R253): the operand that a slot beyond the table names is open, and is a free value. The update is an atomic access
of 64 bytes, which no host page carries (01 R23, 08 R188). -/
def execShset (d va b : Fin 128) (s : State) : Host.Outcome State Fault Refusal :=
  .next (s.takeDue.act fun a =>
    let s : State := s.takeDue.issue
    let slot := (s.reg a.gang a.leader b.val).toNat
    let give := fun (s : State) (h : Nat) =>
      (a.lanes.foldl (fun s l => s.pendLane a.gid l false [(d.val, BitVec.ofNat 32 h)]) s).finish
    if s.shapeSlots a.team ≤ slot then s.trap a.co.mask (operandTrap (s.pick 13 8))
    else
      let addr := s.shapeAddr a.team slot
      let ctx := a.team.shapeCtx a.gang.core false
      match s.hwLoad ctx addr 64 3 (.atomic 13) with
      | (s, .error (f, v)) => s.trap a.co.mask { cause := f.cause, tinfo := f.synd, taddr := v }
      | (t, .ok bs) =>
        let g := (words16 bs).getD 15 0 % 2 ^ 12
        let drop := fun (t : State) => t.dropShape (tkey a.team.lease (a.team.xten.getD 16)) slot
        if g = 4095 then give (drop t) 0
        else
          match t.hwStore ctx addr (s.shapeBytes a va.val (g + 1)) 3 with
          | (t, .error (f, v)) => t.trap a.co.mask { cause := f.cause, tinfo := f.synd, taddr := v }
          | (t, .ok _) =>
            give (drop t) (slot * 2 ^ 12 + (g + 1)))

/-- SHINV (R254): it waits at its word for the stores of its lanes. -/
def execShinv (va : Fin 128) (s : State) : Host.Outcome State Fault Refusal :=
  .next (s.takeDue.act fun a =>
    let s : State := s.takeDue
    if s.storesPending a.gid a.co.mask 2 then s
    else
      let slot := (s.reg a.gang a.leader va.val).toNat / 2 ^ 12
      (s.issue.dropShape (tkey a.team.lease (a.team.xten.getD 16)) slot).finish)

end Sys2Proof.Machine
end

