-- ==== Sys2Proof/Machine/LoadStore.lean ====
section
/-! DEFINITION. The meanings of the loads, stores, bounded loads, atomics, reductions and sum-range words
(09 R192 to R213). -/
namespace Sys2Proof.Machine

/-- The registers d to d + n - 1. -/
def regsFrom (d : Fin 128) (n : Nat) : List Nat := (List.range n).map (fun j => d.val + j)

/-- A plain load of `size` bytes (09 R196). -/
def loadWord (size : Nat) (signed : Bool) (d a : Fin 128) (i : Fin 2048) : GWord :=
  { op := .load, size := size, acc := 0, addr := fun s x l => effAddr s x l a (imm11 i * size),
    dst := regsFrom d ((size + 3) / 4), signed := signed }

/-- A plain store of `size` bytes from v[d] on (09 R196). -/
def storeGWord (size : Nat) (d a : Fin 128) (i : Fin 2048) : GWord :=
  { op := .store, size := size, acc := 1, addr := fun s x l => effAddr s x l a (imm11 i * size),
    data := fun s x l => (s.regBytes x.gang l d.val ((size + 3) / 4)).take size }

/-- A bounded load with bound b and mode m (09 R201). -/
def boundedWord (size : Nat) (d a : Fin 128) (b : Fin 16) (m : Fin 2) (o : Fin 64) : GWord :=
  { op := .bounded 0, size := size, acc := 0, addr := fun s x l => effAddr s x l a (o.val * size),
    dst := regsFrom d (size / 4), bound := b.val, trapMode := m.val == 1 }

/-- LD_B (R196). -/
def execLdB (d a : Fin 128) (i : Fin 2048) (s : State) : Host.Outcome State Fault Refusal :=
  s.preciseWord (loadWord 1 false d a i)

/-- LD_BS (R196). -/
def execLdBs (d a : Fin 128) (i : Fin 2048) (s : State) : Host.Outcome State Fault Refusal :=
  s.preciseWord (loadWord 1 true d a i)

/-- LD_H (R196). -/
def execLdH (d a : Fin 128) (i : Fin 2048) (s : State) : Host.Outcome State Fault Refusal :=
  s.preciseWord (loadWord 2 false d a i)

/-- LD_HS (R196). -/
def execLdHs (d a : Fin 128) (i : Fin 2048) (s : State) : Host.Outcome State Fault Refusal :=
  s.preciseWord (loadWord 2 true d a i)

/-- LD_W (R196). -/
def execLdW (d a : Fin 128) (i : Fin 2048) (s : State) : Host.Outcome State Fault Refusal :=
  s.preciseWord (loadWord 4 false d a i)

/-- LD_D (R196). -/
def execLdD (d a : Fin 128) (i : Fin 2048) (s : State) : Host.Outcome State Fault Refusal :=
  s.preciseWord (loadWord 8 false d a i)

/-- LD_Q (R196). -/
def execLdQ (d a : Fin 128) (i : Fin 2048) (s : State) : Host.Outcome State Fault Refusal :=
  s.preciseWord (loadWord 16 false d a i)

/-- ST_B (R196). -/
def execStB (d a : Fin 128) (i : Fin 2048) (s : State) : Host.Outcome State Fault Refusal :=
  s.imprecise (storeGWord 1 d a i)

/-- ST_H (R196). -/
def execStH (d a : Fin 128) (i : Fin 2048) (s : State) : Host.Outcome State Fault Refusal :=
  s.imprecise (storeGWord 2 d a i)

/-- ST_W (R196). -/
def execStW (d a : Fin 128) (i : Fin 2048) (s : State) : Host.Outcome State Fault Refusal :=
  s.imprecise (storeGWord 4 d a i)

/-- ST_D (R196). -/
def execStD (d a : Fin 128) (i : Fin 2048) (s : State) : Host.Outcome State Fault Refusal :=
  s.imprecise (storeGWord 8 d a i)

/-- ST_Q (R196). -/
def execStQ (d a : Fin 128) (i : Fin 2048) (s : State) : Host.Outcome State Fault Refusal :=
  s.imprecise (storeGWord 16 d a i)

/-- LDB_W (R201, R202). -/
def execLdbW (d a : Fin 128) (b : Fin 16) (m : Fin 2) (o : Fin 64) (s : State) : Host.Outcome State Fault Refusal :=
  s.preciseWord (boundedWord 4 d a b m o)

/-- LDB_D (R201, R202). -/
def execLdbD (d a : Fin 128) (b : Fin 16) (m : Fin 2) (o : Fin 64) (s : State) : Host.Outcome State Fault Refusal :=
  s.preciseWord (boundedWord 8 d a b m o)

/-- LDB_Q (R201, R202). -/
def execLdbQ (d a : Fin 128) (b : Fin 16) (m : Fin 2) (o : Fin 64) (s : State) : Host.Outcome State Fault Refusal :=
  s.preciseWord (boundedWord 16 d a b m o)

/-! ### Atomics and reductions -/

/-- `atom` of one operation (09 R206): y is V(L,b), or P(L,b) for add64; the compare value of cas is V(L,d). -/
def atomWord (fn : Nat) (o sc : Fin 4) (d a b : Fin 128) : GWord :=
  let size := if fn = 11 then 8 else 4
  { op := .atomic fn, size := size, acc := 3, addr := fun s x l => effAddr s x l a 0,
    dst := regsFrom d (size / 4), ord := o.val, scope := sc.val,
    data := fun s x l => s.regBytes x.gang l b.val (size / 4),
    cmp := fun s x l => (s.reg x.gang l d.val).toNat }

/-- An atomic; one with release order is a release point first (09 R206, 17 R335). -/
def State.atom (s : State) (fn : Nat) (o sc : Fin 4) (d a b : Fin 128) : Host.Outcome State Fault Refusal :=
  let g := atomWord fn o sc d a b
  if 2 ≤ o.val then
    if s.ownerOutside g.addr then .fault .noMemory
    else .next (s.beginWord.atRelease sc.val (fun s => match s.preciseWord g with
      | .next t => t
      | _ => s))
  else s.preciseWord g

/-- ATOM_ADD (R206). -/
def execAtomAdd (o sc : Fin 4) (d a b : Fin 128) (s : State) : Host.Outcome State Fault Refusal := s.atom 0 o sc d a b

/-- ATOM_MIN (R206). -/
def execAtomMin (o sc : Fin 4) (d a b : Fin 128) (s : State) : Host.Outcome State Fault Refusal := s.atom 1 o sc d a b

/-- ATOM_MAX (R206). -/
def execAtomMax (o sc : Fin 4) (d a b : Fin 128) (s : State) : Host.Outcome State Fault Refusal := s.atom 2 o sc d a b

/-- ATOM_UMIN (R206). -/
def execAtomUmin (o sc : Fin 4) (d a b : Fin 128) (s : State) : Host.Outcome State Fault Refusal := s.atom 3 o sc d a b

/-- ATOM_UMAX (R206). -/
def execAtomUmax (o sc : Fin 4) (d a b : Fin 128) (s : State) : Host.Outcome State Fault Refusal := s.atom 4 o sc d a b

/-- ATOM_AND (R206). -/
def execAtomAnd (o sc : Fin 4) (d a b : Fin 128) (s : State) : Host.Outcome State Fault Refusal := s.atom 5 o sc d a b

/-- ATOM_OR (R206). -/
def execAtomOr (o sc : Fin 4) (d a b : Fin 128) (s : State) : Host.Outcome State Fault Refusal := s.atom 6 o sc d a b

/-- ATOM_XOR (R206). -/
def execAtomXor (o sc : Fin 4) (d a b : Fin 128) (s : State) : Host.Outcome State Fault Refusal := s.atom 7 o sc d a b

/-- ATOM_XCHG (R206). -/
def execAtomXchg (o sc : Fin 4) (d a b : Fin 128) (s : State) : Host.Outcome State Fault Refusal := s.atom 8 o sc d a b

/-- ATOM_CAS (R206). -/
def execAtomCas (o sc : Fin 4) (d a b : Fin 128) (s : State) : Host.Outcome State Fault Refusal := s.atom 9 o sc d a b

/-- ATOM_FADD (R206, R207). -/
def execAtomFadd (o sc : Fin 4) (d a b : Fin 128) (s : State) : Host.Outcome State Fault Refusal :=
  s.atom 10 o sc d a b

/-- ATOM_ADD64 (R206). -/
def execAtomAdd64 (o sc : Fin 4) (d a b : Fin 128) (s : State) : Host.Outcome State Fault Refusal :=
  s.atom 11 o sc d a b

/-- A reduction (09 R210), with the operation's number in the order of `atom`. -/
def redWord (fn ord scope kind : Nat) (a b : Fin 128) : GWord :=
  { op := .red fn, size := 4, acc := 3, addr := fun s x l => effAddr s x l a 0, ord := ord, scope := scope,
    data := fun s x l => s.regBytes x.gang l b.val 1, kind := kind }

/-- Whether a part of the acting cohort's word has issued (09 R200). -/
def State.partIssued (s : State) : Bool := s.acting.any (fun a => a.co.done != 0)

/-- A reduction; one with release order is a release point before its first part. -/
def State.red (s : State) (i : Nat) (o sc : Fin 4) (a b : Fin 128) : Host.Outcome State Fault Refusal :=
  let g := redWord (redFn i) o.val sc.val 1 a b
  if 2 ≤ o.val ∧ !s.partIssued then
    if s.ownerOutside g.addr then .fault .noMemory
    else .next (s.beginWord.atRelease sc.val (fun s => match s.imprecise g with
      | .next t => t
      | _ => s))
  else s.imprecise g

/-- RED_ADD (R210). -/
def execRedAdd (o sc : Fin 4) (a b : Fin 128) (s : State) : Host.Outcome State Fault Refusal := s.red 0 o sc a b

/-- RED_MIN (R210). -/
def execRedMin (o sc : Fin 4) (a b : Fin 128) (s : State) : Host.Outcome State Fault Refusal := s.red 1 o sc a b

/-- RED_MAX (R210). -/
def execRedMax (o sc : Fin 4) (a b : Fin 128) (s : State) : Host.Outcome State Fault Refusal := s.red 2 o sc a b

/-- RED_AND (R210). -/
def execRedAnd (o sc : Fin 4) (a b : Fin 128) (s : State) : Host.Outcome State Fault Refusal := s.red 3 o sc a b

/-- RED_OR (R210). -/
def execRedOr (o sc : Fin 4) (a b : Fin 128) (s : State) : Host.Outcome State Fault Refusal := s.red 4 o sc a b

/-- RED_XOR (R210). -/
def execRedXor (o sc : Fin 4) (a b : Fin 128) (s : State) : Host.Outcome State Fault Refusal := s.red 5 o sc a b

/-- RED_FADD (R207, R210). -/
def execRedFadd (o sc : Fin 4) (a b : Fin 128) (s : State) : Host.Outcome State Fault Refusal := s.red 6 o sc a b

/-! ### Sum-range accumulation -/

/-- The integer that a sacc adds (09 R212): mode 2 is INT32, mode 3 FX64 with a binary point. -/
def saccValue (float : Bool) (mode point : Nat) (v : Word) : Int :=
  if mode = 2 then
    (if float then enterSum 0 (-(2 ^ 31)) (2 ^ 31 - 1) v.toNat else sext 32 v.toNat)
  else (if float then enterSum point (-(2 ^ 63)) (2 ^ 63 - 1) v.toNat else sext 32 v.toNat)

/-- The element size of a `sacc` on a page: 8 bytes in an FX64 range, else 4 (09 R212, R213). -/
def saccSize (x : Xlat) : Nat := if x.kind = 0 ∧ x.mode = 3 then 8 else 4

/-- Whether an earlier access of a lane to the words of an element has not been executed: its `sacc` follows it to the home
(09 R214). -/
def State.wordUnder (s : State) (gid l pa size : Nat) : Bool :=
  s.accesses.any (fun p => p.2.gang == gid && p.2.lane == l && p.2.kind == 0 && p.2.op.counts && p.2.unserved &&
    decide (p.2.pa / 4 ≤ (pa + size - 1) / 4 ∧ pa / 4 ≤ (p.2.pa + p.2.size - 1) / 4))

/-- `sacc` (09 R212, R213): on a page of another mode it is the relaxed reduction at partition scope. An address that is no
multiple of 4 is misaligned on every page and is recorded with SIZE 4; the 8-byte alignment of an FX64 range is known only
once the page is translated, and is checked after that (DESIGN CHOICE, log entry 88). -/
def State.sacc (s : State) (float : Bool) (a b : Fin 128) : Host.Outcome State Fault Refusal :=
  let g : GWord := { redWord (if float then 10 else 0) 0 2 2 a b with signed := true }
  if s.ownerOutside g.addr then .fault .noMemory
  else .next (s.storeWord fun s x lanes =>
    lanes.foldl (fun s l =>
      match s.checkLane x g l with
      | (s, .fail i synd) => s.failStore x g l i synd
      | (s, .go y) =>
        let size := saccSize y
        let va := g.addr s x l
        if va % size ≠ 0 then
          s.failStore x { g with size := size } l { cause := 0x04, tinfo := spaceInfo 0 size, taddr := va }
            (g.acc * 2 ^ 6)
        else if y.kind = 0 ∧ (y.mode = 2 ∨ y.mode = 3) then
          let v := saccValue float y.mode y.point (s.reg x.gang l b.val)
          if s.reads0 y ∨ isIn s.fills (y.pa / 2 ^ 16) ∨ s.wordUnder x.gid l y.pa size then
            s.sendLate x { g with op := .sacc v, size := size } l y
          else s.addPartial x.gang.core y.pa size x.team.part y.aidx v
        else s.sendLate x g l y) s)

/-- SACC_W (R212, R213). -/
def execSaccW (a b : Fin 128) (s : State) : Host.Outcome State Fault Refusal := s.sacc false a b

/-- SACC_F (R212, R213). -/
def execSaccF (a b : Fin 128) (s : State) : Host.Outcome State Fault Refusal := s.sacc true a b

end Sys2Proof.Machine
end

