-- ==== Sys2Proof/Machine/Work.lean ====
section
/-! DEFINITION. The words of static routes and of work (12 R298 to R305). -/
namespace Sys2Proof.Machine

/-! ### Static routes -/

/-- The tenant of a team as route words name it: code of no tenant has no route. -/
def Team.routeTenant (t : Team) : Nat := t.tenant.getD 16

/-- The station of a core in a route. -/
def State.stationIn (s : State) (lease n rt core : Nat) : Option Nat :=
  (s.lease? lease).bind (fun l => l.stationOf (s.route lease n rt) core)

/-- Words in the FIFO of station i, and words under way to it. -/
def Route.avail (r : Route) (i : Nat) : List Nat := assocGet [] r.fifos i
def Route.coming (r : Route) (i : Nat) : List Nat := assocGet [] r.flight i

/-- Free entries of the FIFO of station i that nothing under way will take (12 R297). -/
def Route.credit (r : Route) (i : Nat) : Nat := 256 - (r.avail i).length - (r.coming i).length

/-- Why a route word traps before it waits: the reasons of 12 R301, those of the test of 12 R298 first. DESIGN CHOICE: a broken
route with more than 256 words asked traps with reason 3; no rule orders the two (log entry 117). -/
def State.routeRefusal (s : State) (lease n rt core q : Nat) (send : Bool) : Option Nat :=
  let r := s.route lease n rt
  if !r.en then some 1
  else
    match s.stationIn lease n rt core with
    | none => some 2
    | some i =>
      if (send && r.last ≤ i) || (!send && i == 0) then some 2
      else if 256 < q then some 3
      else if r.broken && (send || decide ((r.avail i).length < q)) then some 0
      else none

/-- Whether a route word that is not refused has its room or its words. -/
def State.routeReady (s : State) (lease n rt core q : Nat) (send : Bool) : Bool :=
  let r := s.route lease n rt
  match s.stationIn lease n rt core with
  | none => false
  | some i => if send then decide (q ≤ r.credit (i + 1)) else decide (q ≤ (r.avail i).length)

/-- Words leave a station for the next one. -/
def State.routePut (s : State) (lease n rt core : Nat) (vals : List Nat) : State :=
  match s.stationIn lease n rt core with
  | none => s
  | some i => s.onRoute lease n rt (fun r => { r with flight := assocSet r.flight (i + 1) (r.coming (i + 1) ++ vals) })

/-- Words taken from a station's FIFO. -/
def State.routeTake (s : State) (lease n rt core q : Nat) : List Nat × State :=
  match s.stationIn lease n rt core with
  | none => ([], s)
  | some i =>
    let xs := (s.route lease n rt).avail i
    (xs.take q, s.onRoute lease n rt (fun r => { r with fifos := assocSet r.fifos i (xs.drop q) }))

/-- The words received by lanes, lane-major, n registers each from d on. -/
def State.giveWords (s : State) (gid : Nat) (m : Mask) (d n : Nat) (vals : List Nat) : State :=
  ((lanesOf m).zipIdx).foldl (fun s p => (List.range n).foldl (fun s j =>
    s.pendLane gid p.1 false [(d + j, BitVec.ofNat 32 (vals.getD (n * p.2 + j) 0))]) s) s

/-- The words that a send takes from its lanes, lane-major. -/
def State.sentWords (s : State) (a : Acting) (r n : Nat) : List Nat :=
  a.lanes.flatMap (fun l => (List.range n).map (fun j => (s.reg a.gang l (r + j)).toNat))

/-- A route word: a due engine trap, then the refusals of 12 R298, then `k`. -/
def State.routeWord (s : State) (rt n : Nat) (send : Bool) (k : State → Acting → Nat → State) : State :=
  s.takeDue.act fun a =>
    let s : State := s.takeDue.issue
    let q := a.lanes.length * n
    match s.routeRefusal a.team.lease a.team.routeTenant rt a.gang.core q send with
    | some reason => s.trap a.co.mask (s.routeTrap a.team.lease a.team.routeTenant rt a.gang.core reason send)
    | none => k s a q

/-- RTSEND (R298): the registers are read at issue; the cohort parks until the next FIFO has room. -/
def execRtsend (r : Fin 64) (va : Fin 128) (n : Fin 8) (s : State) : Host.Outcome State Fault Refusal :=
  .next (s.routeWord r.val (n.val + 1) true (fun s a q =>
    let vals := s.sentWords a va.val (n.val + 1)
    if s.routeReady a.team.lease a.team.routeTenant r.val a.gang.core q true then
      (s.routePut a.team.lease a.team.routeTenant r.val a.gang.core vals).finish
    else s.parkAt a a.co.mask (.route true r.val va.val (n.val + 1) (vals.map (BitVec.ofNat 32)))))

/-- RTRECV (R298). -/
def execRtrecv (d : Fin 128) (r : Fin 64) (n : Fin 8) (s : State) : Host.Outcome State Fault Refusal :=
  .next (s.routeWord r.val (n.val + 1) false (fun s a q =>
    if s.routeReady a.team.lease a.team.routeTenant r.val a.gang.core q false then
      let (xs, s) := s.routeTake a.team.lease a.team.routeTenant r.val a.gang.core q
      (s.giveWords a.gid a.co.mask d.val (n.val + 1) xs).finish
    else s.parkAt a a.co.mask (.route false r.val d.val (n.val + 1) [])))

/-- Whether the parked group of a route word may go on or must trap: a broken route traps every send, and a receive
that would go on waiting (12 R301). -/
def State.routeWaitOver (s : State) (t : Team) (core q rt : Nat) (send : Bool) : Bool :=
  s.routeReady t.lease t.routeTenant rt core q send || (s.route t.lease t.routeTenant rt).broken

/-- The parked group of a route word goes on, or traps because the route broke. -/
def State.routeWake (s : State) (gid w : Nat) (send : Bool) (rt d n : Nat) (vals : List Nat) : State :=
  match s.wait? gid w, s.gang? gid with
  | some x, some g =>
    match s.team? g.team with
    | none => s
    | some t =>
      let q := (lanesOf x.mask).length * n
      let r := s.route t.lease t.routeTenant rt
      let ready := s.routeReady t.lease t.routeTenant rt g.core q send
      if send then
        if r.broken then s.trapWait gid w (s.routeTrap t.lease t.routeTenant rt g.core 0 true)
        else if ready then (s.routePut t.lease t.routeTenant rt g.core vals).unpark gid w true
        else s
      else if ready then
        let (xs, s) := s.routeTake t.lease t.routeTenant rt g.core q
        (s.giveWords gid x.mask d n xs).unpark gid w true
      else if r.broken then s.trapWait gid w (s.routeTrap t.lease t.routeTenant rt g.core 0 false)
      else s
  | _, _ => s

/-- RTSENDQ (R299). -/
def execRtsendq (d va : Fin 128) (r : Fin 64) (s : State) : Host.Outcome State Fault Refusal :=
  .next (s.routeWord r.val 1 true (fun s a q =>
    let ok := s.routeReady a.team.lease a.team.routeTenant r.val a.gang.core q true
    let vals := s.sentWords a va.val 1
    let s : State := if ok then s.routePut a.team.lease a.team.routeTenant r.val a.gang.core vals else s
    (a.lanes.foldl (fun s l => s.pendLane a.gid l false [(d.val, truth ok)]) s).finish))

/-- RTRECVQ (R299). -/
def execRtrecvq (d : Fin 128) (r : Fin 64) (s : State) : Host.Outcome State Fault Refusal :=
  .next (s.routeWord r.val 1 false (fun s a q =>
    if s.routeReady a.team.lease a.team.routeTenant r.val a.gang.core q false then
      let (xs, s) := s.routeTake a.team.lease a.team.routeTenant r.val a.gang.core q
      ((a.lanes.zipIdx).foldl (fun s p => s.pendLane a.gid p.1 false
        [(d.val, BitVec.ofNat 32 (xs.getD p.2 0)), (d.val + 1, truth true)]) s).finish
    else (a.lanes.foldl (fun s l => s.pendLane a.gid l false [(d.val + 1, 0)]) s).finish))

/-- The state of a route as a core sees it (12 R300). -/
def State.routeStatus (s : State) (lease n rt core : Nat) : Nat :=
  let r := s.route lease n rt
  let st := s.stationIn lease n rt core
  let recv := st.any (fun i => i != 0)
  let send := st.any (fun i => decide (i < r.last))
  let i := st.getD 0
  ofBool r.en * 2 ^ 31 + ofBool r.broken * 2 ^ 30 + ofBool recv * 2 ^ 29 + ofBool send * 2 ^ 28 +
    (if recv then min 1023 (assocGet 0 r.lost i) else 0) * 2 ^ 18 + (if send then r.credit (i + 1) else 0) * 2 ^ 9 +
    (if recv then (r.avail i).length else 0)

/-- RTSTAT (R300). -/
def execRtstat (d : Fin 128) (r : Fin 64) (s : State) : Host.Outcome State Fault Refusal :=
  .next (s.takeDue.laneValue false d.val (fun a _ =>
    BitVec.ofNat 32 (s.routeStatus a.team.lease a.team.routeTenant r.val a.gang.core)))

/-! ### Work words -/

/-- The queues that a team's work words name (12 R303, R304). -/
def Team.dom (t : Team) : Dom :=
  match t.tenant with
  | some n => .tenant t.lease n
  | none => .lsq t.lease

/-- WPUSH (R303): a release at partition scope of every lane, then one append per lane, ascending. A fault on the record
read traps its lane, and nothing is appended for it. -/
def execWpush (d va b : Fin 128) (s : State) : Host.Outcome State Fault Refusal :=
  .next (s.takeDue.atRelease 2 (fun s => s.act fun a =>
    let clock := fun (l : Nat) => s.leadClock a.gid (maskOf [l])
    let lead := s.leadClock a.gid a.co.mask
    let s : State := (s.issue.releaseLanes a.gid a.co.mask).2
    let s : State := s.releasePins a.gang.team a.gang.core 2 lead
    let r : State × List (Nat × TrapInfo) := a.lanes.foldl (fun r l =>
      let addr := s.pair a.gang l va.val
      let q := match a.team.tenant with
        | some _ => (s.reg a.gang l b.val).toNat
        | none => 0
      match r.1.appendCode a.team.dom q addr with
      | (t, _, some (f, v)) => (t, r.2 ++ [(l, { cause := f.cause, tinfo := f.synd, taddr := v })])
      | (t, code, none) =>
        ((t.appendAs a.team.dom q addr code (clock l) false).pendLane a.gid l false [(d.val, BitVec.ofNat 32 code)], r.2)) (s, [])
    (r.1.trapEach r.2).finish))

/-- The decrement of a wait count by `wjoin` (12 R304), as a release at partition scope of the lane's accesses. -/
def joinWord (d va : Fin 128) : GWord :=
  { op := .atomic 12, size := 4, acc := 3, addr := fun s a l => wrap 64 ((s.pair a.gang l va.val : Int) + 0x10),
    dst := [d.val], ord := 2, scope := 2,
    first := fun s a l =>
      let v := s.pair a.gang l va.val
      if v % 64 ≠ 0 then some { cause := 0x04, tinfo := 6 * 2 ^ 4, taddr := v } else none }

/-- WJOIN (R304). -/
def execWjoin (d va : Fin 128) (s : State) : Host.Outcome State Fault Refusal :=
  if s.ownerOutside (joinWord d va).addr then .fault .noMemory
  else .next (s.takeDue.beginWord.atRelease 2 (fun s => match s.preciseWord (joinWord d va) with
    | .next t => t
    | _ => s))

/-- IPUSH (R305). -/
def execIpush (d va : Fin 128) (s : State) : Host.Outcome State Fault Refusal :=
  .next (s.takeDue.act fun a =>
    (a.lanes.foldl (fun s l =>
      let st : Nat := match s.launch? a.team.launch with
        | some x => if !x.desc.item then 2 else if 4096 ≤ (s.core a.gang.core).items.length then 1 else 0
        | none => 2
      let s : State := if st = 0 then
          s.onCore a.gang.core (fun c => { c with items := c.items ++ [(a.team.launch, s.reg a.gang l va.val)] })
        else s
      s.pendLane a.gid l false [(d.val, BitVec.ofNat 32 st)]) s.takeDue.issue).finish)

end Sys2Proof.Machine
end

