-- ==== Sys2Proof/Machine/EngineEvents.lean ====
section
/-! DEFINITION. The steps of the engines and of static routes: acceptance of a waiting command, blocks and ends of
copies, steps and ends of matrix commands, dead engines, and the words and breaks of routes (10 R219 to R252;
12 R297, R301). -/
namespace Sys2Proof.Machine

/-- ENGINE_ACCEPT (R219): the command of a cohort that waits for room is accepted, or refused with a trap. -/
def execEngineAccept (gang cohort : Nat) (s : State) : Host.Outcome State Fault Refusal :=
  .next (s.asCohort gang cohort (fun s => s.act fun a =>
    match a.co.hold, a.co.args with
    | true, op :: args =>
      let vs := args.map BitVec.toNat
      if s.cmdRoom a.gang.core op.toNat vs a.co.order then
        (s.onCohort (fun c => { c with hold := false, args := [] })).acceptCmd op.toNat vs a.co.order
      else s
    | _, _ => s))

/-- Whether the copies of a team run: it is placed and its tenant's copy engines are not stopped (17 R342). -/
def State.copyRuns (s : State) (c : Copy) : Bool :=
  (match s.team? c.team with
   | some t => t.placed
   | none => false) &&
  !s.acknowledged c.ten 1

/-- COPY_BLOCK (R230): one block of one accepted command; commands of one quad may advance in any order. A copy of LEVEL 3
code that reaches memory that does not exist stops the machine (08 R168, R174; log entry 82). -/
def execCopyBlock (quad uid : Nat) (s : State) : Host.Outcome State Fault Refusal :=
  match s.copy? quad uid with
  | none => .next s
  | some c =>
    if s.copyRuns c && s.copyMay c then
      match s.copyBlockNow quad uid c with
      | some t => .next t
      | none => .fault .noMemory
    else .next s

/-- Whether a copy may end: it has moved everything, or has stopped, and its writes have been performed. -/
def State.copyOver (s : State) (c : Copy) : Bool :=
  s.copyRuns c && (c.stopped.isSome || decide (c.total ≤ c.pos)) && s.copySettled c

/-- COPY_COMPLETE (R222): a `cpxw` ends once the peer has acknowledged every write, unless it refuses one (10 R235). -/
def execCopyComplete (quad uid : Nat) (s : State) : Host.Outcome State Fault Refusal :=
  .next (match s.copy? quad uid with
    | none => s
    | some c =>
      if s.copyOver c then
        if c.op = 3 ∧ c.stopped.isNone then
          match s.peerAnswer c with
          | 0 => s
          | 1 => s.peerStop quad uid c c.dst 0x1A
          | _ => s.copyEnd quad uid c
        else s.copyEnd quad uid c
      else s)

/-- CHURN_STEP (R247): one K-group step of the command whose turn it is on an array. -/
def execChurnStep (quad arr : Nat) (s : State) : Host.Outcome State Fault Refusal :=
  .next (match s.stepOf quad arr with
    | none => s
    | some c => s.churn c quad)

/-- MATRIX_COMPLETE (R240, R222). -/
def execMatrixComplete (quad uid : Nat) (s : State) : Host.Outcome State Fault Refusal :=
  .next (match (s.cmdsOf quad).find? (fun c => c.uid == uid) with
    | none => s
    | some c => if s.mayRetire quad c then s.retireCmd quad c else s)

/-! ### Routes -/

/-- ROUTE_WORD_ARRIVE (R297): the oldest word under way to station `seg` enters its FIFO. -/
def execRouteWordArrive (lease tenant rt seg : Nat) (s : State) : Host.Outcome State Fault Refusal :=
  .next (s.onRoute lease tenant rt (fun r =>
    match r.coming seg with
    | [] => r
    | w :: rest => { r with
        fifos := assocSet r.fifos seg (r.avail seg ++ [w])
        flight := if rest.isEmpty then assocErase r.flight seg else assocSet r.flight seg rest }))

/-- ROUTE_BREAK (R301): the words under way on the segment to station `seg` are lost and counted, and the route is
broken. -/
def execRouteBreak (lease tenant rt seg : Nat) (s : State) : Host.Outcome State Fault Refusal :=
  .next (if (s.route lease tenant rt).en then
      s.onRoute lease tenant rt (fun r => { r with
        broken := true
        lost := assocSet r.lost seg (assocGet 0 r.lost seg + (r.coming seg).length)
        flight := assocErase r.flight seg })
    else s)

end Sys2Proof.Machine
end

