-- ==== Sys2Proof/Machine/Tenants.lean ====
section
/-! DEFINITION. A tenant descriptor: its words, its life, commit and restore checks, and the scrub of what a tenant
holds (17 R341, R345, R346; 19 R355 to R358; 20 R376, R377). -/
namespace Sys2Proof.Machine

/-- Whether a tenant is time-sliced (19 R356). -/
def Tenant.sliced (t : Tenant) : Bool := bit t.flags 0

/-! ### Reading the descriptor -/

/-- The shape words in force. -/
def Tenant.shape (t : Tenant) : ShapeWords := ⟨t.rects, t.chmask, t.membase, t.memsize, t.queuesW⟩

/-- A tenant with other shape words in force. -/
def Tenant.withShape (t : Tenant) (w : ShapeWords) : Tenant :=
  { t with rects := w.rects, chmask := w.chmask, membase := w.membase, memsize := w.memsize, queuesW := w.queuesW }

/-- A tenant as its descriptor reads: with the shape words that were rewritten. -/
def Tenant.shown (t : Tenant) : Tenant :=
  match t.draft with
  | some w => t.withShape w
  | none => t

/-- A 32-bit word of the descriptor (19 R356). -/
def Tenant.descWord (t : Tenant) (off : Nat) : Nat :=
  if off = 0 then t.state
  else if t.state = 0 then 0
  else
    match off with
    | 0x04 => (t.flags &&& 0xFFFFFEFF) ||| ofBool t.out * 2 ^ 8
    | 0x28 => t.chmask % 2 ^ 32
    | 0x2C => t.chmask / 2 ^ 32
    | 0x30 => t.membase % 2 ^ 32
    | 0x34 => t.membase / 2 ^ 32
    | 0x38 => t.memsize % 2 ^ 32
    | 0x3C => t.memsize / 2 ^ 32
    | 0x40 => t.queuesW
    | 0x44 => t.refill
    | 0x48 => t.depth
    | 0x4C => t.weight
    | 0x50 => t.quantum
    | 0x58 => t.s2root % 2 ^ 32
    | 0x5C => t.s2root / 2 ^ 32
    | 0x60 => t.vf
    | 0x64 => t.msix
    | 0x68 => t.fbbase % 2 ^ 32
    | 0x6C => t.fbbase / 2 ^ 32
    | 0x70 => t.fbcount
    | 0x78 => t.tvec % 2 ^ 32
    | 0x7C => t.tvec / 2 ^ 32
    | 0x80 => t.shbase % 2 ^ 32
    | 0x84 => t.shbase / 2 ^ 32
    | 0x88 => t.shslots
    | 0x94 => t.status
    | 0x98 => t.t1
    | 0x9C => t.t2
    | 0xA0 => t.lastsave
    | _ => if 0x08 ≤ off ∧ off < 0x28 then t.rects.getD ((off - 0x08) / 4) 0 else 0

/-- A doubleword of the descriptor. -/
def Tenant.descRead (t : Tenant) (off : Nat) : Nat := t.shown.descWord (off + 4) * 2 ^ 32 + t.shown.descWord off

/-! ### The scrub of what a tenant holds -/

/-- The gangs of a partition. -/
def State.partGangs (s : State) (part : Nat) : List Nat :=
  (s.gangs.filter (fun g => match s.team? g.2.team with
    | some t => t.part == part
    | none => false)).map (·.1)

/-- A buffer without the requests of a tenant's lanes and queues. -/
def FaultBuffer.forget (f : FaultBuffer) (gs : List Nat) (d : Dom) : FaultBuffer :=
  { f with reqs := f.reqs.filter (fun r => match r.2.2 with
      | .page g _ _ _ _ => !isIn gs g
      | .migrate => true
      | .hw e _ => e != d) }

/-- An array without what a partition has in its C-store and its queue. -/
def Array.without (a : Array) (part : Nat) : Array :=
  let b : Array := { a with parked := assocErase a.parked part, queue := a.queue.filter (fun m => m.ten != part) }
  if a.part = some part then { b with part := none, cstore := [], ovf := [], poison := [], cErr := [], olds := [], was := [] } else b

/-- The lines that a partition has in L1s, or whose updates it has under way: their copies all go. -/
def State.dropLines (s : State) (part : Nat) : State :=
  let lines := s.cores.flatMap (fun c => (c.2.l1.filter (fun l => l.2.ten == part)).map (·.1)) ++
    (s.accesses.filter (fun a => a.2.ten == part)).map (fun a => lineOf a.2.pa)
  lines.dedup.foldl State.dropCopies s

/-- A core without what a partition has on it: bytes outside the windows of other teams, semaphores, items of launches
`ls`, records of gangs `gs`, partials, pins and translations. -/
def State.scrubCore (s : State) (part : Nat) (gs ls : List Nat) (core : Nat) (c : Core) : Core :=
  { (if c.part = some part then s.wipeOutside core c else c) with
    sems := c.sems.filter (fun y => y.1 / 64 != part)
    items := c.items.filter (fun p => !isIn ls p.1)
    sfq := c.sfq.filter (fun r => !isIn gs r.gang)
    partials := c.partials.filter (fun p => p.2.ten != part)
    pins := c.pins.filter (fun p => p.2.ten != part)
    tlb := c.tlb.filter (fun e => e.ten != part) }

/-- Everything that a tenant holds on cores and quads is discarded and reads zero: windows, C tiles, semaphores, L1
lines, partials, commands, teams, launches and saved contexts (17 R343, 19 R355). -/
def State.discard (s : State) (lease n : Nat) : State :=
  let part := tkey lease n
  let gs := s.partGangs part
  let mine := s.teams.filter (fun t => t.2.part == part)
  let ts := mine.map (·.1)
  let qs := mine.map (fun t => quadOfCore t.2.core) ++ (s.tenantOf part).saved.map (·.1)
  let ls := (s.launches.filter (fun l => l.2.dom == .tenant lease n)).map (·.1)
  let s : State := mine.foldl (fun s t => if t.2.placed then
      t.2.cores.foldl (fun s c => s.onCore c (·.wipeWindows (t.2.windowsOn c))) s
    else s) s
  let s : State := State.dropLines { s with teams := s.teams.filter (fun t => !isIn ts t.1) } part
  { s with
    tenants := s.tenants.map (fun t => (t.1, { t.2 with fb := t.2.fb.forget gs (.tenant lease n) }))
    leases := s.leases.map (fun l => (l.1, { l.2 with fb := l.2.fb.forget gs (.tenant lease n) }))
    ownerFb := s.ownerFb.forget gs (.tenant lease n)
    gangs := s.gangs.filter (fun g => !isIn gs g.1)
    launches := s.launches.filter (fun l => !isIn ls l.1)
    accesses := s.accesses.filter (fun a => a.2.ten != part)
    marks := s.marks.filter (fun m => m.ten != part)
    monRegs := s.monRegs.filter (fun r => !isIn gs r.gang)
    cores := s.cores.map (fun c => (c.1, s.scrubCore part gs ls c.1 c.2))
    quads := s.quads.map (fun q => (q.1, { q.2 with
      copies := q.2.copies.filter (fun c => c.2.ten != part)
      walkAhead := q.2.walkAhead.filter (fun e => e.ten != part)
      walks := q.2.walks.filter (fun e => e.ten != part)
      shapes := q.2.shapes.filter (fun e => e.ten != part)
      idleSince := if isIn qs q.1 then s.now else q.2.idleSince
      arrays := q.2.arrays.map (fun a => (a.1, a.2.without part)) })) }

/-- The words in route FIFOs and the saved contexts of a tenant are discarded. -/
def State.discardSaved (s : State) (lease n : Nat) : State :=
  s.onTenant (tkey lease n) (fun t => { t with
    saved := [], answers := [], ladder := none, restoring := false
    routes := t.routes.map (fun r => (r.1, { r.2 with fifos := [], flight := [] }))
    queues := t.queues.map (fun q => (q.1, { q.2 with coophold := false })) })

/-- Whether a wafer address lies in a tenant's memory extent, in a channel that its mask grants (08 R181). -/
def State.inMemory (s : State) (lease n w : Nat) : Bool :=
  let t := s.tenantOf (tkey lease n)
  let ex := s.extents lease
  channelGranted ex t.chmask w &&
    (ex.foldl (fun r p =>
      (r.1 || (decide (p.1 ≤ w ∧ w < p.1 + p.2 * 2 ^ 16) &&
        decide (t.membase ≤ r.2 + (w - p.1) ∧ r.2 + (w - p.1) < t.membase + t.memsize)), r.2 + p.2 * 2 ^ 16))
      (false, 0)).1

/-- WEIGHT: the low 8 bits of its word (19 R356). -/
def Tenant.turns (t : Tenant) : Nat := t.weight % 256

/-- A locked interface moves to ERROR when the rectangles, extents or key of its tenant change (19 R368). -/
def State.tdispChange (s : State) (lease n : Nat) : State :=
  let vf := (s.tenantOf (tkey lease n)).vf
  if bits vf 6 0 = 0 then s
  else
    match assocGet? s.fns (bits vf 9 7 * 128 + bits vf 6 0) with
    | some f => if f.tdisp = 1 ∨ f.tdisp = 2 then
        { s with fns := assocSet s.fns (bits vf 9 7 * 128 + bits vf 6 0) { f with tdisp := 3 } } else s
    | none => s

/-! ### Checks of a commit and a restore (19 R358) -/

/-- The rectangles in use, as row, column, rows and columns (20 R376). DESIGN CHOICE: one with ROWS and without COLS is in use and
holds no quad; 20 R376 gives COLS 1 to 255 and no fate for 0 (log entry 118). -/
def Tenant.usedRects (t : Tenant) : List (Nat × Nat × Nat × Nat) :=
  (t.rects.filter (fun r => bits r 23 16 != 0)).map (fun r => (bits r 7 0, bits r 15 8, bits r 23 16, bits r 31 24))

/-- The lease addresses of a lease's extents (08 R180). -/
def Lease.size (l : Lease) : Nat := sumBy (fun p => p.2 * 2 ^ 16) l.extents

/-- The lease channels that hold a byte of a tenant's memory extent and that its mask grants. -/
def State.grantedChannels (s : State) (lease n : Nat) : List Nat :=
  let t := s.tenantOf (tkey lease n)
  let ex := s.extents lease
  let parts : List (Nat × Nat) := (ex.foldl (fun r p =>
    let lo := max r.2 t.membase
    let hi := min (r.2 + p.2 * 2 ^ 16) (t.membase + t.memsize)
    (if lo < hi then r.1 ++ [(p.1 + (lo - r.2), p.1 + (hi - r.2))] else r.1, r.2 + p.2 * 2 ^ 16)) ([], 0)).1
  (leaseChannels ex).filter (fun c =>
    channelGranted ex t.chmask (c * 2 ^ 32) && parts.any (fun p => decide (p.1 < (c + 1) * 2 ^ 32 ∧ c * 2 ^ 32 < p.2)))

/-- Tenants in states 2 to 6, as lease and number. -/
def State.heldTenants (s : State) : List (Nat × Nat) :=
  (s.tenants.filter (fun t => decide (2 ≤ t.2.state))).map (fun t => (keyLease t.1, keyNo t.1))

/-- Whether the REFILL values of fixed tenants pass 5,000 on a channel of this tenant (08 R191). -/
def State.bucketsPass (s : State) (lease n : Nat) : Bool :=
  let t := s.tenantOf (tkey lease n)
  let others := (s.heldTenants.filter (fun p => p != (lease, n))).filter (fun p => !(s.tenantOf (tkey p.1 p.2)).sliced)
  !t.sliced && (s.grantedChannels lease n).any (fun c =>
    decide (5000 < t.refill + sumBy (fun p =>
      if isIn (s.grantedChannels p.1 p.2) c then (s.tenantOf (tkey p.1 p.2)).refill else 0) others))

/-- The first failing check of a commit, or of a restore after rewrites, by code; 0 when all pass. A range of no queues is
tested as any other: a base strictly inside another tenant's range, or outside the quota, fails (03 R50 is silent: DESIGN
CHOICE, log entry 97). -/
def State.shapeStatus (s : State) (lease n : Nat) (restore : Bool) : Nat :=
  match s.lease? lease with
  | none => 5
  | some l =>
    let t := s.tenantOf (tkey lease n)
    let held := s.heldTenants.filter (fun p => p != (lease, n))
    let mates := held.filter (fun p => p.1 == lease)
    let mine := s.tenantQuads lease n
    let vfn := bits t.vf 6 0
    let qb := bits t.queuesW 15 0
    let qc := bits t.queuesW 31 16
    if t.usedRects.any (fun r => decide (l.rows < r.1 + r.2.2.1 ∨ l.cols < r.2.1 + r.2.2.2)) ||
        decide (l.size < t.membase + t.memsize) then 5
    else if mates.any (fun p => !(t.sliced && (s.tenantOf (tkey p.1 p.2)).sliced) &&
          (s.tenantQuads p.1 p.2).any (isIn mine ·)) ||
        (vfn != 0 && (decide (64 < vfn) || held.any (fun p => (s.tenantOf (tkey p.1 p.2)).vf == t.vf) ||
          s.leases.any (fun x => x.2.vfn != 0 && x.2.port == bits t.vf 9 7 && x.2.vfn == vfn))) then 1
    else if decide (qb < l.qbase ∨ l.qbase + l.qcnt < qb + qc) || mates.any (fun p =>
          let w := (s.tenantOf (tkey p.1 p.2)).queuesW
          decide (qb < bits w 15 0 + bits w 31 16 ∧ bits w 15 0 < qb + qc)) || s.bucketsPass lease n ||
        (!restore && decide (64 ≤ s.heldTenants.length)) then 2
    else if (s.grantedChannels lease n).isEmpty then 6
    else if bits t.flags 31 9 != 0 || bits t.flags 7 3 != 0 || bits t.weight 31 8 != 0 || bits t.msix 31 11 != 0 ||
        t.membase % 2 ^ 16 != 0 || t.memsize % 2 ^ 16 != 0 || t.shbase % 2 ^ 16 != 0 || decide (2 ^ 20 < t.shslots) ||
        t.fbbase % 32 != 0 then 4
    else if t.sliced && t.quantum == 0 then 3
    else if restore && (s.teams.any (fun p => p.2.part == tkey lease n && !p.2.placed &&
          (s.findSpot (.tenant lease n) (s.savedAsk p.1 p.2) p.2.paired 0).isNone) ||
        s.launches.any (fun y => y.2.dom == .tenant lease n && s.neverFits (.tenant lease n) y.2.desc &&
          s.teams.any (fun p => p.2.launch == y.1 && !p.2.placed))) then 7
    else 0

/-! ### The state word (19 R355) -/

/-- A tenant with the words of its descriptor at their reset values (19 R356). -/
def Tenant.resetWords (t : Tenant) : Tenant :=
  { t with
    flags := 0, out := false, rects := [], chmask := 0, membase := 0, memsize := 0, queuesW := 0, refill := 0, depth := 0
    weight := 0, quantum := 0, s2root := 0, vf := 0, msix := 0, fbbase := 0, fbcount := 0, tvec := 0, shbase := 0
    shslots := 0, status := 0, t1 := 1000, t2 := 100, lastsave := 0, rewritten := false, draft := none }

/-- State 0 or 6 to 1: the descriptor's words take their reset values; what lies outside the descriptor stays. -/
def State.descConfigure (s : State) (lease n : Nat) : State :=
  s.onPart (tkey lease n) (fun t => { t.resetWords with state := 1 })

/-- The tags that no tenant holds (03 R49). -/
def State.freeTags (s : State) : List Nat :=
  (List.range 64).filter (fun g => !s.tenants.any (fun t => t.2.tag == some g))

/-- Memory that p selects comes under another key (19 R364): no copy of its lines is left, no release stands at its words, and
no error, and `f` says what its bytes then read as. -/
def State.rekeyMemory (s : State) (p : Nat → Bool) (f : Nat → Byte) : State :=
  let lines := ((s.sharers.map (·.1)).filter (fun l => p (64 * l)))
  let s : State := lines.foldl State.dropCopies s
  { s with
    mem := (s.mem.map (fun c => (c.1, if p c.1 then f c.1 else c.2))).filter (fun c => c.2 != 0)
    syncs := s.syncs.filter (fun y => !p (4 * y.1))
    joinVcs := s.joinVcs.filter (fun y => !p (4 * y.1))
    badLines := s.badLines.filter (fun l => !p (64 * l)) }

/-- Whether another tenant in states 2 to 6 holds a wafer address in its memory too; nothing that this tenant does changes that
one's data (19 R362; log entry 27). -/
def State.otherHolds (s : State) (lease n w : Nat) : Bool :=
  s.tenants.any (fun t => t.1 != tkey lease n && decide (2 ≤ t.2.state) && s.inMemory (keyLease t.1) (keyNo t.1) w)

/-- Whether a wafer address lies in the memory of a tenant alone. -/
def State.ownMemory (s : State) (lease n w : Nat) : Bool := s.inMemory lease n w && !s.otherHolds lease n w

/-- The memory of a tenant reads zero: scrubbing writes zero through the new owner's key (19 R364; log entry 27). -/
def State.scrubMemory (s : State) (lease n : Nat) : State := s.rekeyMemory (s.ownMemory lease n) (fun _ => 0)

/-- State 1 to 2: the commit (19 R358). The tag and the key are free values, and the memory that comes under the key is
scrubbed (R364; log entry 27). -/
def State.descCommit (s : State) (lease n : Nat) : State :=
  let k := tkey lease n
  match s.shapeStatus lease n false with
  | 0 =>
    let s : State := s.scrubMemory lease n
    let free := s.freeTags
    State.onTenant { s with buckets := s.buckets.filter (fun b => b.1 / 1024 != k) } k (fun t => { t with
      state := 2, status := 0, tag := some (free.getD (s.pick 0 free.length) 0), key := some (Config.freeFigure 0 s.tick)
      pgen := (t.pgen + 1) % 2 ^ 32, startAt := none, counters := [], hostmask := 0, haltcode := 0, moved := false
      seen := false, incomplete := false, drops := 0, cnt := [], cntVc := [], views := [], bcasts := []
      rewritten := false })
  | c => s.onTenant k (fun t => { t with status := c })

/-- State 2 to 1. What was written under the key that goes reads as free values from then on (19 R364; log entry 27). -/
def State.descUncommit (s : State) (lease n : Nat) : State :=
  let s : State := s.rekeyMemory (s.ownMemory lease n) (fun a => BitVec.ofNat 8 (Config.freeFigure 48 (s.tick * 2 ^ 42 + a)))
  (s.tdispChange lease n).onTenant (tkey lease n) (fun t => { t with state := 1, tag := none, key := none })

/-- State 2 to 3, or into the rotation of a slice group, which waits in state 5 (17 R345). -/
def State.descRun (s : State) (lease n : Nat) : State :=
  s.onTenant (tkey lease n) (fun t =>
    if t.sliced then { t with state := 5, out := false }
    else { t with state := 3, startAt := some (t.startAt.getD s.now) })

/-- State 3 to 4: a request of pre-emption, which takes a time-sliced tenant out of its rotation (17 R341, R345). -/
def State.descPreempt (s : State) (lease n : Nat) : State :=
  (s.tally (tkey lease n) 4 1).onTenant (tkey lease n) (fun t => { t with
    state := 4, ladder := some { t0 := s.now, sliced := t.sliced, hard := if t.sliced then some s.now else none }
    out := t.sliced || t.out, quanta := t.turns })

/-! ### Map generations (04 R68 to R70) -/

/-- Owner firmware writes bytes of the latency matrix of a lease. Copies of their lines leave the L1s first, so that whoever
acquires the GEN written last reads no older entry (04 R70; log entry 41). -/
def State.latWrite (s : State) (lease off : Nat) (bs : List Byte) : State :=
  match s.lease? lease with
  | none => s
  | some l =>
    (bs.zipIdx).foldl (fun s b => match extentAddr l.extents (l.latmat + off + b.2) with
      | some w => (if (assocGet [] s.sharers (lineOf w)).isEmpty then s else s.dropCopies (lineOf w)).hwPut w [b.1]
      | none => s) s

/-- The map generation after one; it never reads 0 (19 R359). -/
def nextGeneration (m : Nat) : Nat := max 1 ((m + 1) % 2 ^ 32)

/-- The map generation of a lease increments, and its latency matrix is marked as being rewritten (04 R68, R70). -/
def State.bumpMap (s : State) (lease : Nat) : State :=
  match s.lease? lease with
  | none => s
  | some l =>
    (s.latWrite lease 0 (leBytes 4 0)).setLease lease { l with mapgen := nextGeneration l.mapgen, latGen := 0 }

/-! ### The homes of a tenant's lines (08 R169) -/

/-- The home of an interleaved line under a list of fields. -/
def homeIn (fields : List Nat) (line : Nat) : Nat :=
  32 * fields.getD (64 * line / 4096 % max 1 fields.length) 0 + sliceOf (64 * line)

/-- Where a line of a tenant that has its home at a slice has it once the tenant's fields have changed: only one that is
interleaved moves, and not one whose attribute entry names its field (08 R169). -/
def State.newHome (s : State) (k : Nat) (old new : List Nat) (line home : Nat) (fixed : Bool) : Nat :=
  if !fixed ∧ s.ownerOf (64 * line) = some k ∧ homeIn old line = home then homeIn new line else home

/-- The homes of a tenant's interleaved lines move with its fields (19 R360): such a line leaves its old slice, its marks
are dropped and counted, and its monitors lapse; the views of the new homes are those of the counters (11 R272, R273,
12 R293). -/
def State.homesMoved (s : State) (lease n : Nat) (old new : List Nat) : State :=
  if old = new then s
  else
    let k := tkey lease n
    let moves := fun (line home : Nat) (fixed : Bool) => s.newHome k old new line home fixed != home
    let gone := s.marks.filter (fun m => decide (m.place < 100000) && moves (m.word / 16) m.place m.fixed)
    let s : State := (s.l2.filter (fun l => moves l.1 l.2.home l.2.fixed)).foldl (fun s l =>
      (if l.2.dirty then s.owe (64 * l.1) 1 else s).leaveL2 l.1) s
    let s : State := { s with
      marks := s.marks.filter (fun m => !gone.any (· == m))
      accesses := s.accesses.map (fun a => (a.1, if a.2.kind = 0 then
        { a.2 with home := s.newHome k old new (lineOf a.2.pa) a.2.home a.2.fixed }
        else a.2)) }
    let s : State := s.lapseMonitors (fun r => moves r.line r.home (bit (assocGet 0 (s.tenantOf r.xten).attrs r.aidx) 15))
    let s : State := ((k :: gone.map (·.ten)).dedup).foldl (fun s p => s.onPart p (fun t =>
      let c := (gone.filter (fun m => m.ten == p)).length
      { t with incomplete := true, moved := true, drops := min 0xFFFF (t.drops + c) })) s
    s.onPart k (fun t => { t with
      views := t.cnt.foldl (fun vs c => new.foldl (fun vs f => (List.range 32).foldl (fun vs i =>
        assocSet vs (viewKeyHome (32 * f + i) c.1) c.2) vs) vs) t.views })

/-! ### Restores (17 R341, R344; 19 R355, R357) -/

/-- The enabled routes of a tenant whose paths no longer pass 12 R296 break: a quad outside the rectangles, or a void one
(12 R301). Every word of theirs has been delivered (12 R302). -/
def State.breakLeavers (s : State) (lease n : Nat) : State :=
  match s.lease? lease with
  | none => s
  | some l =>
    let mine := s.tenantQuads lease n
    let ok := fun (r : Route) => (l.pathQuads r).all (fun q => q.any (fun x => isIn mine x && !s.voidQuad x))
    s.onPart (tkey lease n) (fun t => { t with
      routes := t.routes.map (fun r => (r.1, if r.2.en && !ok r.2 then { r.2 with broken := true } else r.2)) })

/-- The rewritten shape words of a tenant are in force, and its homes are those of its new fields. Memory that it gives up, or
that it gets, is scrubbed (19 R362, R364; log entry 27). -/
def State.applyDraft (s : State) (lease n : Nat) : State :=
  match (s.tenantOf (tkey lease n)).draft with
  | none => s
  | some w =>
    let old := s.inMemory lease n
    let u := s.onTenant (tkey lease n) (fun t => { t.withShape w with draft := none })
    let new := u.inMemory lease n
    (((u.homesMoved lease n (s.tenantFields lease n) (u.tenantFields lease n)).rekeyMemory
      (fun a => old a != new a && !s.otherHolds lease n a) (fun _ => 0))).breakLeavers lease n

/-- Whether a tenant's rectangles or extent differ in two states. -/
def State.reshaped (s u : State) (lease n : Nat) : Bool :=
  let x := s.tenantOf (tkey lease n)
  let y := u.tenantOf (tkey lease n)
  x.rects != y.rects || x.membase != y.membase || x.memsize != y.memsize

/-- The checks of a restore when words were rewritten (19 R358): the code, and the state with the new shape in force, or
with the status set. Other quads are a change of map (04 R68), and other rectangles or another extent move a locked interface to
ERROR (R368). -/
def State.reshape (s : State) (lease n : Nat) : Nat × State :=
  if !(s.tenantOf (tkey lease n)).rewritten then (0, s)
  else
    let u := s.applyDraft lease n
    match u.shapeStatus lease n true with
    | 0 =>
      let v : State := if u.tenantQuads lease n = s.tenantQuads lease n then u else u.bumpMap lease
      (0, (if s.reshaped u lease n then v.tdispChange lease n else v).onTenant (tkey lease n)
        (fun t => { t with status := 0, rewritten := false }))
    | c => (c, s.onTenant (tkey lease n) (fun t => { t with status := c }))

/-- A write of 3 in state 5: a fixed tenant is restored, after the checks; a time-sliced one returns to its rotation. -/
def State.descRestore (s : State) (lease n : Nat) : State :=
  if (s.tenantOf (tkey lease n)).sliced then s.onTenant (tkey lease n) (fun t => { t with out := false })
  else
    match s.reshape lease n with
    | (0, u) => u.onTenant (tkey lease n) (fun t => { t with restoring := true })
    | (_, u) => u

/-- A write of 4 in state 5: a time-sliced tenant leaves the rotation (17 R345). -/
def State.descHoldOut (s : State) (lease n : Nat) : State :=
  s.onTenant (tkey lease n) (fun t => if t.sliced then { t with out := true } else t)

/-- To state 0: everything is scrubbed, the key destroyed, the tag released, the queues disabled, the function unbound.
The memory extent is one of the resources scrubbed (log entry 27). -/
def State.descFree (s : State) (lease n : Nat) : State :=
  let s : State := s.scrubMemory lease n
  let s : State := ((s.discard lease n).discardSaved lease n).tdispChange lease n
  s.setTenant (tkey lease n) { state := 0, pgen := (s.tenantOf (tkey lease n)).pgen }

/-- A write of the state word: what the table of 19 R355 does not list is ignored. -/
def State.descState (s : State) (lease n v : Nat) : State :=
  match (s.tenantOf (tkey lease n)).state, v with
  | 0, 1 => s.descConfigure lease n
  | 1, 2 => s.descCommit lease n
  | 2, 1 => s.descUncommit lease n
  | 2, 3 => s.descRun lease n
  | 3, 4 => s.descPreempt lease n
  | 5, 3 => s.descRestore lease n
  | 5, 4 => s.descHoldOut lease n
  | 2, 0 => s.descFree lease n
  | 5, 0 => s.descFree lease n
  | 6, 0 => s.descFree lease n
  | 6, 1 => (s.descFree lease n).descConfigure lease n
  | _, _ => s

/-! ### Writing the other words (19 R357) -/

/-- A root is well formed when its reserved fields are zero (08 R179). -/
def rootOk (v : Nat) : Bool := bits v 63 48 == 0 && bits v 15 1 == 0

/-- A write of S2ROOT: it ends every translation of the tenant (08 R179). -/
def State.writeS2root (s : State) (lease n v : Nat) : State :=
  let t := s.tenantOf (tkey lease n)
  if t.state = 0 ∨ !rootOk v then s
  else if v = t.s2root then s
  else ((s.onTenant (tkey lease n) (fun t => { t with s2root := v })).dropTlb (fun e => e.ten == tkey lease n)).dropWalks
    (tkey lease n)

/-- A write of S1ROOT. -/
def State.writeS1root (s : State) (lease n v : Nat) : State :=
  let t := s.tenantOf (tkey lease n)
  if !rootOk v ∨ v = t.s1root then s
  else ((s.setTenant (tkey lease n) { t with s1root := v }).dropTlb (fun e => e.ten == tkey lease n)).dropWalks
    (tkey lease n)

/-- A write of the quantum (17 R346, 20 R377): 0 sets status 3, and a short one is raised. -/
def State.writeQuantum (s : State) (lease n v : Nat) : State :=
  let least := match s.lease? lease with
    | some l => 2 * l.save + 20
    | none => 0
  s.onTenant (tkey lease n) (fun t =>
    if t.state = 0 then t
    else if v = 0 then { t with status := 3 }
    else { t with quantum := max v least })

/-- T2 at or above T1 (17 R341). -/
def Tenant.clampTimes (t : Tenant) : Tenant := { t with t2 := max t.t2 ((t.t1 + 999) / 1000) }

/-- The low half of a doubleword replaced, or the high half. -/
def setLow (x v : Nat) : Nat := x / 2 ^ 32 * 2 ^ 32 + v
def setHigh (x v : Nat) : Nat := v * 2 ^ 32 + x % 2 ^ 32

/-- A field of a tenant changed by a word of its descriptor; the states that permit it are tested before. -/
def Tenant.setWord (t : Tenant) (off v : Nat) : Tenant :=
  match off with
  | 0x04 => { t with flags := v &&& 0xFFFFFEFF }
  | 0x28 => { t with chmask := setLow t.chmask v }
  | 0x2C => { t with chmask := setHigh t.chmask v }
  | 0x30 => { t with membase := setLow t.membase v }
  | 0x34 => { t with membase := setHigh t.membase v }
  | 0x38 => { t with memsize := setLow t.memsize v }
  | 0x3C => { t with memsize := setHigh t.memsize v }
  | 0x40 => { t with queuesW := v }
  | 0x44 => { t with refill := v }
  | 0x48 => { t with depth := v }
  | 0x4C => { t with weight := v }
  | 0x60 => { t with vf := v % 2 ^ 10 }
  | 0x64 => { t with msix := v }
  | 0x68 => { t with fbbase := setLow t.fbbase v }
  | 0x6C => { t with fbbase := setHigh t.fbbase v }
  | 0x70 => { t with fbcount := v }
  | 0x78 => { t with tvec := setLow t.tvec (v / 4 * 4) }
  | 0x7C => { t with tvec := setHigh t.tvec (v % 2 ^ 16) }
  | 0x80 => { t with shbase := setLow t.shbase v }
  | 0x84 => { t with shbase := setHigh t.shbase v }
  | 0x88 => { t with shslots := v }
  | 0x98 => Tenant.clampTimes { t with t1 := min 100000 (max 10 v) }
  | 0x9C => Tenant.clampTimes { t with t2 := min 10000 (max 1 v) }
  | _ => if 0x08 ≤ off ∧ off < 0x28 then
      { t with rects := setAt (if t.rects.isEmpty then List.replicate 8 0 else t.rects) ((off - 0x08) / 4) v } else t

/-- Words that are shape (writable in states 1 and 5), words that are writable in 1 to 6; the others in 1 only. -/
def shapeWord (off : Nat) : Bool := decide (0x08 ≤ off ∧ off < 0x44)
def lateWord (off : Nat) : Bool := off == 0x44 || off == 0x48 || off == 0x4C || off == 0x64 || off == 0x78 ||
  off == 0x7C || off == 0x98 || off == 0x9C

/-- The full buckets of a tenant are listed with what they hold, before its REFILL or DEPTH changes (08 R191). -/
def State.fixBuckets (s : State) (lease n : Nat) : State :=
  let t := s.tenantOf (tkey lease n)
  (s.grantedChannels lease n).foldl (fun s c =>
    match assocGet? s.buckets (bucketKey (tkey lease n) c) with
    | none => s.setBucket (bucketKey (tkey lease n) c) ⟨max t.depth t.refill, 0⟩
    | some _ => s) s

/-- A write of one word of the descriptor (19 R357). -/
def State.descWord (s : State) (lease n off v : Nat) : State :=
  let t := s.tenantOf (tkey lease n)
  if off = 0 then s.descState lease n v
  else if off = 0x50 then s.writeQuantum lease n v
  else if lateWord off then
    (if t.state = 0 then s
     else (if off = 0x44 ∨ off = 0x48 then s.fixBuckets lease n else s).onTenant (tkey lease n) (·.setWord off v))
  else if t.state = 1 then s.onTenant (tkey lease n) (·.setWord off v)
  else if t.state = 5 ∧ shapeWord off then
    s.onTenant (tkey lease n) (fun t => { t with rewritten := true, draft := some (t.shown.setWord off v).shape })
  else s

/-- A write of a doubleword of the descriptor: the word at the higher offset first (20 R376); S2ROOT as a whole. -/
def State.descWrite (s : State) (lease n off v : Nat) : State :=
  if off = 0x58 then s.writeS2root lease n v
  else (s.descWord lease n (off + 4) (v / 2 ^ 32 % 2 ^ 32)).descWord lease n off (v % 2 ^ 32)

/-! ### Attribute entries (01 R26, R27) -/

/-- Whether an attribute entry may be written. -/
def State.attrOk (s : State) (lease n v : Nat) : Bool :=
  decide (bits v 3 0 ≤ 5) && bits v 14 9 != 63 && bits v 63 23 == 0 &&
    (!bit v 15 || isIn (s.tenantFields lease n) (bits v 22 16))

/-- Whether a line that a partition reached is under the attribute table of a tenant: its own, or one through which lease
service code reaches the tenant's memory (17 R325, 20 R375). -/
def State.governs (s : State) (k ten line : Nat) : Bool :=
  ten == k || (isService ten && s.ownerOf (64 * line) == some k)

/-- An access on its way when its attribute entry changes: it completes under the new entry as a whole (01 R27). -/
def State.underEntry (s : State) (n v : Nat) (x : Access) : Access :=
  let mode := bits v 3 0
  { x with
    attr := v, mode := mode
    home := s.homeOf ⟨x.lease, some n, x.level, x.core, false⟩ { pa := x.pa, attr := v, tabled := true }
    op := match x.op with
      | .bounded _ => .bounded (if mode = 1 then (s.tenantOf x.ten).view (viewKeyCore x.core (bits v 8 4)) else 0)
      | op => op }

/-- Whether a write of attribute entry i waits: a `sacc` of a line under it has not reached its partial. -/
def State.attrWriteWaits (s : State) (k i : Nat) : Bool :=
  s.accesses.any (fun y => y.2.kind == 0 && y.2.aidx == i && y.2.unserved && s.governs k y.2.ten (lineOf y.2.pa) &&
    (match y.2.op with
     | .sacc _ => true
     | _ => false))

/-- A write of attribute entry i: one that changes it combines the sum-range partials of lines under the index, dissolves
their sharer lists, with the fills under way, and their pins, ends their monitors, and drops the translations that carry
it (01 R27, 11 R268, R276, 12 R293). -/
def State.writeAttr (s : State) (lease n i v : Nat) : State :=
  let k := tkey lease n
  if !s.attrOk lease n v then s.onTenant k (fun t => { t with status := 1 })
  else if v = assocGet 0 (s.tenantOf k).attrs i then s
  else
    let s : State := ((s.cores.flatMap (fun c => (c.2.partials.filter (fun p =>
      s.governs k p.2.ten (lineOf (p.1 / 2)) && p.2.aidx == i)).map (fun p => lineOf (p.1 / 2)))).dedup).foldl State.combine s
    let pinned := (s.cores.flatMap (fun c => (c.2.pins.filter (fun p =>
      s.governs k p.2.ten p.1 && p.2.aidx == i)).map (·.2.team))).dedup
    let s : State := pinned.foldl (fun s t => s.publishPins t []) s
    let s : State := s.fillsPass (fun y => s.governs k y.ten (lineOf y.pa) && y.aidx == i)
    let s : State := { s with accesses := s.accesses.map (fun y => (y.1,
      if y.2.kind = 0 ∧ y.2.aidx = i ∧ y.2.unserved ∧ s.governs k y.2.ten (lineOf y.2.pa) then s.underEntry n v y.2 else y.2)) }
    let lines := (s.cores.flatMap (fun c => (c.2.l1.filter (fun l =>
      s.governs k l.2.ten l.1 && l.2.aidx == i)).map (·.1))).dedup
    let s : State := lines.foldl State.dropCopies s
    let s : State := s.lapseMonitors (fun r => (r.ten == k || r.xten == k) && r.aidx == i)
    let s : State := s.dropTlb (fun e => e.ten == k &&
      (if e.level < 2 ∧ entryAttr e.leaves.e2 = 0 then entryAttr e.leaves.e1 else entryAttr e.leaves.e2) == i)
    s.onPart k (fun t => { t with attrs := assocSet t.attrs i v })

end Sys2Proof.Machine
end

