-- ==== Sys2Proof/Machine/GangEvents.lean ====
section
/-! DEFINITION. The steps of a gang: selection, the fetch of a clause, pre-waits and switch parks, the writing of
results, store-fault reports and their delivery by count, and register swaps (04 R75, R76; 05 R82 to R89; 06 R109 to
R114; 17 R335, R336). -/
namespace Sys2Proof.Machine

/-! ### Which lanes may form a cohort -/

/-- Whether a gang may run: its team is placed on a powered quad and its partition is not stopped (04 R81, 17 R342,
R345), and its registers are in the register file (04 R75). -/
def State.mayRun (s : State) (g : Gang) : Bool :=
  match s.team? g.team with
  | none => false
  | some t =>
    t.placed && !t.halted && !g.swapped && (s.quad (quadOfCore g.core)).pwr == 3 &&
      (match t.tenant with
       | some n =>
         let k := s.tenantOf (tkey t.lease n)
         k.state == 3 || (k.state == 4 && (k.ladder.any (fun x => x.hard.isNone)))
       | none => !(s.lease? t.lease).any (·.quiet))

/-- A lane is eligible when it has not exited and is not parked, and no result of the lanes of a frame that it has just
entered is outstanding (06 R109, 17 R324). -/
def Gang.eligible (g : Gang) (l : Nat) : Bool :=
  let x := g.lane l
  x.live && !x.parked && (match x.frame.bind (assocGet? g.frames) with
    | some f => f.entered || !g.outstanding f.mask
    | none => true)

/-- The eligible lanes of a slice. -/
def Gang.sliceLanes (g : Gang) (k : Nat) : List Nat :=
  ((List.range 8).map (fun i => 8 * k + i)).filter (fun l => decide (l < g.width) && g.eligible l)

/-- Whether a slice is free: no cohort that formed with a lane in it has not ended (06 R109; log entry 93). -/
def Gang.sliceFree (g : Gang) (k : Nat) : Bool :=
  g.cohorts.all (fun c => bits c.2.span.toNat (8 * k + 7) (8 * k) == 0)

/-- A counter as one number, lowest first: a counter at index 15 enters its clause at word 0 (17 R329). DESIGN CHOICE: lanes
at one counter with different repetition indexes form cohorts of their own, the lower index first, of which 06 R109 and
R110 say nothing (log entry 93). Safe. -/
def Lane.counter (x : Lane) : Nat := (x.pc.addr * 16 + (if x.pc.idx = 15 then 0 else x.pc.idx)) * 64 + x.rep

/-- The frame of a lane as one number: no frame first, then the frame formed first (06 R110). -/
def Lane.frameKey (x : Lane) : Nat :=
  match x.frame with
  | some f => f + 1
  | none => 0

/-- A head: its counter, its frame, and whether it is a released class (06 R109, R110). -/
structure Head where
  counter : Nat
  frame : Nat
  released : Bool
deriving DecidableEq, Repr

/-- The head of a slice, and its lanes that a cohort takes. DESIGN CHOICE: when a slice holds released lanes at different
counters, the lower counter is chosen, where 06 R109 says only "their counter" (log entry 93). Unsafe. -/
def Gang.headOf (g : Gang) (k : Nat) : Option (Head × List Nat) :=
  let ls := g.sliceLanes k
  let rel := ls.filter (fun l => (g.lane l).released)
  let awake := ls.filter (fun l => !(g.lane l).deferred)
  let chosen := if !rel.isEmpty then rel else if !awake.isEmpty then awake else ls
  match minBy (fun l => (g.lane l).counter) chosen with
  | none => none
  | some l =>
    let c := (g.lane l).counter
    let at_ := (if rel.isEmpty then ls else rel).filter (fun i => (g.lane i).counter == c)
    match minBy (fun i => (g.lane i).frameKey) at_ with
    | none => none
    | some i =>
      let f := (g.lane i).frameKey
      some (⟨c, f, !rel.isEmpty⟩, at_.filter (fun j => (g.lane j).frameKey == f))

/-- The free slices that have a head. -/
def Gang.sliceMates (g : Gang) (h : Head) : List Nat :=
  (List.range (g.width / 8)).filter (fun k => g.sliceFree k && (g.headOf k).any (fun p => p.1 == h))

/-- Whether every eligible lane of a slice is at its head. -/
def Gang.converged (g : Gang) (k : Nat) : Bool := (g.headOf k).any (fun p => p.2.length == (g.sliceLanes k).length)

/-- Whether another gang of a gang's core has a cohort that may take the slice pipes (06 R111). -/
def State.contended (s : State) (g : Gang) : Bool :=
  s.gangs.any (fun p => p.2.core == g.core && (p.2.team != g.team || p.2.g != g.g) && !p.2.cohorts.isEmpty)

/-- The slices that meet slice k at its selection point, and whose lanes share its cohort (06 R110). Converged slices always
meet, and so do those of a gang that has its core to itself (18 R353); else slices whose lanes have gone apart come to a
selection point together or not, as a free choice (15 R316; log entry 108). -/
def State.meeting (s : State) (g : Gang) (k : Nat) (h : Head) : List Nat :=
  (g.sliceMates h).filter (fun j =>
    j == k || (g.converged k && g.converged j) || !s.contended g || s.pick (100 + j) 2 == 0)

/-- At a selection point every deferral clears in a slice in which every eligible lane is deferred, those of lanes that are
parked too (06 R109). -/
def Gang.clearDeferred (g : Gang) (ks : List Nat) : Gang :=
  ks.foldl (fun g k =>
    if (g.sliceLanes k).all (fun l => (g.lane l).deferred) then
      g.mapLanes (0xFF#64 <<< (8 * k)) (fun _ x => { x with deferred := false })
    else g) g

/-! ### Fetch -/

/-- A team begins with the first clause that it fetches (04 R77, 05 R88). -/
def State.beginTeam (s : State) (team : Nat) : State :=
  s.onTeam team (fun t => if t.begun.isSome then t else { t with begun := some s.versions.length })

/-- The bytes of a 64-byte line as a team fetches them: zeros of a discarded page (08 R190); else those that the line holds
now, in its pin or at its home, or those that it held at any time since the team began, as a free choice (05 R88; log
entry 94). -/
def State.fetchLine (s : State) (t : Team) (line : Nat) (zero : Bool) : List Byte :=
  if zero then List.replicate 64 0
  else
    let new := s.hwBytes (64 * line) 64
    let old := ((s.versions.drop (t.begun.getD s.versions.length)).filter (fun v => v.1 == line && v.2 != [])).map (·.2)
    let home := if (s.pinOf line).isSome then [memRead s.mem (64 * line) 64] else []
    match (new :: home ++ old).dedup with
    | [b] => b
    | all => all.getD (s.pick line all.length) new

/-- What a fetch has got so far: the lines that it has read, each once, and the words. -/
structure Fetched where
  s : State
  lines : List (Nat × List Byte) := []
  words : List Nat := []

/-- One more 4-byte word fetched, at a translated address. -/
def Fetched.word (r : Fetched) (team pa : Nat) (zero : Bool) : Fetched :=
  let cut := fun (bs : List Byte) => ofLeBytes ((bs.drop (pa % 64)).take 4)
  match assocGet? r.lines (pa / 64), r.s.team? team with
  | some bs, _ => { r with words := r.words ++ [cut bs] }
  | none, some t =>
    let bs := r.s.fetchLine t (pa / 64) zero
    { r with lines := assocSet r.lines (pa / 64) bs, words := r.words ++ [cut bs] }
  | none, none => { r with words := r.words ++ [0] }

/-- A fetch that failed: its cause, the word index, TWORD and the address (05 R89). -/
structure FetchFault where
  cause : Nat
  tinfo : Nat := 0
  idx : Nat
  tword : Nat
  taddr : Nat

/-- The class of a word by its major (05 R96): 0 ALU, 1 memory, 2 engine, 3 control, 4 `rep`. -/
def wordClass (w : Nat) : Nat :=
  let m := bits w 31 25
  if m < 0x30 then 0 else if m < 0x68 then 1 else if m < 0x78 then 3 else if m < 0x7F then 2 else 4

/-- Whether a header is well formed (05 R82, R89 step 2). -/
def headerOk (h : Nat) : Bool :=
  bits h 31 29 == 5 && bits h 3 0 != 0 && bits h 6 4 == 0 && bits h 21 7 / 2 ^ bits h 3 0 == 0

/-- Whether word i of a clause may stand there (05 R84, R95). -/
def wordAllowed (h : Nat) (ws : List Nat) (i : Nat) : Bool :=
  let w := ws.getD i 0
  let cls := bits h 27 26
  let next := ws.getD (i + 1) 0
  if w = 0 then true
  else if wordClass w = 4 then
    (cls == 0 || cls == 1) && decide (i + 1 < ws.length) && wordClass next != 4 && wordClass next != 3 &&
      !bit (bits h 21 7) i
  else wordClass w == cls || (wordClass w == 3 && bit h 28 && i + 1 == ws.length)

/-- The pages of the words of a clause after the header's page: the index of the first word in them, when there is one. -/
def crossWord (addr count : Nat) : Option Nat :=
  (List.range count).find? (fun i => (addr + 4 + 4 * i) / 2 ^ 16 != addr / 2 ^ 16)

/-- The lines of a fetch are brought into their home slices; none while a token is missing (08 R191). -/
def State.fetchTouch (s : State) (c : Ctx) (x : Xlat) (n : Nat) : Option State :=
  if s.reads0 x then some s
  else (linesOf x.pa n).foldl (fun (r : Option State) line => r.bind (fun s =>
    if s.inL2 line || s.tokenTurn none (64 * line) then
      s.touchL2 (s.homeOf c { x with pa := 64 * line }) line x.fixed false
    else none)) (some s)

/-- Steps 1 to 4 of 05 R89 for a clause: its header and its words. `none` as an answer means that the fetch waits for a
token (08 R191). DESIGN CHOICE: a counter whose header address is no multiple of 4, which only a written trap counter or
ENTRY can be and of which 05 R82 and R89 say nothing, takes the fate of an invalid header, with TWORD 0 (log entry 16).
Unsafe. -/
def State.fetchClause (s : State) (team l : Nat) (c : Ctx) (addr : Nat) :
    State × Option (Except FetchFault (Nat × List Nat)) :=
  if addr % 4 ≠ 0 then (s, some (.error { cause := 0x01, idx := 15, tword := 0, taddr := addr }))
  else
    match s.xlate l c addr 2 false with
    | (s, .error f) => (s, some (.error { cause := f.cause, tinfo := f.synd, idx := 15, tword := 0, taddr := addr }))
    | (s, .ok x) =>
      match s.fetchTouch c x 4 with
      | none => (s, none)
      | some s =>
        let head : Fetched := Fetched.word { s := s } team x.pa (s.reads0 x)
        let s : State := head.s
        let h := head.words.headD 0
        if !headerOk h then (s, some (.error { cause := 0x01, idx := 15, tword := h, taddr := addr }))
        else
          let n := bits h 3 0
          let r : State × Except FetchFault (Nat × Xlat) := match crossWord addr n with
            | none => (s, .ok (n, x))
            | some i =>
              match s.xlate (64 + l) c (addr + 4 + 4 * i) 2 false with
              | (s, .error f) =>
                (s, .error { cause := f.cause, tinfo := f.synd, idx := i, tword := 0, taddr := addr + 4 + 4 * i })
              | (s, .ok y) => (s, .ok (i, y))
          match r with
          | (s, .error f) => (s, some (.error f))
          | (s, .ok (i, y)) =>
            match (s.fetchTouch c x (4 + 4 * i)).bind (fun s => if i < n then s.fetchTouch c y (4 * (n - i)) else some s) with
            | none => (s, none)
            | some s =>
              let r : Fetched := (List.range n).foldl (fun r j =>
                let z := if j < i then x else y
                r.word team (if j < i then x.pa + 4 + 4 * j else y.pa + 4 * (j - i)) (s.reads0 z))
                { s := s, lines := head.lines }
              let (s, ws) := (r.s, r.words)
              match (List.range n).find? (fun i => !wordAllowed h ws i) with
              | some i => (s, some (.error { cause := 0x01, idx := i, tword := ws.getD i 0, taddr := addr }))
              | none => (s, some (.ok (h, ws)))

/-- Whether the clause at an address reaches memory that does not exist: LEVEL 3 code has no check (08 R168, R174). -/
def State.fetchOutside (s : State) (level addr : Nat) : Bool :=
  level == 3 && decide (84 * 2 ^ 35 ≤ addr + 4 * bits (s.hwNat (addr / 4 * 4) 4) 3 0 ∧ addr < 2 ^ 48)

/-! ### Pre-waits -/

/-- Whether an engine command of a gang waits at its word, for room or for the release of its issue (05 R85, 10 R219,
R222). -/
def Gang.commandsWait (g : Gang) : Bool :=
  g.cohorts.any (fun c => (c.2.hold && !c.2.args.isEmpty) || (c.2.mark != 0 && bits c.2.word 31 25 == 0x78))

/-- Whether a store word of a gang has issued for a part of its lanes (05 R85, 09 R200); one that waits for records for
its first part has not issued (09 R200; log entry 107). -/
def Gang.storesBegun (g : Gang) : Bool :=
  g.cohorts.any (fun c => c.2.done != 0 && c.2.nextTry == 0 && (c.2.mask &&& ~~~c.2.done) != 0)

/-- Whether a word of a gang whose major and fn p selects has begun and waits at its word for its release (05 R85). -/
def Gang.begun (g : Gang) (p : Nat → Bool) : Bool := g.cohorts.any (fun c => c.2.mark != 0 && p (bits c.2.word 31 21))

/-- Whether a returning atomic, `wjoin` among them (log entry 57), or a reduction of a gang has begun and waits. -/
def Gang.atomsBegun (g : Gang) : Bool := g.begun (fun m => decide (0x48 ≤ m / 16 ∧ m / 16 ≤ 0x53) || m == 0x7C1)
def Gang.redsBegun (g : Gang) : Bool := g.begun (fun m => decide (0x54 ≤ m / 16 ∧ m / 16 ≤ 0x5A))

/-- Whether the conditions that the pre-wait bits select hold for a gang (05 R85): 1 WLD, 2 WST, 4 WENG, 8 WLONG. -/
def State.prewaitMet (s : State) (gid : Nat) (g : Gang) (b : Nat) : Bool :=
  (!bit b 0 || !(g.loadsPending (-1) || g.atomsBegun)) &&
    (!bit b 1 || !(s.storesPending gid (-1) 2 || g.storesBegun || g.redsBegun)) &&
    (!bit b 2 || !g.commandsWait) && (!bit b 3 || g.results.all (fun r => !r.2.long))

/-- The pre-wait bits of a header, in the order of the above. -/
def prewaitBits (h : Nat) : Nat :=
  ofBool (bit h 22) + 2 * ofBool (bit h 23) + 4 * ofBool (bit h 24) + 8 * ofBool (bit h 25)

/-! ### The forming of a cohort -/

/-- The repetition to which a counter belongs: the word before it is a `rep` (05 R95, 06 R115). DESIGN CHOICE: that holds also
of a lane which a skip from a trap of the `rep` word itself took past it; 06 R115 does not say (log entry 112). -/
def repBefore (ws : List Nat) (idx j : Nat) : Option RepState :=
  if idx = 0 then none
  else
    let w := ws.getD (idx - 1) 0
    if wordClass w = 4 then
      some ⟨bits w 24 19 + 1, j, bits w 18 17, bits w 16 15, bits w 14 13⟩
    else none

/-- The lanes of a mask form a cohort at a counter: they take the checks at fetch, wait on the clause's pre-wait, or
begin. DESIGN CHOICE: lanes that form again in the middle of a clause, after a trap or a pre-emption, take steps 1 to 4 of
05 R89 over the whole clause again, and a header that fails then shows index 15, so that a retry enters the clause at
word 0; 05 R89 speaks of a cohort that enters a clause (log entry 16). Unsafe. -/
def State.startCohort (s : State) (gid : Nat) (g : Gang) (m : Mask) (pc : Pc) (rep : Nat) : State :=
  match s.team? g.team with
  | none => s
  | some t =>
    let l := lowBit 64 m.toNat
    let idx := if pc.idx = 15 then 0 else pc.idx
    let fail := fun (s : State) (f : FetchFault) =>
      s.trapLanes gid m ⟨pc.addr, f.idx⟩ 0 f.tword { cause := f.cause, tinfo := f.tinfo, taddr := f.taddr }
    match (s.beginTeam g.team).fetchClause g.team l (t.ctx (g.lane l).level g.core) pc.addr with
    | (s, none) => s
    | (s, some (.error f)) => fail s f
    | (s, some (.ok (h, ws))) =>
      let n := bits h 3 0
      if n ≤ idx then fail s { cause := 0x01, idx := 15, tword := h, taddr := pc.addr }
      else
        let b := prewaitBits h
        let s : State := s.onGang gid (fun g => { g.mapLanes m (fun _ x => { x with released := false }) with
          frames := g.frames.map (fun f => (f.1, if f.2.mask &&& m = 0 then f.2 else { f.2 with entered := true })) })
        if idx = 0 ∧ !s.prewaitMet gid g b then
          State.onGang { s with nextId := s.nextId + 1 } gid (fun g =>
            { g.mapLanes m (fun _ x => { x with parked := true }) with
              waits := assocSet g.waits s.nextId ⟨m, .prewait b, ⟨pc.addr, 0⟩, s.now, 0, 0⟩, parkedSince := s.enabled g.core })
        else
          State.onGang { s with nextId := s.nextId + 1 } gid (fun g => { g with
            cohorts := assocSet g.cohorts s.nextId
              { mask := m, hdr := pc.addr, count := n, cls := bits h 27 26, tail := bit h 28, switches := bits h 21 7,
                words := ws, idx := idx, rep := repBefore ws idx rep, span := m, ready := s.tick } })

/-- Whether slice k of a gang is at a selection point. -/
def State.maySelect (s : State) (g : Gang) (k : Nat) : Bool :=
  s.mayRun g && decide (k < g.width / 8) && g.sliceFree k && !(g.sliceLanes k).isEmpty

/-- COHORT_FORM (R110): slice k chooses its head, and the free slices with the same head that meet it join. -/
def execCohortForm (gang slice : Nat) (s : State) : Host.Outcome State Fault Refusal :=
  match s.gang? gang with
  | none => .next s
  | some g =>
    if s.maySelect g slice then
      match g.headOf slice with
      | none => .next s
      | some (h, ls) =>
        let l := ls.headD 0
        let x := g.lane l
        if s.fetchOutside x.level x.pc.addr then .fault .noMemory
        else
          let ks := s.meeting g slice h
          let m := maskOf (ks.flatMap (fun k => match g.headOf k with
            | some p => p.2
            | none => []))
          let g : Gang := g.clearDeferred ks
          .next ((s.setGang gang g).startCohort gang g m x.pc x.rep)
    else .next s

/-! ### The end of parks -/

/-- PREWAIT_RELEASE (R85): the conditions hold, and the lanes are eligible again. -/
def execPrewaitRelease (gang wait : Nat) (s : State) : Host.Outcome State Fault Refusal :=
  .next (match s.wait? gang wait, s.gang? gang with
    | some x, some g =>
      match x.kind with
      | .prewait b => if s.prewaitMet gang g b then s.unpark gang wait false else s
      | _ => s
    | _, _ => s)

/-- The word at a counter, for a frame's TWORD; zero where it cannot be fetched (17 R336). -/
def State.peekWord (s : State) (g : Gang) (l : Nat) (pc : Pc) : Nat :=
  match s.team? g.team with
  | none => 0
  | some t =>
    let a := pc.addr + 4 + 4 * (if pc.idx = 15 then 0 else pc.idx)
    match s.translate (t.ctx (g.lane l).level g.core) a 2 false with
    | .ok x => if s.reads0 x ∨ 84 * 2 ^ 35 ≤ x.pa then 0 else s.hwNat x.pa 4
    | .error _ => 0

/-- Records of lanes that stand at counters of their own are delivered there, the lanes of each counter as one
sub-gang. -/
def State.deliverEach (s : State) (gid : Nat) (m : Mask) : State :=
  match s.gang? gid with
  | none => s
  | some g =>
    let due := lanesOf (s.dueLanes gid m false)
    (due.map (fun l => ((g.lane l).pc, (g.lane l).rep, (g.lane l).frame))).dedup.foldl (fun s p =>
      let ls := due.filter (fun l => ((g.lane l).pc, (g.lane l).rep, (g.lane l).frame) == p)
      s.deliver gid (maskOf ls) false p.1 p.2.1 (s.peekWord g (ls.headD 0) p.1)) s

/-- SWITCH_PARK_END (R86): every result of the gang has been written; due records are delivered (17 R335, point 1), and
the other lanes are eligible. -/
def execSwitchParkEnd (gang wait : Nat) (s : State) : Host.Outcome State Fault Refusal :=
  .next (match s.wait? gang wait, s.gang? gang with
    | some x, some g =>
      if x.kind == .switchPark && g.results.isEmpty then (s.unpark gang wait false).deliverEach gang x.mask else s
    | _, _ => s)

/-! ### Results -/

/-- A result written into its lane, unless the lane has exited or a later write has been written (06 R114). -/
def Gang.writeResult (g : Gang) (id : Nat) (p : Pending) (v : Word) : Gang :=
  { g.mapLanes (maskOf [p.lane]) (fun _ x => if x.live then x.write g.nregs p.reg p.seq v else x) with
    results := assocErase g.results id }

/-- The other word of a pair result (07 R143). -/
def Gang.pairMate (g : Gang) (id : Nat) (p : Pending) : Option (Nat × Pending) :=
  if p.pair then g.results.find? (fun q => q.1 != id && q.2.pair && q.2.lane == p.lane && q.2.seq == p.seq) else none

/-- A result written, with the other word of its pair (07 R143). -/
def Gang.writeBoth (g : Gang) (id : Nat) (p : Pending) (v : Word) : Gang :=
  match g.pairMate id p with
  | some (j, q) => (g.writeResult id p v).writeResult j q (q.val.getD 0)
  | none => g.writeResult id p v

/-- RESULT_WRITE (R114, R143): one outstanding result whose value is there. -/
def execResultWrite (gang result : Nat) (s : State) : Host.Outcome State Fault Refusal :=
  .next (s.onGang gang (fun g =>
    match assocGet? g.results result with
    | some p =>
      match p.val with
      | some v => g.writeBoth result p v
      | none => g
    | none => g))

/-! ### Store-fault records -/

/-- The KIND of a store-class access in its record (17 R334): a `sacc` that acted as a reduction is marked. -/
def Access.recKind (x : Access) : Nat := if x.op == .store then 0 else if x.signed then 2 else 1

/-- STORE_FAULT_REPORT (R335, R347): the report of a store that was refused remotely arrives, and its record is placed. -/
def execStoreFaultReport (acc : Nat) (s : State) : Host.Outcome State Fault Refusal :=
  .next (match s.access? acc with
    | none => s
    | some x =>
      match x.phase with
      | .faulted cause synd =>
        match s.gang? x.gang with
        | none => s.dropAccess acc
        | some g =>
          if (g.lane x.lane).live then
            (s.dropAccess acc).placeRecord g.core
              { gang := x.gang, lane := x.lane, cause := cause, slot := g.slot, kind := x.recKind, widx := x.pc.idx,
                rep := x.rep, size := x.size, synd := synd, clause := x.pc.addr, addr := x.va,
                value := ofLeBytes (x.data.take 8), seq := x.wseq }
          else s.dropAccess acc
      | _ => s)

/-- Whether the 64 further words of point 3 have passed since a store with this number (17 R335). -/
def Gang.skidOver (g : Gang) (seq : Nat) : Bool := decide (seq + 64 ≤ g.seq)

/-- Whether a store of lanes of a gang, 64 words back, is still undecided: the word waits. -/
def State.skidWaits (s : State) (gid : Nat) (g : Gang) (m : Mask) : Bool :=
  s.accesses.any (fun p => p.2.gang == gid && m.getLsbD p.2.lane && g.skidOver p.2.wseq && p.2.op.late && !p.2.performedAt 2 (s.pairedTeam p.2.team))

/-- Whether a record of lanes of a gang is due by count. -/
def State.skidDue (s : State) (gid : Nat) (g : Gang) (m : Mask) : Bool :=
  (s.dueRecords gid m false).any (fun r => g.skidOver r.seq)

/-- SKID_COUNT_DELIVER (R335 point 3, R336): the lanes of the cohort that hold placed records take them at the word. -/
def execSkidCountDeliver (gang cohort : Nat) (s : State) : Host.Outcome State Fault Refusal :=
  .next (s.asCohort gang cohort (fun s => s.act fun a =>
    if !a.co.hold && a.co.done == 0 && s.skidDue gang a.gang a.co.mask && !s.skidWaits gang a.gang a.co.mask then
      let due := s.dueLanes gang a.co.mask false
      (s.leave due).deliver gang due false a.pc a.co.repIdx a.co.word
    else s))

/-! ### Register swaps -/

/-- Whether a gang is ready: a lane of it is eligible (04 R76). -/
def Gang.isReady (g : Gang) : Bool := (List.range g.width).any g.eligible

/-- The swapped gang of a core that is to come in next: ready gangs in the order in which they became ready. -/
def State.nextIn (s : State) (core : Nat) : Option (Nat × Gang) :=
  minBy (fun p => p.2.readySince * 2 ^ 32 + p.1) ((s.gangsOn core).filter (fun p => p.2.swapped && p.2.isReady))

/-- Whether the register file of a core has room for a gang. -/
def State.fileRoom (s : State) (core : Nat) (g : Gang) : Bool := decide (s.fileUsed core + g.demand ≤ 65536)

/-- Whether a gang's wait is for a memory or remote event (04 R76): an outstanding load or atomic, or a park of a
synchronisation instruction (12 R285). -/
def Gang.remote (g : Gang) (k : WaitKind) : Bool :=
  match k with
  | .switchPark => g.loadsPending (-1)
  | .prewait b => bit b 0 && g.loadsPending (-1)
  | .semaphore _ _ _ => true
  | .monitor _ _ _ => true
  | .round _ _ _ => true
  | .route _ _ _ _ _ => true
  | .fence ord _ => ord != 4
  | _ => false

/-- The enabled cycles of a core since a moment of the same count (04 R79). -/
def State.cyclesSince (s : State) (core since : Nat) : Nat := s.enabled core - since

/-- Whether a resident gang may be swapped out because it is parked: more than 2,048 a-cycles, on such an event. -/
def State.swapEligible (s : State) (g : Gang) : Bool :=
  !g.swapped && !s.coopGang g && !g.isReady && g.cohorts.isEmpty && g.waits.any (fun w => g.remote w.2.kind) &&
    decide (2048 < s.cyclesSince g.core g.parkedSince)

/-- The victim among the eligible gangs of a core: the one parked longest. -/
def State.swapVictim (s : State) (core : Nat) : Option (Nat × Gang) :=
  minBy (fun p => p.2.parkedSince) ((s.gangsOn core).filter (fun p => s.swapEligible p.2))

/-- The victim of a forced swap: the resident gang, not of a cooperative team, whose last issue lies furthest back. -/
def State.forcedVictim (s : State) (core : Nat) : Option (Nat × Gang) :=
  minBy (fun p => p.2.lastIssue) ((s.gangsOn core).filter (fun p => !p.2.swapped && !s.coopGang p.2))

/-- A gang whose registers leave the file: its cohorts end between words, and its lanes keep their counters. -/
def Gang.swapOut (g : Gang) (now : Nat) : Gang := { g with swapped := true, readySince := now }

/-- Whether a ready swapped gang of a core lacks room. -/
def State.swapWanted (s : State) (core since : Nat) : Bool :=
  match s.nextIn core with
  | some p => !s.fileRoom core p.2 && decide (since ≤ s.cyclesSince core p.2.readySince)
  | none => false

/-- Whether a gang is the eligible victim now. -/
def State.mayLeave (s : State) (gid : Nat) (g : Gang) : Bool :=
  s.swapWanted g.core 0 && (s.swapVictim g.core).any (fun p => p.1 == gid)

/-- Whether a gang is the forced victim now. -/
def State.mustLeave (s : State) (gid : Nat) (g : Gang) : Bool :=
  s.swapWanted g.core 1024 && (s.swapVictim g.core).isNone && (s.forcedVictim g.core).any (fun p => p.1 == gid)

/-- Whether a swapped gang may come in now. -/
def State.mayEnter (s : State) (gid : Nat) (g : Gang) : Bool :=
  (s.nextIn g.core).any (fun p => p.1 == gid) && s.fileRoom g.core g

/-- A gang of a placed team swaps, and counter i of its tenant counts it (19 R374). -/
def State.swap (s : State) (gid i : Nat) (p : Gang → Bool) (f : Gang → Gang) : State :=
  match s.gang? gid with
  | none => s
  | some g =>
    if p g then
      match s.team? g.team with
      | some t => (s.setGang gid (f g)).tally t.part i 1
      | none => s
    else s

/-- SWAP_OUT_ELIGIBLE (R76). -/
def execSwapOutEligible (gang : Nat) (s : State) : Host.Outcome State Fault Refusal :=
  .next (s.swap gang 1 (s.mayLeave gang) (fun g => g.swapOut (s.enabled g.core)))

/-- SWAP_OUT_FORCED (R76). -/
def execSwapOutForced (gang : Nat) (s : State) : Host.Outcome State Fault Refusal :=
  .next (s.swap gang 2 (s.mustLeave gang) (fun g => g.swapOut (s.enabled g.core)))

/-- SWAP_IN (R75, R76). -/
def execSwapIn (gang : Nat) (s : State) : Host.Outcome State Fault Refusal :=
  .next (s.swap gang 3 (s.mayEnter gang) (fun g => { g with swapped := false }))

end Sys2Proof.Machine
end

