-- ==== Sys2Proof/Machine/MemEvents.lean ====
section
/-! DEFINITION. The steps of the memory system: arrivals at homes, updates, fills, acknowledgements, evictions, view
broadcasts, host completions, fills of revived pages, token refills, walk-ahead and `mwait` deadlines. -/
namespace Sys2Proof.Machine

/-! ### Arrivals -/

/-- The queues that the partition of an access appends to. -/
def Access.dom (x : Access) : Dom := if isService x.ten then .lsq x.lease else .tenant x.lease (keyNo x.ten)

/-- A decrement of a wait count has been executed with the value it found (12 R304): the record is appended when the
count has become zero, after every join that released into it. -/
def State.afterJoin (s : State) (x : Access) (old : Nat) : State :=
  let w := x.pa / 4
  let vc := clockJoin (assocGet [] s.joinVcs w) x.vc
  if old = 1 then State.joinAppend { s with joinVcs := assocErase s.joinVcs w } x.dom (x.va - 0x10) vc
  else if old = 0 then s
  else { s with joinVcs := assocSet s.joinVcs w vc }

/-- A read that meets a line with an uncorrectable error (19 R365): a machine error, and a halt of the team. -/
def State.readError (s : State) (id : Nat) (x : Access) : State :=
  let s : State := s.dropAccess id
  if x.op == .prefetch then s else (s.machineError x.core).hwHalt x.team 0x80000001

/-- Whether an access reads a line with an uncorrectable error from its home: not one of a page that reads as discarded or is
being zeroed (08 R190). -/
def State.meetsError (s : State) (x : Access) : Bool :=
  isIn s.badLines (lineOf x.pa) && x.op != .store && (s.pinOf (lineOf x.pa)).isNone && !isIn s.fills (x.pa / 2 ^ 16) &&
    !s.readsZero x

/-- What follows a decrement of a wait count that its place has executed, by the value that it found there. -/
def State.joined (s : State) (id : Nat) (x : Access) : State :=
  match s.access? id with
  | none => s
  | some y =>
    match y.phase with
    | .updating _ => s.afterJoin x (ofLeBytes y.old)
    | .acked => s.afterJoin x (ofLeBytes y.old)
    | _ => s

/-- An access that p selects arrives at its place of execution. -/
def State.arrive (s : State) (id : Nat) (p : Access → Bool) : State :=
  match s.access? id with
  | none => s
  | some x =>
    if p x && s.mayArrive id x then
      if !s.reaches x.ten x.core x.home then s.failAccess id x
          { cause := 0x19, tinfo := x.op.acc * 2 ^ 6, taddr := x.va } (x.op.acc * 2 ^ 6)
      else if s.meetsError x then s.readError id x
      else if x.op.joins then (s.serve id x).joined id x
      else s.serve id x
    else s

/-- Whether an access is a first attempt, or one that a pin has refused. -/
def Access.first (x : Access) : Bool := x.refusals == 0

/-- Whether an access is a bounded load of a round region, which its home serves only with a view that is new
enough (11 R281). -/
def Access.bounded (x : Access) : Bool :=
  match x.op with
  | .bounded _ => x.kind == 0 && x.mode == 1
  | _ => false

def Access.isRead (x : Access) : Bool := x.op.cls == 0 && !x.bounded

def Access.isStore (x : Access) : Bool := x.op == .store

/-- Whether the view of its home lets a bounded load be served. -/
def State.viewReady (s : State) (x : Access) : Bool :=
  match x.op with
  | .bounded v => decide (v ≤ (s.tenantOf x.ten).view (viewKeyHome x.home (bits x.attr 8 4)))
  | _ => true

/-- HOME_READ_MISS (R263). -/
def execHomeReadMiss (acc : Nat) (s : State) : Host.Outcome State Fault Refusal :=
  .next (s.arrive acc (fun x => x.first && x.isRead))

/-- ROUND_REFETCH (R281). -/
def execRoundRefetch (acc : Nat) (s : State) : Host.Outcome State Fault Refusal :=
  .next (s.arrive acc (fun x => x.bounded && s.viewReady x))

/-- HOME_STORE_APPLY (R264, R199): a store arrives, or goes on that waited for the higher lanes of its word. -/
def execHomeStoreApply (acc : Nat) (s : State) : Host.Outcome State Fault Refusal :=
  .next (match s.access? acc with
    | some x => if x.phase == .behind then s.follow acc x else s.arrive acc (fun x => x.first && x.isStore)
    | none => s)

/-- HOME_ATOMIC (R208, R210, R212): an atomic, a reduction, a `sacc` whose page is revived, or the decrement of a wait
count. -/
def execHomeAtomic (acc : Nat) (s : State) : Host.Outcome State Fault Refusal :=
  .next (s.arrive acc (fun x => x.first && !x.isRead && !x.isStore && !x.bounded))

/-- PIN_REFUSAL_RETRY (R267, R197). -/
def execPinRefusalRetry (acc : Nat) (s : State) : Host.Outcome State Fault Refusal :=
  .next (s.arrive acc (fun x => !x.first))

/-! ### Updates, fills and acknowledgements -/

/-- Change the machine by an access that exists. -/
def State.withAccess (s : State) (id : Nat) (f : Access → State) : State :=
  match s.access? id with
  | none => s
  | some x => f x

/-- L1_FILL (R263, R279). -/
def execL1Fill (acc : Nat) (s : State) : Host.Outcome State Fault Refusal :=
  .next (s.withAccess acc (s.fillL1 acc))

/-- SHARER_UPDATE (R264, R265). -/
def execSharerUpdate (acc : Nat) (s : State) : Host.Outcome State Fault Refusal :=
  .next (s.withAccess acc (s.updateSharer acc))

/-- STORE_ACK (R264): an acknowledgement arrives, or a port accepts a posted write (08 R188). -/
def execStoreAck (acc : Nat) (s : State) : Host.Outcome State Fault Refusal :=
  .next (s.withAccess acc (s.ackStore acc))

/-- CORE_RETRY: an access that waits in its core goes on (R208, R264). -/
def State.coreRetry (s : State) (id : Nat) : State :=
  s.withAccess id (fun x => if s.mayLeaveCore id x then s.leaveCore id x else s)

/-- LIST_SPLICE (R265): a copy that is leaving its list has left it. -/
def execListSplice (core line : Nat) (s : State) : Host.Outcome State Fault Refusal :=
  .next (match assocGet? (s.core core).l1 line with
    | some l => if l.leaving then s.spliceOut core line else s
    | none => s)

/-! ### Lines and tokens -/

/-- L2_EVICT (R170): every copy of the line leaves the L1s, and a dirty line is written back with the token of its owner
(08 R191). A pinned line stays (11 R269). -/
def execL2Evict (line : Nat) (s : State) : Host.Outcome State Fault Refusal :=
  .next (if (s.pinOf line).isNone then (s.evictL2 line).getD s else s)

/-- The fill of a revived page may end: its 1,024 tokens are spent, of which the bucket owes those beyond its size
(log entry 31). -/
def State.fillTokens (s : State) (page : Nat) : Option State :=
  match s.bucketAt (page * 2 ^ 16) with
  | none => some s
  | some (key, b) =>
    let t := s.tenantOf (key / 1024)
    let n := min 1024 (max t.depth t.refill)
    if b.owed = 0 ∧ n ≤ b.tokens then some (s.setBucket key ⟨b.tokens - n, 1024 - n⟩) else none

/-- PAGE_FILL_DONE (R190): 64 KiB of zeros, and the accesses that waited go on. -/
def execPageFillDone (page : Nat) (s : State) : Host.Outcome State Fault Refusal :=
  .next (if isIn s.fills page then
      match s.fillTokens page with
      | none => s
      | some s => s.endFill page
    else s)

/-- One bucket refilled n times; a full bucket is not listed. One of a tenant with REFILL 0 keeps its tokens. -/
def State.refillBucket (s : State) (n : Nat) (b : Nat × Bucket) : Option (Nat × Bucket) :=
  let t := s.tenantOf (b.1 / 1024)
  if t.refill = 0 then some b
  else
  let v := b.2.refill n t.refill t.depth
  if v.owed = 0 ∧ max t.depth t.refill ≤ v.tokens then none else some (b.1, v)

/-- TOKEN_REFILL (R191): at every multiple of 850 a-cycles. -/
def execTokenRefill (s : State) : Host.Outcome State Fault Refusal :=
  .next (if s.refillAt ≤ s.now then
      let n := (s.now - s.refillAt) / 850 + 1
      { s with buckets := s.buckets.filterMap (s.refillBucket n), refillAt := s.refillAt + 850 * n }
    else s)

/-! ### Views and deadlines -/

/-- VIEW_BROADCAST (R278): one view takes one broadcast value. -/
def execViewBroadcast (lease tenant idx : Nat) (s : State) : Host.Outcome State Fault Refusal :=
  .next (s.onTenant (partKey lease tenant) (fun t =>
    match t.bcasts.drop idx with
    | [] => t
    | (key, c, _) :: rest => { t.raiseView key c with bcasts := t.bcasts.take idx ++ rest }))

/-- MWAIT_DEADLINE (R292, R294). -/
def execMwaitDeadline (gang wait : Nat) (s : State) : Host.Outcome State Fault Refusal :=
  .next (match s.wait? gang wait, s.gang? gang with
    | some x, some g =>
      match x.kind with
      | .monitor d trap deadline =>
        if deadline ≤ s.now then
          match mwaitStatus (g.lane (lowBit 64 x.mask.toNat)).monitor s.now deadline with
          | some st => s.mwaitWake gang wait d trap st
          | none => s
        else s
      | _ => s
    | _, _ => s)

/-! ### Host pages -/

/-- The fault of a host access without a good completion (08 R188). -/
def hostFault (acc : Nat) (eng : Bool) : TFault := mkFault 2 0 13 acc false eng

/-- A host access fails: it traps at its word and writes nothing. -/
def State.failHost (s : State) (id : Nat) (x : Access) : State :=
  let f := hostFault x.op.acc false
  s.failAccess id x { cause := f.cause, tinfo := f.synd, taddr := x.va } f.synd

/-- A good completion of a read or an AtomicOp (08 R188). -/
def State.completeHost (s : State) (id : Nat) (x : Access) : State :=
  let old := memRead s.host x.pa x.size
  let (nb, ret) := x.effect old
  let s : State := match nb with
    | some bs => State.writeSync { (s.takeSyncs x (s.syncsAt x)) with host := memWrite s.host x.pa bs } x
    | none => s.takeSyncs x (s.syncsAt x)
  let s : State := s.supply x.gang x.dst (loadWords x.size x.signed ret)
  let s : State := ((s.decided id x).dropAccess id).afterRelease x
  if x.op == .atomic 12 then s.afterJoin x (ofLeBytes old) else s

/-- The copies of a number, with their quads. -/
def State.copiesAt (s : State) (uid : Nat) : List (Nat × Copy) :=
  s.quads.filterMap (fun q => (assocGet? q.2.copies uid).map (fun c => (q.1, c)))

/-- HOST_COMPLETION (R188): the completion of a load or AtomicOp or of a copy's read, or its error status. A number of 2^32
or more names a port: the next host access of the hardware itself at that port ends with an error (log entry 89). -/
def execHostCompletion (acc : Nat) (ok : Bool) (s : State) : Host.Outcome State Fault Refusal :=
  .next (match s.access? acc with
    | some x =>
      if x.phase == .host && x.op != .store then
        if s.laneWaits acc x then s
        else if ok && s.releaseReady acc x then s.completeHost acc x else if ok then s else s.failHost acc x
      else s
    | none =>
      if 2 ^ 32 ≤ acc then (if ok then s else { s with hostErrors := s.hostErrors ++ [(acc - 2 ^ 32) % 8] })
      else (s.copiesAt acc).foldl (fun s p => s.copyAnswer p.1 acc p.2 ok) s)

/-- HOST_TIMEOUT (R188): no completion within 50 µs, which are 42,500 a-cycles. -/
def execHostTimeout (acc : Nat) (s : State) : Host.Outcome State Fault Refusal :=
  .next (match s.access? acc with
    | some x =>
      if x.phase == .host && x.op != .store && !s.laneWaits acc x && decide (x.issued + 42500 ≤ s.now) then
        s.failHost acc x
      else s
    | none => (s.copiesAt acc).foldl (fun s p =>
        if p.2.since + 42500 ≤ s.now then s.copyAnswer p.1 acc p.2 false else s) s)

/-! ### Walk-ahead -/

/-- WALKAHEAD_TRANSLATE (R186): one page of a later position of the copy's source or destination; a translation that
would fault is dropped. -/
def execWalkaheadTranslate (quad uid : Nat) (s : State) : Host.Outcome State Fault Refusal :=
  .next (match s.copy? quad uid with
    | none => s
    | some c =>
      let x := if s.pick 1 2 = 0 then c.src else c.dst
      let pos := c.pos + s.pick 2 (max 1 (c.total - c.pos))
      let va := if c.unitwise then x.origin + s.pick 2 (8192 * 64) else x.elemBit (c.place x (c.index pos)) / 8
      match c.xten with
      | none => s
      | some n =>
        if x.kind ≠ 0 ∨ c.level = 3 then s
        else
          match s.walkNow c.ctx va 0 false with
          | (s, .error _) => s
          | (s, .ok y) =>
            let b := 2 ^ 11
            let e : TlbEntry := ⟨tkey c.lease n, false, c.level, va / 2 ^ 16,
              { y.leaves with e1 := y.leaves.e1 ||| b, e2 := y.leaves.e2 ||| b }⟩
            (s.markLeaves y.leaves false).onQuad quad (fun z => { z with walkAhead := tlbPut z.walkAhead e 512 }))

end Sys2Proof.Machine
end

