-- ==== Sys2Proof/Machine/ConfigSpace.lean ====
section
/-! DEFINITION. The configuration space of a lease and the BAR0 of a function: what each offset reads and what a write
does (17 R332, R337; 03 R52; 04 R67; 19 R359, R369, R373, R374). -/
namespace Sys2Proof.Machine

/-! ### Fault-buffer blocks (17 R337, R339) -/

/-- A doubleword of a fault buffer's block; `pgen` is the partition generation of its level. -/
def FaultBuffer.read (f : FaultBuffer) (off pgen : Nat) : Nat :=
  match off with
  | 0x00 => f.tail * 2 ^ 32 + f.head
  | 0x08 => (ofBool f.ovfie * 2 + ofBool f.entie) * 2 ^ 32 + ofBool f.ovf * 2 ^ 31 + min 0xFFFF f.held.length
  | 0x18 => pgen * 2 ^ 32 + f.dropresp
  | 0x20 => f.base
  | 0x28 => f.count
  | _ => 0

/-- The partition generation that a block shows. -/
def State.fbPgen (s : State) (r : FbRef) : Nat :=
  match r with
  | .tenant l n => (s.tenantOf (tkey l n)).pgen
  | _ => 0

/-- A write of FBHEAD: held entries post while the ring has room (17 R339). -/
def State.writeFbHead (s : State) (r : FbRef) (v : Nat) : State :=
  let f := s.getFb r
  (s.setFb r { f with head := v % 2 ^ 32 }).postHeld r f.held.length

/-- A write of the control word at 0x0C (17 R337). -/
def State.writeFbCtl (s : State) (r : FbRef) (v : Nat) : State :=
  let f := s.getFb r
  s.setFb r { f with ovf := if bit v 31 && f.held.isEmpty then false else f.ovf, ovfie := bit v 1, entie := bit v 0 }

/-- What an answered page request does to its sub-gang (17 R339). -/
def State.answerPage (s : State) (gid w : Nat) (action cause synd va : Nat) : State :=
  match s.gang? gid with
  | none => s
  | some g =>
    match assocGet? g.waits w with
    | none => s
    | some x =>
      match action with
      | 0 => s.unpark gid w false
      | 1 =>
        let y := g.lane (lowBit 64 x.mask.toNat)
        (s.unpark gid w false).enterFrame gid x.mask y.pc y.rep x.tword false { cause := cause, tinfo := synd, taddr := va }
      | _ => s.hwHalt g.team 0x80000002

/-- An answer to a page request: while the sub-gang is saved it waits for the restore (17 R344). -/
def State.takeAnswer (s : State) (gid w : Nat) (action cause synd va : Nat) : State :=
  match s.gang? gid with
  | none => s
  | some g =>
    if (match s.team? g.team with
        | some t => t.placed
        | none => true) then s.answerPage gid w action cause synd va
    else s.onGang gid (fun g =>
      match assocGet? g.waits w with
      | none => g
      | some x => { g with waits := assocSet g.waits w { x with kind := .answered action cause synd va } })

/-- Whether an access is a read of the dispatcher, which takes records in state 3 only (03 R57). -/
def HwAccess.takes (a : HwAccess) : Bool :=
  match a with
  | .takeEntry _ => true
  | .takeRecord _ _ => true
  | .takeFrame _ _ _ => true
  | _ => false

/-- An answer to a hardware queue access: while the tenant is saved it waits for the restore (03 R382, 17 R344), and one for
the dispatcher while the dispatcher stands still. -/
def State.answerHw (s : State) (d : Dom) (a : HwAccess) (retry : Bool) : State :=
  let late := match d with
    | .tenant l n => (s.tenantOf (tkey l n)).state == 5 || ((s.tenantOf (tkey l n)).state == 4 && a.takes)
    | .lsq _ => false
  match d with
  | .tenant l n =>
    if late then s.onTenant (tkey l n) (fun t => { t with answers := t.answers ++ [(d, a, retry)] })
    else if retry then s.retryHw d a else s.abandonHw d a
  | .lsq _ => if retry then s.retryHw d a else s.abandonHw d a

/-- A response (17 R339): RPGEN, RREQ and ACTION. A lease's or the owner's buffer compares the generation that the
entry shows (log entry 28). -/
def State.respond (s : State) (r : FbRef) (v : Nat) : State :=
  let f := s.getFb r
  match assocGet? f.reqs (bits v 31 16) with
  | none => s.setFb r { f with dropresp := min 0xFFFF (f.dropresp + 1) }
  | some (pgen, k) =>
    let now := match r with
      | .tenant _ _ => s.fbPgen r
      | _ => pgen
    if bits v 63 32 ≠ now then s.setFb r { f with dropresp := min 0xFFFF (f.dropresp + 1) }
    else
      let s : State := s.setFb r { f with reqs := f.reqs.filter (fun p => p.1 != bits v 31 16) }
      match k with
      | .page gid w cause synd va => s.takeAnswer gid w (bits v 1 0) cause synd va
      | .migrate => s
      | .hw d a => s.answerHw d a (bits v 1 0 == 0)

/-- A write of a doubleword of a fault-buffer block; a tenant's has no writable BASE and COUNT (17 R337), and the owner's is
taken to have them, as the lease's own does (DESIGN CHOICE, log entry 110). -/
def State.writeFb (s : State) (r : FbRef) (off v : Nat) : State :=
  match off with
  | 0x00 => s.writeFbHead r v
  | 0x08 => s.writeFbCtl r (v / 2 ^ 32)
  | 0x10 => s.respond r v
  | 0x20 => match r with
    | .tenant _ _ => s
    | _ => s.setFb r { s.getFb r with base := v }
  | 0x28 => match r with
    | .tenant _ _ => s
    | _ => s.setFb r { s.getFb r with count := v % 2 ^ 32 }
  | _ => s

/-! ### Read-only regions -/

/-- The lease header (19 R359). -/
def Lease.header (l : Lease) (lease off : Nat) : Nat :=
  match off with
  | 0x00 => l.cols * 2 ^ 48 + l.rows * 2 ^ 32 + l.col0 * 2 ^ 16 + l.row0
  | 0x08 => lease * 2 ^ 48 + l.qcnt * 2 ^ 32 + l.qbase * 2 ^ 16 + (leaseChannels l.extents).length
  | 0x10 => l.mapgen * 2 ^ 32 + l.save
  | 0x18 => l.latmat
  | _ => 0

/-- The wafer-logical quad of a lease-logical quad number (04 R67). -/
def Lease.quadNo (l : Lease) (q : Nat) : Nat := 96 * (l.row0 + q / l.cols) + (l.col0 + q % l.cols)

/-- The status doubleword of a quad (04 R67). -/
def State.quadStatus (s : State) (q : Nat) : Nat :=
  if s.voidQuad q then 1
  else
    let x := s.quad q
    let p := (assocGet {} s.fields (fieldOfQuad q)).map.getD (q / 96 % 8 * 8 + q % 96 % 8) 0 - 1
    fieldOfQuad q * 2 ^ 48 + p / 9 * 2 ^ 44 + p % 9 * 2 ^ 40 + x.pwr * 2 ^ 10 + x.cap * 2 ^ 8 + ofBool x.trim * 2 ^ 7 +
      x.eng * 2 ^ 5 + ofBool x.guest * 2 ^ 4

/-- The minimum-voltage record of a quad (19 R373). -/
def Quad.voltage (x : Quad) (high : Bool) : Nat :=
  if high then x.vtime else ofBool x.noten * 2 ^ 20 + x.vten * 2 ^ 16 + x.vmin

/-- A reset minimum-voltage record. -/
def Quad.resetVoltage (x : Quad) : Quad := { x with vmin := 0xFFFF, vtime := 0, vten := 0, noten := true }

/-- The binding of a peer link, as a lease reads it (19 R369). -/
def State.peerBinding (s : State) (lease link : Nat) : Nat :=
  match assocGet? s.peerLinks link with
  | some p => if p.lease = some lease then 2 ^ 63 + p.tenant * 2 ^ 48 else 0
  | none => 0

/-! ### The space of a lease (17 R332) -/

/-- What an offset reads for a tenant (`own`) or for the lease. -/
def State.cfgRead (s : State) (lease : Nat) (own : Option Nat) (off : Nat) : Nat :=
  match s.lease? lease with
  | none => 0
  | some l =>
    let isLease := own.isNone
    let mine := fun (n : Nat) => isLease || own == some n
    let ownQuad := fun (q : Nat) => match own with
      | none => true
      | some n => isIn (s.tenantQuads lease n) q
    let t := fun (n : Nat) => s.tenantOf (tkey lease n)
    if off < 0x1000 then l.header lease off
    else if off < 0x2000 then
      if isLease then (l.extents.getD ((off - 0x1000) / 8) (0, 0)).2 else 0
    else if off < 0x3000 then
      if isLease && decide (off < 0x2040) then l.fb.read (off - 0x2000) 0 else 0
    else if off < 0x4000 then
      if isLease && decide (off < 0x3040) then l.lsq.read (off - 0x3000) else 0
    else if off < 0x5000 then
      if isLease && decide (off < 0x4180) then s.peerBinding lease ((off - 0x4000) / 8) else 0
    else if off < 0x10000 then
      if isLease && decide (off < 0x5040) then assocGet 0 l.health ((off - 0x5000) / 8) else 0
    else if off < 0x11000 then
      if mine ((off - 0x10000) / 0x100) then (t ((off - 0x10000) / 0x100)).descRead (off % 0x100) else 0
    else if off < 0x20000 then 0
    else if off < 0x20400 then
      let n := (off - 0x20000) / 0x40
      if mine n then (s.getFb (.tenant lease n)).read (off % 0x40) (t n).pgen else 0
    else if off < 0x30000 then 0
    else if off < 0x31000 then
      let n := (off - 0x30000) / 0x100
      if !mine n then 0
      else if off % 0x100 < 0x80 then assocGet 0 (t n).attrs (off % 0x100 / 8)
      else if off % 0x100 = 0x80 then (t n).s1root
      else 0
    else if off < 0x40000 then 0
    else if off < 0x50000 then
      let q := (off - 0x40000) / 8
      if q < l.rows * l.cols && ownQuad (l.quadNo q) then s.quadStatus (l.quadNo q) else 0
    else if off < 0x51000 then
      let n := (off - 0x50000) / 0x100
      if mine n && decide (off % 0x100 < 0x40) then assocGet 0 (t n).counters (off % 0x100 / 8) else 0
    else if off < 0x60000 then 0
    else if off < 0x80000 then
      let n := (off - 0x60000) / 0x2000
      if mine n then (s.route lease n ((off - 0x60000) % 0x2000 / 0x80)).w (off % 0x80 / 8) else 0
    else if off < 0x100000 then
      let q := (off - 0x80000) / 16
      if q < l.rows * l.cols && ownQuad (l.quadNo q) then (s.quad (l.quadNo q)).voltage (off % 16 == 8) else 0
    else if off < 0x200000 then
      let n := (off - 0x100000) / 0x10000
      let q := off % 0x10000 / 0x40
      if mine n && decide (q < s.queueCount (.tenant lease n)) then (s.queueOf (.tenant lease n) q).read (off % 0x40) else 0
    else 0

/-- A write of a doubleword of a queue block (03 R53, R55); `vc` is what an append releases. -/
def State.writeQueue (s : State) (d : Dom) (q off v : Nat) (vc : Clock) : State :=
  match off with
  | 0x00 => s.queueBase d q v
  | 0x08 => s.queueCtl d q v
  | 0x18 => s.append d q v vc
  | 0x28 => s.queueClear d q v
  | _ => s

/-- What a write of an offset does for a tenant (`own`) or for the lease. -/
def State.cfgWrite (s : State) (lease : Nat) (own : Option Nat) (off v : Nat) (vc : Clock) : State :=
  match s.lease? lease with
  | none => s
  | some l =>
    let isLease := own.isNone
    let mine := fun (n : Nat) => isLease || own == some n
    if off < 0x2000 then s
    else if off < 0x3000 then
      if isLease && decide (off < 0x2040) then s.writeFb (.lease lease) (off - 0x2000) v else s
    else if off < 0x4000 then
      if isLease && decide (off < 0x3040) then s.writeQueue (.lsq lease) 0 (off - 0x3000) v vc else s
    else if off < 0x10000 then s
    else if off < 0x11000 then
      if isLease then s.descWrite lease ((off - 0x10000) / 0x100) (off % 0x100) v else s
    else if off < 0x20000 then s
    else if off < 0x20400 then
      if mine ((off - 0x20000) / 0x40) then s.writeFb (.tenant lease ((off - 0x20000) / 0x40)) (off % 0x40) v else s
    else if off < 0x30000 then s
    else if off < 0x31000 then
      let n := (off - 0x30000) / 0x100
      if !mine n then s
      else if off % 0x100 < 0x80 then s.writeAttr lease n (off % 0x100 / 8) v
      else if off % 0x100 = 0x80 then s.writeS1root lease n v
      else s
    else if off < 0x60000 then s
    else if off < 0x80000 then
      let n := (off - 0x60000) / 0x2000
      if mine n then s.routeWrite lease n ((off - 0x60000) % 0x2000 / 0x80) (off % 0x80 / 8) v else s
    else if off < 0x100000 then
      let q := (off - 0x80000) / 16
      if isLease && decide (q < l.rows * l.cols) then s.onQuad (l.quadNo q) Quad.resetVoltage else s
    else if off < 0x200000 then
      let n := (off - 0x100000) / 0x10000
      let q := off % 0x10000 / 0x40
      if mine n && decide (q < s.queueCount (.tenant lease n)) then
        s.writeQueue (.tenant lease n) q (off % 0x40) v vc
      else s
    else s

/-- Whether a write must wait: for words under way on a route (12 R296), or for a `sacc` under way to a line whose attribute
entry it changes (01 R27). -/
def State.cfgWriteWaits (s : State) (lease : Nat) (own : Option Nat) (off v : Nat) : Bool :=
  decide (0x30000 ≤ off ∧ off < 0x31000 ∧ off % 0x100 < 0x80) && (own.isNone || own == some ((off - 0x30000) / 0x100)) &&
    s.attrWriteWaits (tkey lease ((off - 0x30000) / 0x100)) (off % 0x100 / 8) ||
  decide (0x60000 ≤ off ∧ off < 0x80000) && (own.isNone || own == some ((off - 0x60000) / 0x2000)) &&
    s.routeWriteWaits lease ((off - 0x60000) / 0x2000) ((off - 0x60000) % 0x2000 / 0x80) (off % 0x80 / 8) v

/-! ### BAR0 of a function (03 R52, 17 R325, R337) -/

/-- The tenant bound to a function, or the lease whose function it is. -/
def State.functionOf (s : State) (port vfn : Nat) : Option Dom :=
  match (s.tenants.find? (fun t => decide (2 ≤ t.2.state) && bits t.2.vf 9 7 == port && bits t.2.vf 6 0 == vfn)) with
  | some t => some (.tenant (keyLease t.1) (keyNo t.1))
  | none => ((s.leases.find? (fun l => l.2.port == port && l.2.vfn == vfn))).map (fun l => .lsq l.1)

/-- A write of a doubleword of BAR0 by a host. The physical function of port 0 has the owner's fault-buffer block, and nothing
else that the manual gives (17 R337; log entry 110). -/
def State.barWrite (s : State) (port vfn off v : Nat) : State :=
  if !s.mmioOk port vfn then s
  else if vfn = 0 then
    if port = 0 ∧ 0x100 ≤ off ∧ off < 0x140 then s.writeFb .owner (off - 0x100) v else s
  else
    match s.functionOf port vfn with
    | none => s
    | some (.tenant l n) =>
      if 0x100 ≤ off ∧ off < 0x140 then s.writeFb (.tenant l n) (off - 0x100) v
      else if 0x10000 ≤ off ∧ off < 0x20000 ∧ (off - 0x10000) / 0x40 < s.queueCount (.tenant l n) then
        s.writeQueue (.tenant l n) ((off - 0x10000) / 0x40) (off % 0x40) v []
      else s
    | some (.lsq l) =>
      if 0x100 ≤ off ∧ off < 0x140 then s.writeFb (.lease l) (off - 0x100) v
      else if 0x1000 ≤ off ∧ off < 0x1040 then s.writeQueue (.lsq l) 0 (off - 0x1000) v []
      else s

/-- A register as the host reads it (03 R52); a function that takes no MMIO shows no register. -/
def State.barRead (s : State) (port vfn off : Nat) : Nat :=
  if vfn = 0 then
    if port = 0 ∧ s.mmioOk 0 0 ∧ 0x100 ≤ off ∧ off < 0x140 then s.ownerFb.read (off - 0x100) 0 else 0
  else
  match (if s.mmioOk port vfn then s.functionOf port vfn else none) with
  | some (.tenant l n) =>
    let t := s.tenantOf (tkey l n)
    if off = 0x00 then t.tag.getD 0 * 2 ^ 8 + l * 2 ^ 4 + n
    else if off = 0x08 then t.pgen
    else if off = 0x10 then t.state
    else if off = 0x18 then s.queueCount (.tenant l n)
    else if 0x100 ≤ off ∧ off < 0x140 then (s.getFb (.tenant l n)).read (off - 0x100) t.pgen
    else if 0x10000 ≤ off ∧ off < 0x20000 ∧ (off - 0x10000) / 0x40 < s.queueCount (.tenant l n) then
      (s.queueOf (.tenant l n) ((off - 0x10000) / 0x40)).read (off % 0x40)
    else 0
  | some (.lsq l) =>
    if 0x100 ≤ off ∧ off < 0x140 then (s.getFb (.lease l)).read (off - 0x100) 0
    else if 0x1000 ≤ off ∧ off < 0x1040 then (s.queueOf (.lsq l) 0).read (off - 0x1000)
    else 0
  | none => 0

end Sys2Proof.Machine
end

