-- ==== Sys2Proof/Machine/TenantEvents.lean ====
section
/-! DEFINITION. The steps of a tenant's life: its descriptor, its registers, fault buffers and routes, the ladder of
pre-emption, saves and restores, and the rotation of time-sliced tenants (17 R332, R339, R341 to R346; 19 R355). -/
namespace Sys2Proof.Machine

/-- Whether a lease and one of its sixteen tenants are named. -/
def State.named (s : State) (lease n : Nat) : Bool := (s.lease? lease).isSome && decide (n < 16)

/-- A step of the state word: it acts when the descriptor is in one of the states of its row (19 R355). -/
def State.descStep (s : State) (lease n : Nat) (from_ : List Nat) (k : State → State) : State :=
  if s.named lease n && isIn from_ (s.tenantOf (tkey lease n)).state then k s else s

/-! ### The descriptor's state word -/

/-- DESC_CONFIGURE (R355). -/
def execDescConfigure (lease tenant : Nat) (s : State) : Host.Outcome State Fault Refusal :=
  .next (s.descStep lease tenant [0] (fun s => s.descConfigure lease tenant))

/-- DESC_COMMIT (R358). -/
def execDescCommit (lease tenant : Nat) (s : State) : Host.Outcome State Fault Refusal :=
  .next (s.descStep lease tenant [1] (fun s => s.descCommit lease tenant))

/-- DESC_UNCOMMIT (R355). -/
def execDescUncommit (lease tenant : Nat) (s : State) : Host.Outcome State Fault Refusal :=
  .next (s.descStep lease tenant [2] (fun s => s.descUncommit lease tenant))

/-- DESC_RUN (R355). -/
def execDescRun (lease tenant : Nat) (s : State) : Host.Outcome State Fault Refusal :=
  .next (s.descStep lease tenant [2] (fun s => s.descRun lease tenant))

/-- DESC_PREEMPT (R341). -/
def execDescPreempt (lease tenant : Nat) (s : State) : Host.Outcome State Fault Refusal :=
  .next (s.descStep lease tenant [3] (fun s => s.descPreempt lease tenant))

/-- DESC_RESTORE (R344). -/
def execDescRestore (lease tenant : Nat) (s : State) : Host.Outcome State Fault Refusal :=
  .next (s.descStep lease tenant [5] (fun s => s.descRestore lease tenant))

/-- DESC_HOLD_OUT (R345). -/
def execDescHoldOut (lease tenant : Nat) (s : State) : Host.Outcome State Fault Refusal :=
  .next (s.descStep lease tenant [5] (fun s => s.descHoldOut lease tenant))

/-- DESC_FREE (R355). -/
def execDescFree (lease tenant : Nat) (s : State) : Host.Outcome State Fault Refusal :=
  .next (s.descStep lease tenant [2, 5, 6] (fun s => s.descFree lease tenant))

/-- DESC_RECOVER (R355): from the faulted state to configuring, after the scrub. -/
def execDescRecover (lease tenant : Nat) (s : State) : Host.Outcome State Fault Refusal :=
  .next (s.descStep lease tenant [6] (fun s => (s.descFree lease tenant).descConfigure lease tenant))

/-! ### Other registers -/

/-- QUANTUM_WRITE (R346). -/
def execQuantumWrite (lease tenant value : Nat) (s : State) : Host.Outcome State Fault Refusal :=
  .next (if s.named lease tenant then s.writeQuantum lease tenant (value % 2 ^ 32) else s)

/-- ATTR_ENTRY_WRITE (R27): the write waits for a `sacc` under way to a line of the entry. -/
def execAttrEntryWrite (lease tenant i value : Nat) (s : State) : Host.Outcome State Fault Refusal :=
  .next (if s.named lease tenant && decide (i < 16) && !s.attrWriteWaits (tkey lease tenant) i then s.writeAttr lease tenant i (value % 2 ^ 64) else s)

/-- S1ROOT_WRITE (R179). -/
def execS1rootWrite (lease tenant value : Nat) (s : State) : Host.Outcome State Fault Refusal :=
  .next (if s.named lease tenant then s.writeS1root lease tenant (value % 2 ^ 64) else s)

/-- S2ROOT_WRITE (R179). -/
def execS2rootWrite (lease tenant value : Nat) (s : State) : Host.Outcome State Fault Refusal :=
  .next (if s.named lease tenant then s.writeS2root lease tenant (value % 2 ^ 64) else s)

/-- ROUTE_ENABLE (R296). -/
def execRouteEnable (lease tenant rt value : Nat) (s : State) : Host.Outcome State Fault Refusal :=
  .next (if s.named lease tenant && decide (rt < 64) then
      s.routeWrite lease tenant rt 0 (value % 2 ^ 64 ||| 2 ^ 63)
    else s)

/-- ROUTE_DISABLE (R296): the write waits while words are under way. -/
def execRouteDisable (lease tenant rt value : Nat) (s : State) : Host.Outcome State Fault Refusal :=
  .next (if s.named lease tenant && decide (rt < 64) && !s.routeWriteWaits lease tenant rt 0 (value % 2 ^ 63) then
      s.routeWrite lease tenant rt 0 (value % 2 ^ 63)
    else s)

/-- A write of one doubleword of a configuration register (17 R332) or of BAR0 (03 R52). -/
def State.registerWrite (s : State) (who : Writer) (offset value : Nat) : State :=
  match who with
  | .tenant l n =>
    if s.cfgWriteWaits l (some n) offset value then s else s.cfgWrite l (some n) offset value []
  | .lease l => if s.cfgWriteWaits l none offset value then s else s.cfgWrite l none offset value []
  | .bar port vfn => s.barWrite port vfn offset value

/-- REGISTER_WRITE (R332, R52): offsets are doubleword aligned. -/
def execRegisterWrite (who : Writer) (offset value : Nat) (s : State) : Host.Outcome State Fault Refusal :=
  .next (if offset % 8 = 0 then s.registerWrite who offset (value % 2 ^ 64) else s)

/-- FAULT_RESPONSE (R339): the host's writes of a block change nothing where its function takes no MMIO (03 R52). -/
def execFaultResponse (fb : FbRef) (value : Nat) (s : State) : Host.Outcome State Fault Refusal :=
  .next (if s.fbReaches fb then s.respond fb (value % 2 ^ 64) else s)

/-- FBHEAD_WRITE (R339). -/
def execFbheadWrite (fb : FbRef) (value : Nat) (s : State) : Host.Outcome State Fault Refusal :=
  .next (if s.fbReaches fb then s.writeFbHead fb value else s)

/-- CLROVF_WRITE (R337). -/
def execClrovfWrite (fb : FbRef) (value : Nat) (s : State) : Host.Outcome State Fault Refusal :=
  .next (if s.fbReaches fb then s.writeFbCtl fb value else s)

/-! ### The ladder of pre-emption (17 R342, R343) -/

/-- The teams of a partition that hold a core. -/
def State.placedTeams (s : State) (part : Nat) : List (Nat × Team) :=
  s.teams.filter (fun t => t.2.part == part && t.2.placed)

/-- Whether the soft wait of a tenant is over: no resident team, or T1 µs have passed. -/
def State.softOver (s : State) (lease n : Nat) : Bool :=
  let t := s.tenantOf (tkey lease n)
  t.state == 4 && (match t.ladder with
    | some l => l.hard.isNone && ((s.placedTeams (tkey lease n)).isEmpty || decide (l.t0 + 850 * t.t1 ≤ s.now))
    | none => false)

/-- PREEMPT_HARD_STOP (R343). -/
def execPreemptHardStop (lease tenant : Nat) (s : State) : Host.Outcome State Fault Refusal :=
  .next (if s.softOver lease tenant then
      s.onTenant (tkey lease tenant) (fun t => { t with ladder := t.ladder.map (fun l => { l with hard := some s.now }) })
    else s)

/-- A cohort ends at its word (17 R342): lanes that have done it go on after it, through its next repetition (06 R115), and
the others issue it again. -/
def State.stopCohort (s : State) (gid cid : Nat) : State :=
  s.asCohort gid cid (fun s => s.act fun a =>
    let done := if a.co.hold && a.co.args.isEmpty then a.co.mask else a.co.mask &&& a.co.done
    let rest := a.co.mask &&& ~~~done
    ((s.goOn a.co done).setPcs rest (fun _ => a.pc) a.co.repIdx).leave rest)

/-- Whether a cohort stands in a `tlbi` that has dropped its entries and waits for the accesses that used them
(17 R333). -/
def Cohort.inTlbi (c : Cohort) : Bool := c.mark != 0 && bits c.word 31 21 == 0x74 * 16 + 4

/-- Whether an engine class of a tenant has reached its unit (17 R342): 0 lanes, 1 copy, 2 churn, 3 routes,
4 dispatcher, 5 item queues. Lanes wait for their accesses and for a `tlbi` in progress (17 R344); routes for their words
in flight (12 R302). -/
def State.classReady (s : State) (lease n cls : Nat) : Bool :=
  let part := tkey lease n
  match cls with
  | 0 => s.accesses.all (fun a => a.2.ten != part) &&
      (s.partGangs part).all (fun g => (s.gang? g).all (fun x => x.cohorts.all (fun c => !c.2.inTlbi)))
  | 1 => s.quads.all (fun q => q.2.copies.all (fun c => c.2.ten != part || s.copySettled c.2))
  | 3 => (s.tenantOf part).routes.all (fun r => !r.2.moving)
  | _ => true

/-- Lanes stop: their cohorts end at word boundaries, pins are published at partition scope, monitors lapse. -/
def State.stopLanes (s : State) (part : Nat) : State :=
  let gs := s.partGangs part
  let s : State := gs.foldl (fun s g => match s.gang? g with
    | some x => x.cohorts.foldl (fun s c => s.stopCohort g c.1) s
    | none => s) s
  let s : State := (s.teams.filter (fun t => t.2.part == part)).foldl (fun s t => s.publishPins t.1 []) s
  s.lapseMonitors (fun r => isIn gs r.gang)

/-- ENGINE_STOP_ACK (R342). -/
def execEngineStopAck (lease tenant cls : Nat) (s : State) : Host.Outcome State Fault Refusal :=
  .next (match (s.tenantOf (tkey lease tenant)).ladder with
    | none => s
    | some l =>
      if l.hard.isSome && decide (cls < 6) && !isIn l.acks cls && s.classReady lease tenant cls then
        let s : State := if cls = 0 then s.stopLanes (tkey lease tenant) else s
        s.onTenant (tkey lease tenant) (fun t => { t with ladder := some { l with acks := cls :: l.acks } })
      else s)

/-- The bytes of a window, by side x 2^20 + offset. -/
def windowCells (m : Mem) (w : Nat × Nat) (side : Nat) : List Host.Cell :=
  (m.filter (fun c => inWindow w c.1)).map (fun c => (side * 2 ^ 20 + (c.1 - w.1), c.2))

/-- The poisoned units and the errors of a team's windows on one side, as `Team.savedMarks` holds them. -/
def Core.windowMarks (c : Core) (w : (Nat × Nat) × (Nat × Nat)) (side : Nat) : List (Nat × Nat) :=
  let units : Nat → List Nat → Nat × Nat → List (Nat × Nat) := fun kind us w =>
    (us.filter (fun u => inWindow w (64 * u))).map (fun u => (kind, side * 2 ^ 20 + (64 * u - w.1)))
  let bytes : Nat → List Nat → Nat × Nat → List (Nat × Nat) := fun kind es w =>
    (es.filter (inWindow w)).map (fun e => (kind, side * 2 ^ 20 + (e - w.1)))
  units 0 c.aBad w.1 ++ units 1 c.wBad w.2 ++ bytes 2 c.aErr w.1 ++ bytes 3 c.wErr w.2

/-- A team leaves its core or pair with what its windows hold, which read zero from then on (04 R71, 17 R343). -/
def State.saveTeam (s : State) (id : Nat) (t : Team) : State :=
  let sides := t.cores.map (fun c => (c, ofBool (c != t.core), t.windowsOn c))
  let s : State := s.setTeam id { t with
    placed := false
    savedA := sides.flatMap (fun x => windowCells (s.core x.1).abuf x.2.2.1 x.2.1)
    savedW := sides.flatMap (fun x => windowCells (s.core x.1).wbuf x.2.2.2 x.2.1)
    savedMarks := sides.flatMap (fun x => (s.core x.1).windowMarks x.2.2 x.2.1) }
  sides.foldl (fun s x => s.onCore x.1 (·.wipeWindows x.2.2)) s

/-- What a partition holds of a quad beside its teams is saved and scrubbed: its semaphores, items and records, its tiles
and commands in each array, whichever partition the array serves now, and its copies. -/
def State.saveQuad (s : State) (part : Nat) (d : Dom) (q : Nat) : State :=
  let gs := s.partGangs part
  let ls := (s.launchesOf d).map (·.1)
  let cores := (List.range 4).map (fun i =>
    let c := s.core (4 * q + i)
    (i, ({ sems := c.sems.filter (fun y => y.1 / 64 == part)
           items := c.items.filter (fun p => isIn ls p.1)
           sfq := c.sfq.filter (fun r => isIn gs r.gang) } : SavedCore)))
  let x := s.quad q
  let arrays := x.arrays.map (fun a =>
    let t := a.2.tiles part
    (a.1, ({ part := some part, cstore := t.cstore, ovf := t.ovf, poison := t.poison, cErr := t.cErr
             queue := a.2.queue.filter (fun m => m.ten == part) } : Array)))
  let saved : SavedQuad := ⟨cores, arrays, x.copies.filter (fun c => c.2.ten == part)⟩
  let s : State := (List.range 4).foldl (fun s i => s.onCore (4 * q + i) (fun c => { c with
    sems := c.sems.filter (fun y => y.1 / 64 != part)
    items := c.items.filter (fun p => !isIn ls p.1)
    sfq := c.sfq.filter (fun r => !isIn gs r.gang) })) s
  let s : State := s.onQuad q (fun x => { x with
    arrays := x.arrays.map (fun a => (a.1, a.2.without part))
    copies := x.copies.filter (fun c => c.2.ten != part)
    idleSince := s.now })
  s.onPart part (fun t => { t with saved := assocSet t.saved q saved })

/-- A partition leaves a quad with everything that it holds there. -/
def State.vacate (s : State) (part : Nat) (d : Dom) (q : Nat) : State :=
  let ts := (s.placedTeams part).filter (fun t => quadOfCore t.2.core == q)
  let s : State := s.saveQuad part d q
  ts.foldl (fun s t => s.saveTeam t.1 t.2) s

/-- Whether a save may end: every class has acknowledged. -/
def State.mayFinishSave (s : State) (lease n : Nat) : Bool :=
  let t := s.tenantOf (tkey lease n)
  t.state == 4 && (match t.ladder with
    | some l => !l.owner && (List.range 6).all (isIn l.acks) && decide (s.now < l.t0 + 850000 * t.t2)
    | none => false)

/-- SAVE_DONE (R343): the context is saved, which took `us` microseconds. -/
def execSaveDone (lease tenant us : Nat) (s : State) : Host.Outcome State Fault Refusal :=
  .next (if s.mayFinishSave lease tenant then
      let part := tkey lease tenant
      let d : Dom := .tenant lease tenant
      let s : State := (s.tenantQuads lease tenant).foldl (fun s q => s.vacate part d q) s
      s.onTenant part (fun t => { t with state := 5, ladder := none, lastsave := us % 2 ^ 32, rewritten := false, draft := none })
    else s)

/-- Whether a context must be killed: T2 ms have passed since the request. -/
def State.mustKill (s : State) (lease n : Nat) : Bool :=
  let t := s.tenantOf (tkey lease n)
  t.state == 4 && (match t.ladder with
    | some l => !l.owner && l.hard.isSome && decide (l.t0 + 850000 * t.t2 ≤ s.now)
    | none => false)

/-- PREEMPT_KILL (R343): the context is discarded and everything scrubbed; the entry goes to the lease and the tenant,
once when they share a buffer (17 R340). -/
def execPreemptKill (lease tenant : Nat) (s : State) : Host.Outcome State Fault Refusal :=
  .next (if s.mustKill lease tenant then
      let k := tkey lease tenant
      let s : State := ((s.discard lease tenant).discardSaved lease tenant).onTenant k (fun t =>
        { t with state := 6, pgen := (t.pgen + 1) % 2 ^ 32 })
      let t := s.tenantOf k
      let e : Entry := { type := 8, lvl := 3, tag := t.tag.getD 0, pgen := t.pgen }
      let fb := s.tenantFb lease tenant
      let s : State := s.post (.lease lease) e
      if fb = .lease lease then s else s.post fb e
    else s)

/-! ### Restores (17 R344) -/

/-- Every saved team of a partition returns with what was saved of its quad, and then what was saved of quads without
teams. A team that finds no place stays saved, and returns before any new team is released (17 R344). -/
def State.restoreAll (s : State) (lease n : Nat) : State :=
  let part := tkey lease n
  let d : Dom := .tenant lease n
  let olds := (s.teams.filter (fun t => t.2.part == part && !t.2.placed)).map (fun t => quadOfCore t.2.core)
  s.returnQuads d part (olds ++ (s.tenantOf part).saved.map (·.1)).dedup

/-- A tenant runs again: answers that came while it was saved are applied. -/
def State.resume (s : State) (lease n : Nat) : State :=
  let part := tkey lease n
  let answers := (s.tenantOf part).answers
  let s : State := s.onTenant part (fun t => { t with
    state := 3, restoring := false, ladder := none, answers := [], quantumAt := some s.now
    startAt := some (t.startAt.getD s.now) })
  answers.foldl (fun s a => s.answerHw a.1 a.2.1 a.2.2) s

/-! ### Time-slicing (17 R345) -/

/-- The time-sliced tenants of a lease in states 3 to 5. -/
def State.slicedTenants (s : State) (lease : Nat) : List Nat :=
  (s.tenantNumbers lease).filter (fun n =>
    let t := s.tenantOf (tkey lease n)
    t.sliced && decide (3 ≤ t.state ∧ t.state ≤ 5))

/-- The members of the slice group of a tenant: tenants whose quads overlap, directly or through a chain. -/
def State.sliceGroup (s : State) (lease n : Nat) : List Nat :=
  let all := s.slicedTenants lease
  let touch := fun (a b : Nat) => (s.tenantQuads lease a).any (isIn (s.tenantQuads lease b))
  let g := (List.range 16).foldl (fun (g : List Nat) _ =>
    all.filter (fun m => isIn g m || g.any (fun k => touch k m))) [n]
  all.filter (isIn g)

/-- Whether a member is ready: a saved or resident team, or work that the dispatcher could take or release. -/
def State.memberReady (s : State) (lease n : Nat) : Bool :=
  let t := s.tenantOf (tkey lease n)
  !t.out && (s.teams.any (fun x => x.2.part == tkey lease n) ||
    (s.launchesOf (.tenant lease n)).any (fun y => y.2.pending) ||
    (List.range (s.queueCount (.tenant lease n))).any (fun q =>
      s.takeable (.tenant lease n) q))

/-- The member of a group that ran last. -/
def State.lastRun (s : State) (lease : Nat) (g : List Nat) : Option Nat :=
  minBy (fun n => 2 ^ 64 - (s.tenantOf (tkey lease n)).quantumAt.getD 0)
    (g.filter (fun n => (s.tenantOf (tkey lease n)).quantumAt.isSome))

/-- The member of a group whose turn comes next: the one that ran last while its weight allows it another quantum, else
the next ready member, ascending and wrapping; members of weight 0 only when no other is ready. -/
def State.nextMember (s : State) (lease : Nat) (g : List Nat) : Option Nat :=
  let ready := g.filter (s.memberReady lease)
  let heavy := ready.filter (fun n => (s.tenantOf (tkey lease n)).turns != 0)
  let pool := if heavy.isEmpty then ready else heavy
  match s.lastRun lease g with
  | none => pool.head?
  | some m =>
    let t := s.tenantOf (tkey lease m)
    if isIn pool m ∧ t.quanta < t.turns then some m else (rotateFrom (sortNats pool) m true).head?

/-- Whether a tenant may be restored now, outside a quiesce: a fixed one that was told to, or the member whose turn it is in a group of
which none runs. -/
def State.mayRestore (s : State) (lease n : Nat) : Bool :=
  let t := s.tenantOf (tkey lease n)
  t.state == 5 && s.failing.isEmpty &&
    (if t.sliced then
      let g := s.sliceGroup lease n
      g.all (fun m => (s.tenantOf (tkey lease m)).state == 5) && s.nextMember lease g == some n
    else t.restoring)

/-- RESTORE_DONE (R344, R345): the saved teams are back and the tenant runs; the shape checks come first when words were
rewritten; a failing one sets the status, and the turn of a time-sliced tenant passes. -/
def execRestoreDone (lease tenant : Nat) (s : State) : Host.Outcome State Fault Refusal :=
  .next (if s.mayRestore lease tenant then
      let k := tkey lease tenant
      let again := decide (s.lastRun lease (s.sliceGroup lease tenant) = some tenant)
      match s.reshape lease tenant with
      | (0, u) => ((u.restoreAll lease tenant).resume lease tenant).onTenant k
          (fun t => { t with quanta := if again ∧ t.quanta < t.turns then t.quanta + 1 else 1 })
      | (_, u) => u.onTenant k (fun t =>
          if t.sliced then { t with quantumAt := some s.now, quanta := t.turns } else { t with restoring := false })
    else s)

/-- Whether the quantum of a running member is over, or it runs no longer: it is not ready, or a member of weight 1 or
more is ready beside one of weight 0. -/
def State.quantumOver (s : State) (lease n : Nat) : Bool :=
  let t := s.tenantOf (tkey lease n)
  let others := (s.sliceGroup lease n).filter (fun m => m != n && s.memberReady lease m)
  t.sliced && t.state == 3 &&
    (!s.memberReady lease n || decide (t.quantumAt.getD 0 + 850 * t.quantum ≤ s.now) ||
      (t.turns == 0 && others.any (fun m => (s.tenantOf (tkey lease m)).turns != 0)))

/-- QUANTUM_EXPIRE (R345): a member that goes on starts its next quantum; another is switched out, by a ladder that starts
at the hard stop, and its turn is over. -/
def execQuantumExpire (lease tenant : Nat) (s : State) : Host.Outcome State Fault Refusal :=
  .next (if s.quantumOver lease tenant then
      let k := tkey lease tenant
      let g := s.sliceGroup lease tenant
      if s.memberReady lease tenant && s.nextMember lease g == some tenant then
        s.onTenant k (fun t => { t with
          quantumAt := some s.now, quanta := if t.quanta < t.turns then t.quanta + 1 else 1 })
      else
        (s.tally k 4 1).onTenant k (fun t => { t with
          state := 4, ladder := some { t0 := s.now, hard := some s.now, sliced := true }, quanta := t.turns })
    else s)

end Sys2Proof.Machine
end

