-- ==== Sys2Proof/Machine/PlatformEvents.lean ====
section
/-! DEFINITION. The steps of owner firmware and of the platform: boot and the logical maps, power, failures and repairs,
the latency matrix, leases, links, attestation and health (00 R2; 04 R64 to R70, R79 to R81; 10 R235; 19 R359 to R374). -/
namespace Sys2Proof.Machine

/-! ### Logical maps (04 R64, R65) -/

/-- Whether a physical quad is in a list of defects. -/
def defective (ds : List Nat) (prow pcol : Nat) : Bool := isIn ds (9 * prow + pcol)

/-- How many defects a physical row has. -/
def rowDefects (ds : List Nat) (prow : Nat) : Nat := ((List.range 9).filter (defective ds prow)).length

/-- The physical rows that have not failed, ascending. -/
def goodRows (ds : List Nat) : List Nat := (List.range 9).filter (fun r => decide (rowDefects ds r < 2))

/-- The good columns of a physical row, ascending. -/
def goodCols (ds : List Nat) (prow : Nat) : List Nat := (List.range 9).filter (fun c => !defective ds prow c)

/-- The map that a defect list gives (04 R64), before the bounds of 04 R65: 9 x row + column + 1, or zero where there is
no row left. -/
def rawMap (ds : List Nat) : List Nat :=
  (List.range 64).map (fun i =>
    match (goodRows ds)[i / 8]? with
    | none => 0
    | some r => match (goodCols ds r)[i % 8]? with
      | some c => 9 * r + c + 1
      | none => 0)

def absDiff (a b : Nat) : Nat := (a - b) + (b - a)

/-- The distance in physical pitches between two logically adjacent quads, in one field or across a boundary, which counts
as one pitch (04 R65). -/
def pitches (x y : Nat) (sameField rowNeighbours : Bool) : Nat :=
  let dr := absDiff ((x - 1) / 9) ((y - 1) / 9)
  let dc := absDiff ((x - 1) % 9) ((y - 1) % 9)
  if sameField then dr + dc else if rowNeighbours then dr + 1 else dc + 1

/-- Where a wafer-logical quad lies in the maps of the fields. -/
def mapAt (maps : List (Nat × List Nat)) (q : Nat) : Nat :=
  (assocGet [] maps (fieldOfQuad q)).getD (q / 96 % 8 * 8 + q % 96 % 8) 0

/-- Whether two adjacent positions keep the bounds of 04 R65; a void position breaks nothing. -/
def boundOk (maps : List (Nat × List Nat)) (q n : Nat) : Bool :=
  let x := mapAt maps q
  let y := mapAt maps n
  let row := q / 96 == n / 96
  x == 0 || y == 0 || decide (pitches x y (fieldOfQuad q == fieldOfQuad n) row ≤ (if row then 2 else 3))

/-- Whether every neighbour of a position keeps the bounds. -/
def boundsAt (maps : List (Nat × List Nat)) (q : Nat) : Bool :=
  (List.range 4).all (fun d => match besideQuad q d with
    | some n => boundOk maps q n
    | none => true)

/-- The maps with the position of a quad void. -/
def voidAt (maps : List (Nat × List Nat)) (q : Nat) : List (Nat × List Nat) :=
  let f := fieldOfQuad q
  assocSet maps f ((assocGet [] maps f).set (q / 96 % 8 * 8 + q % 96 % 8) 0)

/-- Boot: every field's map from its defects, then a position is void when it breaks the bounds with a neighbour above or
to the left that is kept (log entry 35). Defects are 81 x field + 9 x row + column. -/
def bootMaps (defects : List Nat) : List (Nat × List Nat) :=
  let maps := (List.range 84).map (fun f =>
    (f, rawMap ((defects.filter (fun d => d / 81 == f)).map (· % 81))))
  (List.range 5376).foldl (fun maps q =>
    let bad := fun (d : Nat) => match besideQuad q d with
      | some n => !boundOk maps q n
      | none => false
    if bad 0 || bad 3 then voidAt maps q else maps) maps

/-- BOOT (R64): owner firmware builds the maps from the defect lists. -/
def execBoot (defects : List Nat) (s : State) : Host.Outcome State Fault Refusal :=
  .next (if s.booted then s
    else
      { s with
        booted := true
        fields := (bootMaps defects).map (fun m =>
          (m.1, { map := m.2, defects := (defects.filter (fun d => d / 81 == m.1)).map (· % 81) })) })

/-! ### A change of map (04 R66, R68, R70; 19 R360, R361) -/

/-- The leases whose rectangle holds a quad. -/
def State.leasesOver (s : State) (qs : List Nat) : List Nat :=
  (s.leases.filter (fun l => qs.any (fun q => isIn l.2.quads q))).map (·.1)

/-- The tenants of a lease that hold one of some quads. -/
def State.tenantsOver (s : State) (lease : Nat) (qs : List Nat) : List Nat :=
  (s.tenantNumbers lease).filter (fun n => decide (2 ≤ (s.tenantOf (tkey lease n)).state) &&
    qs.any (isIn (s.tenantQuads lease n)))

/-- The sum-range partials of a partition are combined, its pins published, its monitors lapse (19 R360 steps 1 and 4). -/
def State.settlePart (s : State) (part : Nat) : State :=
  let s : State := ((s.cores.flatMap (fun c => (c.2.partials.filter (fun p => p.2.ten == part)).map (fun p =>
    lineOf (p.1 / 2)))).dedup).foldl State.combine s
  let s : State := (s.teams.filter (fun t => t.2.part == part)).foldl (fun s t => s.publishPins t.1 []) s
  s.lapseMonitors (fun r => r.ten == part || r.xten == part)

/-- The teams of some that find no core after a change of map are halted, with every team of a cooperative launch of which
one is; one HALTCODE and one entry for each tenant and change (19 R361). -/
def State.haltUnplaced (s : State) (lease : Nat) (tenant : Option Nat) (part : Nat) (ids : List Nat) : State :=
  let lost := s.teams.filter (fun t => isIn ids t.1 && !t.2.placed && !t.2.halted)
  match lost with
  | [] => s
  | t :: _ =>
    let coops := (lost.map (·.2.launch)).filter (fun l => (s.launch? l).any (fun y => y.desc.coop))
    let all := (s.teams.filter (fun x => x.2.part == part && !x.2.halted &&
      (isIn (lost.map (·.1)) x.1 || isIn coops x.2.launch))).map (·.1)
    let s : State := all.foldl (fun s i => (s.stopTeam i).onTeam i (fun x => { x with placed := true })) s
    s.haltEntry lease tenant 3 0x80000003 t.2.core

/-- The caches and TLBs of the cores of a void quad are gone: its copies leave their lists. -/
def State.dropQuadCaches (s : State) (q : Nat) : State :=
  (List.range 4).foldl (fun s i =>
    let c := 4 * q + i
    let s : State := ((s.core c).partials.map (fun p => lineOf (p.1 / 2))).dedup.foldl (fun s l => s.combineCores l [c]) s
    let s : State := ((s.core c).l1.map (·.1)).foldl (fun s l => s.spliceOut c l) s
    s.onCore c (fun x => { x with tlb := [] })) s

/-- Accesses under way follow their gangs to the cores they moved to. -/
def State.followGangs (s : State) : State :=
  { s with accesses := s.accesses.map (fun a => (a.1, match s.gang? a.2.gang with
      | some g => { a.2 with core := g.core }
      | none => a.2)) }

/-- A partition leaves void quads: each team moves to another core, under the test of 04 R73, where it fits one. -/
def State.moveOff (s : State) (d : Dom) (part : Nat) (voids : List Nat) : State :=
  let ts := (s.placedTeams part).filter (fun t => isIn voids (quadOfCore t.2.core))
  let qs := (ts.map (fun t => quadOfCore t.2.core)).dedup
  let s : State := qs.foldl (fun s q => s.vacate part d q) s
  let s : State := qs.foldl (fun s q => s.returnCluster d part q true) s
  let s : State := ts.foldl (fun s t => match s.team? t.1 with
    | some x => if x.placed then s else s.returnLone d part t.1 x
    | none => s) s
  s.followGangs.onPart part (fun t => { t with saved := t.saved.filter (fun x => !isIn qs x.1) })

/-- Whether a quad holds a team or a saved context (04 R81). -/
def State.quadBusy (s : State) (quad : Nat) : Bool :=
  s.teams.any (fun t => quadOfCore t.2.core == quad) || s.tenants.any (fun t => (assocGet? t.2.saved quad).isSome)

/-- The fields of a physical quad's platform state, apart from what its engines hold. -/
def Quad.platform (x y : Quad) : Quad :=
  { x with pwr := y.pwr, cap := y.cap, trim := y.trim, eng := y.eng, guest := y.guest, waitSince := y.waitSince,
           idleSince := y.idleSince, vmin := y.vmin, vtime := y.vtime, vten := y.vten, noten := y.noten }

/-- A quad begins another pattern of issue: the cycles enabled so far stand (04 R79). -/
def State.rebase (s : State) (quad : Nat) (f : Quad → Quad) : State :=
  s.onQuad quad (fun q => { f q with capBase := s.enabled (4 * quad), capSince := s.now })

/-- The platform state of the physical quads follows them to their new positions; the counts of enabled cycles stay with
the positions. A quad whose contents have gone elsewhere is idle from now on (04 R81). -/
def State.movePlatform (s : State) (f : Nat) (old new : List Nat) : State :=
  (List.range 64).foldl (fun (t : State) i =>
    let p := new.getD i 0
    if p = old.getD i 0 ∨ p = 0 then t
    else
      let y : Quad := match findIdx (· == p) old with
        | some j =>
          let q := fieldQuad f (j / 8) (j % 8)
          if s.quadBusy q then { s.quad q with idleSince := s.now } else s.quad q
        | none => {}
      t.rebase (fieldQuad f (i / 8) (i % 8)) (fun x => x.platform y)) s

/-! ### Routes at a change of map (12 R301, R302) -/

/-- Every word under way on a route reaches its FIFO. -/
def Route.deliver (r : Route) : Route :=
  { r with
    fifos := r.flight.foldl (fun fs p => assocSet fs p.1 (assocGet [] fs p.1 ++ p.2)) r.fifos
    flight := [] }

/-- A route breaks at a hop: the words under way on the segment that passes it are lost. -/
def Route.breakAt (r : Route) (h : Nat) : Route :=
  let seg := ((List.range (r.last + 1)).find? (fun i => decide (0 < i ∧ h < r.hop i))).getD r.last
  { r with
    broken := true
    lost := assocSet r.lost seg (assocGet 0 r.lost seg + (assocGet [] r.flight seg).length)
    flight := assocErase r.flight seg }

/-- The enabled routes for which `p` gives a hop break there: static routes take no detour. -/
def State.breakRoutes (s : State) (p : Lease → Route → Option Nat) : State :=
  { s with tenants := s.tenants.map (fun t => (t.1, match s.lease? (keyLease t.1) with
      | none => t.2
      | some l => { t.2 with routes := t.2.routes.map (fun r => (r.1, if r.2.en then (match p l r.2 with
          | some h => r.2.breakAt h
          | none => r.2)
        else r.2)) })) }

/-- The hop by which the path of a route reaches the first of some quads. -/
def Lease.hopInto (l : Lease) (r : Route) (qs : List Nat) : Option Nat :=
  (findIdx (fun (q : Option Nat) => match q with
    | some x => isIn qs x
    | none => false) (l.pathQuads r)).map (· - 1)

/-! ### Dead engines at a change of map (10 R250) -/

/-- Whether the engine of a quad can run commands. -/
def State.engineUsable (s : State) (q : Nat) : Bool := (s.quad q).eng == 0 && !s.voidQuad q

/-- A dead engine's commands go to the next quad of its row, or to the one before it at the last column; GUEST shows on
the engines that serve others. -/
def State.fixEngines (s : State) : State :=
  let dead := (s.quads.filter (fun q => q.2.eng != 0 && !s.voidQuad q.1)).map (·.1)
  let s : State := { s with quads := s.quads.map (fun q => (q.1, { q.2 with
    guest := false, eng := if isIn dead q.1 then (if q.1 % 96 = 95 then 2 else 1) else 0 })) }
  dead.foldl (fun s q => s.onQuad (s.engineOf q) (fun x => { x with guest := true })) s

/-- A new map of a field is installed inside a quiesce of what it touches (19 R360). Words under way on routes arrive first,
and routes through a new void position break (12 R301, R302; log entry 92). A gated quad that comes to hold teams powers on
(04 R81). The lease's save time is recomputed, a value that no rule gives (19 R359). -/
def State.installMap (s : State) (f : Nat) (x : Field) : State :=
  let old := (assocGet {} s.fields f).map
  let changed := ((List.range 64).filter (fun i => old.getD i 0 != x.map.getD i 0)).map (fun i => fieldQuad f (i / 8) (i % 8))
  let voids := changed.filter (fun q => x.map.getD (q / 96 % 8 * 8 + q % 96 % 8) 0 == 0)
  let ls := s.leasesOver changed
  let pairs := ls.flatMap (fun l => (s.tenantsOver l changed).map (fun n => (l, n, s.tenantFields l n)))
  let s : State := pairs.foldl (fun s p => (s.settlePart (tkey p.1 p.2.1)).onTenant (tkey p.1 p.2.1) (fun t =>
    { t with routes := t.routes.map (fun r => (r.1, r.2.deliver)) })) s
  let s : State := ls.foldl (fun s l => s.settlePart (tkey l 16)) s
  let s : State := State.movePlatform { s with fields := assocSet s.fields f x } f old x.map
  let s : State := pairs.foldl (fun s p => s.moveOff (.tenant p.1 p.2.1) (tkey p.1 p.2.1) voids) s
  let s : State := ls.foldl (fun s l => s.moveOff (.lsq l) (tkey l 16) voids) s
  let s : State := (changed.filter (fun q => s.teams.any (fun t => t.2.placed && quadOfCore t.2.core == q))).foldl
    State.powerOn s
  let s : State := voids.foldl State.dropQuadCaches s
  let s : State := ls.foldl (fun s l =>
    let s : State := s.bumpMap l
    match s.lease? l with
    | some y => s.setLease l { y with save := Config.freeFigure 3 (16 * s.tick + l) % 181 }
    | none => s) s
  let s : State := pairs.foldl (fun s p => s.homesMoved p.1 p.2.1 p.2.2 (s.tenantFields p.1 p.2.1)) s
  (s.breakRoutes (fun l r => l.hopInto r voids)).fixEngines

/-- The maps of all fields. -/
def State.maps (s : State) : List (Nat × List Nat) := s.fields.map (fun f => (f.1, f.2.map))

/-- The next usable quad of a physical row after one of its quads. -/
def nextInRow (dead : List Nat) (p : Nat) : Option Nat :=
  ((List.range 9).find? (fun c => decide (p % 9 < c) && !defective dead (p / 9) c)).map (fun c => 9 * (p / 9) + c)

/-- A repair in the row (04 R66): the positions from one to its row's end name the next usable quads of the row; none when
the row has no spare left. -/
def repairInRow (dead map : List Nat) (i : Nat) : Option (List Nat) :=
  (map.zipIdx).mapM (fun v =>
    if v.1 = 0 ∨ v.2 / 8 ≠ i / 8 ∨ v.2 < i then some v.1 else (nextInRow dead (v.1 - 1)).map (· + 1))

/-- The next physical row that has eight usable quads. -/
def nextRow (dead : List Nat) (r : Nat) : Option Nat :=
  (List.range 9).find? (fun x => decide (r < x ∧ 8 ≤ (goodCols dead x).length))

/-- A repair by row (04 R66): the positions from a row to the field's end name the next usable physical rows; none when
there is no row left. -/
def repairByRow (dead map : List Nat) (i : Nat) : Option (List Nat) :=
  ((map.zipIdx).mapM (fun v =>
    if v.1 = 0 ∨ v.2 / 8 < i / 8 then some v.1
    else (nextRow dead ((v.1 - 1) / 9)).bind (fun r => ((goodCols dead r)[v.2 % 8]?).map (fun c => 9 * r + c + 1)))).filter
    (fun m => decide ((m.filter (· != 0)).Nodup))

/-- Whether the positions of a field keep the bounds under a map. -/
def State.mapBounds (s : State) (f : Nat) (m : List Nat) : Bool :=
  let maps := assocSet s.maps f m
  (List.range 64).all (fun i => boundsAt maps (fieldQuad f (i / 8) (i % 8)))

/-- A physical quad fails after shipment: a repair in its row while that has a spare, else a repair by row, either where
04 R65 holds, else a void position (04 R66). A quad that no position names changes no map. A position that is void stays
void at every later change: the manual does not say whether a repair may give it a quad again (DESIGN CHOICE, log
entry 97). -/
def State.retireQuad (s : State) (f p : Nat) : State :=
  let x : Field := assocGet {} s.fields f
  if isIn x.defects p || isIn x.voided p then s
  else
    match findIdx (· == p + 1) x.map with
    | none => { s with fields := assocSet s.fields f { x with defects := p :: x.defects } }
    | some i =>
      let dead := p :: (x.defects ++ x.voided)
      let repaired := match repairInRow dead x.map i with
        | some m => some m
        | none => repairByRow dead x.map i
      match repaired.filter (s.mapBounds f) with
      | some m => s.installMap f { x with map := m, defects := p :: x.defects }
      | none => s.installMap f { x with map := x.map.set i 0, voided := p :: x.voided }

/-- A quad with a dead engine whose neighbour can run no commands (10 R250), if there is one. -/
def State.orphan (s : State) : Option Nat :=
  (s.quads.find? (fun q => q.2.eng != 0 && !s.voidQuad q.1 && !s.engineUsable (s.engineOf q.1))).map (·.1)

/-- Such quads are retired, one after the other: at most n. -/
def State.retireOrphans (s : State) : Nat → State
  | 0 => s
  | n + 1 =>
    match s.orphan with
    | none => s
    | some q => (s.retireQuad (fieldOfQuad q) (mapAt s.maps q - 1)).retireOrphans n

/-- A state as one change of map leaves it, however many quads it retired: the generation of a lease increments once, and
the teams that lost their core without finding another are halted, with one entry for each tenant (19 R361). -/
def State.oneChange (s u : State) : State :=
  let u : State := { u with leases := u.leases.map (fun l => match s.lease? l.1 with
      | some y => if y.mapgen = l.2.mapgen then l else (l.1, { l.2 with mapgen := nextGeneration y.mapgen })
      | none => l) }
  let lost := (s.teams.filter (fun t => t.2.placed && (u.team? t.1).any (fun x => !x.placed))).map (fun t =>
    (t.1, t.2.lease, t.2.tenant))
  (lost.map (·.2)).dedup.foldl (fun u p => u.haltUnplaced p.1 p.2 (tkey p.1 (p.2.getD 16))
    ((lost.filter (fun t => t.2 == p)).map (·.1))) u

/-! ### The quiesce of a change of map (19 R360, R361) -/

/-- The change that the failed quads make, with those that their engines served. -/
def State.retireFailed (s : State) : State :=
  s.oneChange ((s.failing.foldl (fun s v => s.retireQuad (v / 81) (v % 81)) s).retireOrphans 5376)

/-- The logical quads whose place the change alters. -/
def State.changing (s : State) : List Nat :=
  s.retireFailed.fields.flatMap (fun x =>
    let old := (assocGet {} s.fields x.1).map
    ((List.range 64).filter (fun i => old.getD i 0 != x.2.map.getD i 0)).map (fun i => fieldQuad x.1 (i / 8) (i % 8)))

/-- The tenants of a lease whose cores, homes or routes a change of some quads touches. -/
def State.touches (s : State) (qs : List Nat) (l : Nat × Lease) : List Nat :=
  (s.tenantNumbers l.1).filter (fun n =>
    let t := s.tenantOf (tkey l.1 n)
    decide (2 ≤ t.state) && (qs.any (isIn (s.tenantQuads l.1 n)) ||
      t.routes.any (fun r => r.2.en && (l.2.pathQuads r.2).any (fun q => q.any (isIn qs)))))

/-- The tenants that the change touches, with their leases. -/
def State.touched (s : State) : List (Nat × Nat) :=
  let qs := s.changing
  s.leases.flatMap (fun l => (s.touches qs l).map (fun n => (l.1, n)))

/-- The hard stop of a quiesce: every tenant in state 3 that it touches, and the service code of the leases over it. -/
def State.quiesceStop (s : State) : State :=
  let ls := s.leasesOver s.changing
  let s : State := s.touched.foldl (fun s p => s.onTenant (tkey p.1 p.2) (fun t =>
    if t.state = 3 then { t with state := 4, ladder := some { t0 := s.now, hard := some s.now, owner := true } } else t)) s
  { s with leases := s.leases.map (fun l => (l.1, if isIn ls l.1 then { l.2 with quiet := true } else l.2)) }

/-- Whether something that the change touches still runs. -/
def State.quiesceWants (s : State) : Bool :=
  s.touched.any (fun p => (s.tenantOf (tkey p.1 p.2)).state == 3) ||
    (s.leasesOver s.changing).any (fun l => (s.lease? l).any (fun y => !y.quiet))

/-- Whether everything has stopped: every class of the tenants that the quiesce stops has acknowledged, a pre-emption under
way has ended, and no access of service code is under way. -/
def State.quiesceReady (s : State) : Bool :=
  !s.quiesceWants && s.touched.all (fun p =>
    let t := s.tenantOf (tkey p.1 p.2)
    t.state != 4 || t.ladder.any (fun l => l.owner && (List.range 6).all (isIn l.acks))) &&
  (s.leasesOver s.changing).all (fun l => s.accesses.all (fun a => a.2.ten != tkey l 16))

/-- A tenant goes on after a quiesce: the answers that came meanwhile are applied, and the views of its teams are raised to
their floors (19 R360 step 5, R361). -/
def State.goOnAfter (s : State) (lease n : Nat) : State :=
  let part := tkey lease n
  let t := s.tenantOf part
  if t.ladder.any (·.owner) then
    let s : State := s.onTenant part (fun t => { t with state := 3, ladder := none, answers := [] })
    let s : State := t.answers.foldl (fun s a => s.answerHw a.1 a.2.1 a.2.2) s
    (s.partGangs part).foldl (fun s i => match s.gang? i with
      | some g => s.raiseViews part g.core g.floors
      | none => s) s
  else s

/-- The change is made, and what was stopped goes on. -/
def State.quiesceEnd (s : State) : State :=
  let ts := s.touched
  let s : State := (s.leasesOver s.changing).foldl (fun s l => s.stopLanes (tkey l 16)) s
  let u := s.retireFailed
  ts.foldl (fun s p => s.goOnAfter p.1 p.2)
    { u with failing := [], leases := u.leases.map (fun l => (l.1, { l.2 with quiet := false })) }

/-- A physical quad has failed: a quiesce begins, or the failure joins the one that has begun (19 R361). -/
def State.failQuad (s : State) (f p : Nat) : State :=
  let x : Field := assocGet {} s.fields f
  if isIn x.defects p || isIn x.voided p then s
  else State.quiesceStop { s with failing := addIn s.failing (81 * f + p) }

/-- QUAD_FAILURE (R66). -/
def execQuadFailure (field prow pcol : Nat) (s : State) : Host.Outcome State Fault Refusal :=
  .next (if field < 84 ∧ prow < 9 ∧ pcol < 9 then s.failQuad field (9 * prow + pcol) else s)

/-- BYPASS_FAILURE (R80): owner firmware retires the quad, a change of map under 04 R66. -/
def execBypassFailure (quad : Nat) (s : State) : Host.Outcome State Fault Refusal :=
  .next (
    let p := mapAt s.maps quad
    if p = 0 then s else s.failQuad (fieldOfQuad quad) (p - 1))

/-- ENGINE_DEAD (R250): the commands of the quad go to the next quad of its row, or to the one before it at the last
column; GUEST shows on the engine that serves them. A quad whose neighbour there is void or dead is retired, and so is one
that this engine served (log entry 92). -/
def execEngineDead (quad : Nat) (s : State) : Host.Outcome State Fault Refusal :=
  .next (
    let west := decide (quad % 96 = 95)
    let s : State := (s.onQuad quad (fun q => { q with eng := if west then 2 else 1 })).onQuad
      (if west then quad - 1 else quad + 1) (fun q => { q with guest := true })
    match s.orphan with
    | none => s
    | some q => s.failQuad (fieldOfQuad q) (mapAt s.maps q - 1))

/-- The entry of the latency matrix from quad i to quad j (04 R69). -/
def State.latEntry (s : State) (l : Lease) (ns : List Nat) (i j : Nat) : Nat :=
  if s.voidQuad (l.quadNo i) || s.voidQuad (l.quadNo j) then 0xFFFF
  else if i = j then 0
  else min 0xFFFE (ns.getD (i * (l.rows * l.cols) + j) (Config.freeFigure 1 (s.tick + i * 8192 + j) % 0xFFFF))

/-- The end of a sweep: GEN is written as a release at partition scope of every partition of the lease, and fires the
monitors of its line (04 R70). -/
def State.latRelease (s : State) (lease : Nat) (l : Lease) : State :=
  match extentAddr l.extents l.latmat with
  | none => s
  | some w =>
    let pubs : List Sync := (List.range 17).map (fun n => ⟨[], 2, 0, 0, lease, tkey lease n⟩)
    State.fireMonitors { s with syncs := syncWrite s.syncs (w / 4) false pubs } (lineOf w)

/-- LATMAT_SWEEP (R70): owner firmware measures every entry, row by row, and writes GEN last. -/
def execLatmatSweep (lease : Nat) (ns : List Nat) (s : State) : Host.Outcome State Fault Refusal :=
  .next (match s.lease? lease with
    | none => s
    | some l =>
      let q := l.rows * l.cols
      let s : State := s.latWrite lease 4 (leBytes 4 q ++ leBytes 2 l.rows ++ leBytes 2 l.cols ++ leBytes 4 0)
      let s : State := (List.range q).foldl (fun s i => s.latWrite lease (0x10 + 2 * i * q)
        ((List.range q).flatMap (fun j => leBytes 2 (s.latEntry l ns i j)))) s
      ((s.latWrite lease 0 (leBytes 4 l.mapgen)).latRelease lease l).setLease lease { l with latGen := l.mapgen })

/-! ### Power (04 R67, R79, R81) -/

/-- TRIM_FAILURE (R79): the quad is bypassed to its field rail, with TRIM and a non-zero CAP. -/
def execTrimFailure (quad cap : Nat) (s : State) : Host.Outcome State Fault Refusal :=
  .next (s.rebase quad (fun q => { q with trim := true, cap := max 1 (cap % 4) }))

/-- CAP_RAISE (R372). -/
def execCapRaise (quad cap : Nat) (s : State) : Host.Outcome State Fault Refusal :=
  .next (s.rebase quad (fun q => { q with cap := max q.cap (cap % 4) }))

/-- POWER_WAIT_EXPIRE (R81): the neighbours are at or below their limits, or 200 µs have passed. -/
def execPowerWaitExpire (quad : Nat) (s : State) : Host.Outcome State Fault Refusal :=
  .next (s.onQuad quad (fun q => if q.pwr = 1 then { q with pwr := 2 } else q))

/-- QUAD_POWER_READY (R81). -/
def execQuadPowerReady (quad : Nat) (s : State) : Host.Outcome State Fault Refusal :=
  .next (s.onQuad quad (fun q => if q.pwr = 2 then { q with pwr := 3 } else q))

/-- Whether owner firmware may gate a quad: it has held no team and no saved context for 1 ms. -/
def State.mayGate (s : State) (quad : Nat) : Bool :=
  (s.quad quad).pwr == 3 && !s.quadBusy quad && decide ((s.quad quad).idleSince + 850000 ≤ s.now)

/-- QUAD_GATE (R81). -/
def execQuadGate (quad : Nat) (s : State) : Host.Outcome State Fault Refusal :=
  .next (if s.mayGate quad then s.onQuad quad (fun q => { q with pwr := 0 }) else s)

/-! ### Leases (19 R359, R369) -/

/-- Whether owner firmware accepts the extents of a lease (08 R168, R180). -/
def extentsOk (ex : List (Nat × Nat)) : Bool :=
  decide (ex.length ≤ 16) && ex.all (fun e => decide (e.1 % 2 ^ 16 = 0 ∧ e.1 + e.2 * 2 ^ 16 ≤ 84 * 2 ^ 35))

/-- LEASE_CREATION (R359): the header, the extents, the function, the vector and the peer links as owner firmware states
them. A lease with an extent that it refuses is not created. -/
def execLeaseCreation (lease : Nat) (spec : LeaseSpec) (s : State) : Host.Outcome State Fault Refusal :=
  .next (if (s.lease? lease).isSome ∨ 16 ≤ lease ∨ !extentsOk spec.extents then s
    else
      let l : Lease :=
        { createdAt := s.now, rows := spec.rows, cols := spec.cols, row0 := spec.row0, col0 := spec.col0,
          qbase := spec.qbase, qcnt := spec.qcnt, extents := spec.extents, save := spec.save, latmat := spec.latmat,
          tvec := spec.tvec, port := spec.port, vfn := spec.vfn, peers := spec.peers }
      State.setLease { s with
        tenants := assocErase s.tenants (tkey lease 16)
        peerLinks := spec.peers.foldl (fun ps p =>
          if ((assocGet {} ps p.1).lease).isSome then ps
          else assocSet ps p.1 { lease := some lease, tenant := p.2 }) s.peerLinks } lease l)

/-! ### Fabric links (19 R371) -/

/-- The leases whose rectangle holds the quad that a link leaves. -/
def State.linkLeases (s : State) (link : Nat) : List Nat := s.leasesOver [link / 4]

/-- A lease health word counts for every lease of a link. -/
def State.linkHealth (s : State) (link j : Nat) : State :=
  (s.linkLeases link).foldl (fun s l => match s.lease? l with
    | some x => s.setLease l (x.countHealth j 1)
    | none => s) s

/-- The hop by which the path of a route passes a link, in either direction. -/
def Lease.hopOver (l : Lease) (r : Route) (link : Nat) : Option Nat :=
  let ps := l.pathQuads r
  (List.range r.nhops).find? (fun h => (ps.getD h none).any (fun q =>
    linkNo q (r.dir h) == link || linkBack (linkNo q (r.dir h)) == some link))

/-- The partitions that hold the quad which a link leaves, the lease service code among them. -/
def State.linkParts (s : State) (link : Nat) : List Nat :=
  (s.linkLeases link).flatMap (fun l => tkey l 16 :: (s.tenantsOver l [link / 4]).map (tkey l))

/-- The first live link of a link's sender from which its packets still reach the far end over the quads of a partition that
holds the sender. -/
def State.detour (s : State) (link : Nat) : Option Nat :=
  (List.range 4).find? (fun d => match besideQuad (link / 4) d, besideQuad (link / 4) (link % 4) with
    | some n, some m => !s.linkDead (linkNo (link / 4) d) && (s.linkParts link).any (fun p => s.connected p n m)
    | _, _ => false) |>.map (linkNo (link / 4))

/-- The packets in the retry buffer of a dead link are replayed whole over a detour, or are lost without one (19 R371). -/
def State.reroute (s : State) (link : Nat) : State :=
  let x : Link := assocGet {} s.links link
  if x.sent.isEmpty then s
  else
    let s : State := { s with links := assocSet s.links link { x with sent := [] } }
    match s.detour link with
    | none => s
    | some d =>
      let y : Link := assocGet {} s.links d
      { s with links := assocSet s.links d { y with sent := y.sent ++ x.sent }
               outbox := s.outbox ++ x.sent.map (.replay d) }

/-- A link is dead, for both of its ends: an entry to the owner, the health words, its packets, and the routes that pass it. -/
def State.killLink (s : State) (link : Nat) : State :=
  if s.linkDead link then s
  else
    let s : State := { s with links := assocSet s.links link { assocGet {} s.links link with dead := true } }
    let s : State := s.reroute link
    let s : State := match linkBack link with
      | some k => s.reroute k
      | none => s
    let s : State := s.post .owner (s.errorEntry (4 * (link / 4)) 0x19)
    (s.linkHealth link 3).breakRoutes (fun l r => l.hopOver r link)

/-- FLIT_ACK (R371): the packet leaves the retry buffer of its sender. -/
def execFlitAck (link packet : Nat) (s : State) : Host.Outcome State Fault Refusal :=
  .next (if s.linkDead link then s
    else
      let x : Link := assocGet {} s.links link
      { s with links := assocSet s.links link { x with sent := x.sent.filter (· != packet), fails := 0 } })

/-- FLIT_REPLAY (R371): a flit of the oldest packet that is not acknowledged failed its CRC and is replayed; the eighth
failure in a row kills the link. A packet that carries none of the model's accesses (an answer, a walk, an update) comes to
stand in the retry buffer with its first failure, under a new number (log entry 103). -/
def execFlitReplay (link : Nat) (s : State) : Host.Outcome State Fault Refusal :=
  .next (if s.linkDead link then s
    else
      let x : Link := assocGet {} s.links link
      let p := x.sent.headD s.nextId
      let s : State := { s with
        nextId := s.nextId + 1
        links := assocSet s.links link { x with fails := x.fails + 1, sent := p :: x.sent.tail }
        outbox := s.outbox ++ [.replay link p] }
      let s : State := s.linkHealth link 2
      if 8 ≤ x.fails + 1 then s.killLink link else s)

/-- LOSS_OF_LOCK (R371). -/
def execLossOfLock (link : Nat) (s : State) : Host.Outcome State Fault Refusal := .next (s.killLink link)

/-- PACKET_TAG_DROP (R363): a packet whose tag is not that of the partition at the port's destination is dropped and counted.
Every access carries its partition (`Access.ten`), and with it the tag. The sender of the lost packet, a free choice among the
links of the lease that have one, replays it (R371; log entry 103). -/
def execPacketTagDrop (lease : Nat) (s : State) : Host.Outcome State Fault Refusal :=
  .next (match s.lease? lease with
    | some l =>
      let ks := s.links.filter (fun k => isIn l.quads (k.1 / 4) && !k.2.sent.isEmpty)
      let s : State := s.setLease lease (l.countHealth 4 1)
      match ks[s.pick 31 (max 1 ks.length)]? with
      | some (k, x) => { s with outbox := s.outbox ++ [.replay k (x.sent.headD 0)] }
      | none => s
    | none => s)

/-! ### Peer links (10 R235, 19 R369, R370) -/

/-- PEER_LINK_LOST (R235): the copies that use the link stop. -/
def execPeerLinkLost (link : Nat) (s : State) : Host.Outcome State Fault Refusal :=
  .next (
    let s : State := { s with peerLinks := assocSet s.peerLinks link { assocGet {} s.peerLinks link with down := true } }
    s.quads.foldl (fun s q => q.2.copies.foldl (fun s c =>
      match c.2.remote with
      | some x =>
        if x.peer = link ∧ c.2.stopped.isNone then s.peerStop q.1 c.1 c.2 x 0x19 else s
      | none => s) s) s)

/-- The access of a peer: it is translated by the stage 2 and extents of the receiving tenant, to kind-0 pages. -/
def State.peerXlat (s : State) (link addr n : Nat) (write : Bool) : Option Ctx :=
  match assocGet? s.peerLinks link with
  | none => none
  | some p =>
    match p.lease with
    | none => none
    | some l =>
      let c : Ctx := ⟨l, some p.tenant, 2, 21504, true⟩
      let ok := (pageParts addr n).all (fun q => match s.translate c q.1 (if write then 1 else 0) false with
        | .ok x => x.kind == 0
        | .error _ => false)
      if n ≠ 0 ∧ ok then some c else none

/-- PEER_ACCESS_RECEIVE (R370): a read or a write of so many bytes from another wafer, or a refusal. -/
def execPeerAccessReceive (link : Nat) (write : Bool) (addr : Nat) (data : List Nat) (s : State) :
    Host.Outcome State Fault Refusal :=
  .next (match s.peerXlat link addr data.length write with
    | none => { s with outbox := s.outbox ++ [.peerRefused link] }
    | some c =>
      if write then (s.hwStore c addr (data.map (BitVec.ofNat 8)) 1).1
      else
        match s.hwLoad c addr data.length 0 with
        | (s, .ok bs) => { s with outbox := s.outbox ++ [.peer link false addr bs 0] }
        | (s, .error _) => { s with outbox := s.outbox ++ [.peerRefused link] })

/-! ### Attestation (03 R52; 19 R366 to R368) -/

/-- The configuration of a lease: what its header holds apart from MAPGEN, and the shape words of its tenants. -/
def State.leaseConfig (s : State) (lease : Nat) : List Nat :=
  match s.lease? lease with
  | none => []
  | some l =>
    [l.rows, l.cols, l.row0, l.col0, l.qbase, l.qcnt, l.tvec, l.port, l.vfn, l.extents.length] ++
      l.extents.flatMap (fun e => [e.1, e.2]) ++ (List.range 16).flatMap (fun n =>
        let t := (s.tenantOf (tkey lease n)).shown
        [0x04, 0x08, 0x0C, 0x10, 0x14, 0x18, 0x1C, 0x20, 0x24, 0x28, 0x2C, 0x30, 0x34, 0x38, 0x3C, 0x40, 0x60].map t.descWord)

/-- A digest of 64 bytes, as sixteen words that the manual gives no value for; that of a lease's configuration depends on all of
it (19 R366; log entry 71). -/
def State.digest (s : State) (i lease : Nat) : List Nat :=
  let of := if i = 3 then (s.leaseConfig lease).foldl (fun n w => n * 2 ^ 64 + w % 2 ^ 64) (lease + 1) else 0
  (List.range 16).map (fun j => Config.freeFigure (16 + i) (16 * of + j) % 2 ^ 32)

/-- The XMSS signature of an answer, which the manual gives no value for (19 R366; log entry 71). -/
def State.signature (s : State) (port : Nat) : List Nat :=
  (List.range 8).map (fun j => Config.freeFigure (32 + port) (8 * s.tick + j) % 2 ^ 32)

/-- The words of an address or size. -/
def dwordWords (x : Nat) : List Nat := [x % 2 ^ 32, x / 2 ^ 32 % 2 ^ 32]

/-- The shape report of a tenant (19 R367), as 136 words, with the rectangles and the extent that its descriptor reads. -/
def State.shapeReport (s : State) (lease n : Nat) : List Nat :=
  let t := (s.tenantOf (tkey lease n)).shown
  match s.lease? lease with
  | none => []
  | some l =>
    let fields := s.tenantFields lease n
    let word := fun (i : Nat) => sumBy (fun b => if isIn fields (32 * i + b) then 2 ^ b else 0) (List.range 32)
    [1, t.tag.getD 0 * 2 ^ 8 + lease * 2 ^ 4 + n, t.pgen, l.mapgen, l.col0 * 2 ^ 16 + l.row0, 0, 0, 0] ++
      (List.range 8).map (fun i => t.rects.getD i 0) ++ (List.range 4).map word ++
      dwordWords t.membase ++ dwordWords t.memsize ++
      (List.range 16).flatMap (fun i => match l.extents[i]? with
        | some e => dwordWords e.1 ++ dwordWords (e.2 * 65536)
        | none => [0, 0, 0, 0]) ++
      s.digest 1 lease ++ s.digest 2 lease ++ s.digest 3 lease

/-- SPDM_GET_MEASUREMENTS (R366): an index that is not listed returns nothing. -/
def execSpdmGetMeasurements (port vfn index : Nat) (s : State) : Host.Outcome State Fault Refusal :=
  .next (
    let lease := match s.functionOf port vfn with
      | some (.tenant l _) => l
      | some (.lsq l) => l
      | none => 16
    let answer : Option (List Nat) := if 1 ≤ index ∧ index ≤ 3 then some (s.digest index lease)
      else if index = 0x40 then
        match s.functionOf port vfn with
        | some (.tenant l n) => some (s.shapeReport l n)
        | _ => none
      else none
    match answer with
    | some ws => { s with outbox := s.outbox ++ [.spdm port vfn ws (s.signature port)] }
    | none => s)

/-- The interface state of a function. -/
def State.tdispOf (s : State) (port vfn : Nat) : Nat := (assocGet {} s.fns (port * 128 + vfn)).tdisp

/-- A TDISP request ends with success and a new interface state, or fails. -/
def State.tdispAnswer (s : State) (port vfn : Nat) (ok : Bool) (new : Nat) : State :=
  let s : State := { s with outbox := s.outbox ++ [.tdisp port vfn ok] }
  if ok then { s with fns := assocSet s.fns (port * 128 + vfn) { tdisp := new } } else s

/-- TDISP_LOCK_INTERFACE (R368): only in states 2 to 5 of the function's tenant, from the unlocked state. -/
def execTdispLockInterface (port vfn : Nat) (s : State) : Host.Outcome State Fault Refusal :=
  .next (
    let ok := match s.functionOf port vfn with
      | some (.tenant l n) => decide (2 ≤ (s.tenantOf (tkey l n)).state ∧ (s.tenantOf (tkey l n)).state ≤ 5) &&
          s.tdispOf port vfn == 0
      | _ => false
    s.tdispAnswer port vfn ok 1)

/-- TDISP_START_INTERFACE (R52): a locked interface goes to RUN. -/
def execTdispStartInterface (port vfn : Nat) (s : State) : Host.Outcome State Fault Refusal :=
  .next (s.tdispAnswer port vfn (s.tdispOf port vfn == 1) 2)

/-! ### Health (19 R373, R374) -/

/-- The tenant that holds a quad and its a-cycle count, or the lease's count when none does (00 R4). Of several time-sliced
tenants that share the quad it is the one that runs, else the one of lowest number: the manual does not say (DESIGN
CHOICE, log entry 97). -/
def State.quadClock (s : State) (quad : Nat) : Option Nat × Nat :=
  let held := s.leases.findSome? (fun l => if isIn l.2.quads quad then
      (s.xtenFor (.lsq l.1) (4 * quad)).map (fun n => (l.1, n))
    else none)
  match held with
  | some (l, n) => (some n, s.now - (s.tenantOf (tkey l n)).startAt.getD s.now)
  | none => (none, s.now - ((s.leases.find? (fun l => isIn l.2.quads quad)).map (·.2.createdAt)).getD 0)

/-- The bytes of the 8-byte unit of an offset added to a list of errors. -/
def errUnit (es : List Nat) (o : Nat) : List Nat := (List.range 8).foldl (fun es j => addIn es (o / 8 * 8 + j)) es

/-- The check of a line in an L1 fails (19 R365): a machine error. A copy goes, so that no lane gets its value; a pinned line
has no other copy, and the team that holds it halts. -/
def State.l1Failure (s : State) (core line : Nat) : State :=
  match assocGet? (s.core core).pins line with
  | some p => s.laneError core p.team
  | none =>
    if (assocGet? (s.core core).l1 line).isSome then
      (s.machineError core).onCore core (fun c => { c with l1 := assocErase c.l1 line })
    else s

/-- The check of a line in L2 fails (19 R365): a machine error. Bytes that its DRAM lacks are lost, and the line is
uncorrectable; else the line leaves L2. -/
def State.l2Failure (s : State) (line : Nat) : State :=
  match assocGet? s.l2 line with
  | none => s
  | some x =>
    if x.dirty then { s with badLines := addIn s.badLines line }
    else (s.machineError (4 * (s.homeQuad x.home).getD 0)).leaveL2 line

/-- An error comes about in a quad (08 R173, 10 R248, 19 R365): of kind u % 16, at the place u / 16 (log entry 91). -/
def State.upset (s : State) (quad u : Nat) : State :=
  let i := u / 16
  match u % 16 with
  | 0 => s.machineError (4 * quad + i % 4)
  | 1 => s.onArray quad (i % 2) (fun a => { a with upset := true })
  | 2 => s.onArray quad (i % 2) (fun a => { a with faulty := true })
  | 3 => s.countAt quad 0
  | 4 => s.onCore (4 * quad + i % 4) (fun c => { c with aErr := errUnit c.aErr (i / 4 % 2 ^ 19) })
  | 5 => s.onCore (4 * quad + i % 4) (fun c => { c with wErr := errUnit c.wErr (i / 4 % (192 * 4096)) })
  | 6 => s.onArray quad (i % 2) (fun a => { a with cErr := errUnit a.cErr (i / 2 % 2 ^ 18) })
  | 7 => { s with badLines := addIn s.badLines i }
  | 8 => s.l1Failure (4 * quad + i % 4) (i / 4)
  | 9 => s.l2Failure i
  | _ => s

/-- VOLTAGE_SAMPLE (R373): a voltage below the record replaces it. A sample beyond the 16 bits of the record brings an
error about instead (log entry 91). -/
def execVoltageSample (quad mv : Nat) (s : State) : Host.Outcome State Fault Refusal :=
  .next (
    if 2 ^ 16 ≤ mv then s.upset quad (mv / 2 ^ 16)
    else
    let (ten, clk) := s.quadClock quad
    s.onQuad quad (fun q =>
      if mv < q.vmin then { q with vmin := mv, vtime := clk, vten := ten.getD 0, noten := ten.isNone } else q))

/-- VMIN_RESET (R373): a write by the lease. -/
def execVminReset (quad : Nat) (s : State) : Host.Outcome State Fault Refusal := .next (s.onQuad quad Quad.resetVoltage)

/-- POWER_SAMPLE (R374): the module power and the hottest quad, every 1 ms. -/
def execPowerSample (watts decidegrees : Nat) (s : State) : Host.Outcome State Fault Refusal :=
  .next { s with leases := s.leases.map (fun l =>
    (l.1, { l.2 with health := assocSet (assocSet l.2.health 6 watts) 7 decidegrees })) }

end Sys2Proof.Machine
end

