-- ==== Sys2Proof/Machine/System.lean ====
section
/-! DEFINITION. The system words of major 0x74: system registers, the configuration space, translation invalidation,
the return from a trap, the registers of other lanes, and halts (17 R326 to R333). -/
namespace Sys2Proof.Machine

/-! ### System registers -/

/-- The frame in which a lane stands. -/
def Gang.frameOf (g : Gang) (l : Nat) : Option (Nat × Frame) :=
  match (g.lane l).frame with
  | none => none
  | some f => (assocGet? g.frames f).map (fun x => (f, x))

/-- The 64 bits in which a counter is stored (05 R87). -/
def Pc.word (p : Pc) : Nat := p.idx * 2 ^ 48 + p.addr

/-- The eight words of a store-fault record (17 R334). -/
def SfRec.words (r : SfRec) : List Nat :=
  [r.rep * 2 ^ 26 + r.widx * 2 ^ 22 + r.kind * 2 ^ 19 + r.slot * 2 ^ 14 + r.lane * 2 ^ 8 + r.cause,
    r.size * 2 ^ 16 + r.synd, r.clause % 2 ^ 32, r.clause / 2 ^ 32, r.addr % 2 ^ 32, r.addr / 2 ^ 32, r.value % 2 ^ 32,
    r.value / 2 ^ 32]

/-- The records that a frame holds for its lanes, oldest first (17 R326, R329). -/
def State.frameRecords (s : State) (core fid : Nat) (m : Mask) : List SfRec :=
  (s.core core).sfq.filter (fun r => r.held == some fid && m.getLsbD r.lane)

/-- RACEFLAGS of a partition (11 R273). -/
def Tenant.raceflags (t : Tenant) : Nat :=
  t.drops * 2 ^ 16 + ofBool t.moved * 2 ^ 3 + ofBool t.seen * 2 + ofBool t.incomplete

/-- A write of RACEFLAGS: ones clear. -/
def Tenant.setRaceflags (t : Tenant) (v : Nat) : Tenant :=
  { t with moved := t.moved && !bit v 3, seen := t.seen && !bit v 1, incomplete := t.incomplete && !bit v 0,
           drops := if bit v 0 then 0 else t.drops }

/-- HOSTMASK of the lane's level (17 R323). -/
def State.hostmaskOf (s : State) (t : Team) (level : Nat) : Nat :=
  match level, t.xten with
  | 1, some n => (s.tenantOf (tkey t.lease n)).hostmask
  | 2, _ =>
    match s.lease? t.lease with
    | some l => l.hostmask
    | none => 0
  | _, _ => 0

/-- System register n as a lane reads it (17 R326, R327). -/
def State.sysReg (s : State) (a : Acting) (l n : Nat) : Nat :=
  let fr := a.gang.frameOf l
  let f := fun (k : Frame → Nat) => match fr with
    | some x => k x.2
    | none => 0
  let recs := match fr with
    | some x => s.frameRecords a.gang.core x.1 x.2.mask
    | none => []
  match n with
  | 0 => (match fr with
    | some x => 2 ^ 4 + x.2.prev * 2 ^ 2
    | none => 0) + (a.gang.lane l).level
  | 1 => f (fun x => ofBool x.sfr * 2 ^ 8 + x.cause)
  | 2 => f (fun x => x.tpc.word % 2 ^ 32)
  | 3 => f (fun x => x.tpc.word / 2 ^ 32)
  | 4 => f Frame.tword
  | 5 => f (fun x => x.mask.toNat % 2 ^ 32)
  | 6 => f (fun x => x.mask.toNat / 2 ^ 32)
  | 7 => f (fun x => x.taddr % 2 ^ 32)
  | 8 => f (fun x => x.taddr / 2 ^ 32)
  | 9 => f Frame.tinfo
  | 10 => s.vector a.team (a.gang.lane l).level % 2 ^ 32
  | 11 => s.vector a.team (a.gang.lane l).level / 2 ^ 32
  | 12 => recs.length
  | 22 => a.gang.spillBase % 2 ^ 32
  | 23 => a.gang.spillBase / 2 ^ 32
  | 24 => f (fun x => if x.cause = 0x18 then assocGet 0 x.fpstat l else 0)
  | 25 => (s.tenantOf a.team.part).raceflags
  | 26 => f (fun x => x.rep * 2 ^ 8 + ofBool x.skip)
  | 27 =>
    match a.team.tenant with
    | some m => (s.tenantOf (tkey a.team.lease m)).haltcode
    | none => 0
  | 32 => s.hostmaskOf a.team (a.gang.lane l).level
  | _ =>
    if 13 ≤ n ∧ n ≤ 20 then
      match recs with
      | r :: _ => r.words.getD (n - 13) 0
      | [] => 0
    else if 28 ≤ n ∧ n ≤ 31 then f (fun x => (assocGet 0 x.kscr (4 * l + (n - 28))).toNat)
    else 0

/-- A vector with one half replaced; [1:0] and [63:48] are written as zero. -/
def vectorHalf (old v : Nat) (high : Bool) : Nat :=
  if high then v % 2 ^ 16 * 2 ^ 32 + old % 2 ^ 32 else old / 2 ^ 32 * 2 ^ 32 + v / 4 * 4

/-- A change of the trap vector of a level (17 R325). -/
def State.setVector (s : State) (t : Team) (level v : Nat) (high : Bool) : State :=
  match level with
  | 1 =>
    match t.xten with
    | some n => s.onTenant (tkey t.lease n) (fun x => { x with tvec := vectorHalf x.tvec v high })
    | none => s
  | 2 =>
    match s.lease? t.lease with
    | some l => s.setLease t.lease { l with tvec := vectorHalf l.tvec v high }
    | none => s
  | _ => { s with ownerTvec := vectorHalf s.ownerTvec v high }

def State.setHostmask (s : State) (t : Team) (level v : Nat) : State :=
  match level, t.xten with
  | 1, some n => s.onTenant (tkey t.lease n) (fun x => { x with hostmask := v % 2 ^ 15 })
  | 2, _ =>
    match s.lease? t.lease with
    | some l => s.setLease t.lease { l with hostmask := v % 2 ^ 15 }
    | none => s
  | _, _ => s

/-- Change the frame of a lane. -/
def State.onFrame (s : State) (gid l : Nat) (f : Frame → Frame) : State :=
  s.onGang gid (fun g =>
    match g.frameOf l with
    | some (i, x) => { g with frames := assocSet g.frames i (f x) }
    | none => g)

/-- The oldest record that a frame holds for its lanes leaves the queue. -/
def dropOldest (fid : Nat) (m : Mask) : List SfRec → List SfRec
  | [] => []
  | r :: rs => if r.held = some fid ∧ m.getLsbD r.lane then rs else r :: dropOldest fid m rs

/-- A write of system register n by one lane; SFQPOP is done once for the frame (17 R326). -/
def State.setSysReg (s : State) (a : Acting) (l n v : Nat) : State :=
  let lv := (a.gang.lane l).level
  match n with
  | 2 => s.onFrame a.gid l (fun x => { x with tpc := ⟨x.tpc.addr / 2 ^ 32 * 2 ^ 32 + v, x.tpc.idx⟩ })
  | 3 => s.onFrame a.gid l (fun x => { x with tpc := ⟨v % 2 ^ 16 * 2 ^ 32 + x.tpc.addr % 2 ^ 32, bits v 19 16⟩ })
  | 10 => s.setVector a.team lv v false
  | 11 => s.setVector a.team lv v true
  | 21 =>
    if l = a.leader then
      match a.gang.frameOf l with
      | some (i, x) => s.onCore a.gang.core (fun c => { c with sfq := dropOldest i x.mask c.sfq })
      | none => s
    else s
  | 25 => s.onPart a.team.part (·.setRaceflags v)
  | 26 => s.onFrame a.gid l (fun x => { x with rep := bits v 13 8, skip := bit v 0 })
  | 32 => s.setHostmask a.team lv v
  | _ => if 28 ≤ n ∧ n ≤ 31 then
      s.onFrame a.gid l (fun x => { x with kscr := assocSet x.kscr (4 * l + (n - 28)) (BitVec.ofNat 32 v) })
    else s

/-- A word of major 0x74 that LEVEL 0 may not issue (05 R100). -/
def State.privileged (s : State) (k : Acting → State) : State :=
  s.act fun a => if a.level = 0 then s.trapWord 0x03 else k a

/-- SYSR (R326). -/
def execSysr (d n : Fin 128) (s : State) : Host.Outcome State Fault Refusal :=
  .next (s.privileged fun _ => s.laneValue false d.val (fun a l => BitVec.ofNat 32 (s.sysReg a l n.val)))

/-- SYSW (R326): HOSTMASK has no owner level. -/
def execSysw (a n : Fin 128) (s : State) : Host.Outcome State Fault Refusal :=
  .next (s.privileged fun x =>
    if n.val = 32 ∧ 3 ≤ x.level then s.trapWord 0x03
    else (x.lanes.foldl (fun t l => t.setSysReg x l n.val (s.reg x.gang l a.val).toNat) s.issue).finish)

/-! ### The configuration space -/

/-- The tenant as which a cohort uses the configuration space; the lease at LEVEL 2. -/
def Acting.own (a : Acting) : Option Nat := if a.level = 1 then some (a.team.xten.getD 16) else none

/-- A doubleword of the owner space, whose contents no rule gives (17 R332): a free value. -/
def State.ownerRead (s : State) (off : Nat) : Nat := Config.freeFigure 2 (s.tick * 2 ^ 32 + off) % 2 ^ 64

/-- CFGR (R332); at LEVEL 3 it reads the owner space, a free value (log entry 81). -/
def execCfgr (d a : Fin 128) (s : State) : Host.Outcome State Fault Refusal :=
  .next (s.privileged fun _ => s.laneWord false (fun x l =>
    let off := (s.reg x.gang l a.val).toNat
    if off % 8 ≠ 0 then .trap { cause := 0x04, tinfo := spaceInfo 0 8, taddr := off }
    else
      let v := if x.level = 3 then s.ownerRead off else s.cfgRead x.team.lease x.own off
      .regs [(d.val, BitVec.ofNat 32 v), (d.val + 1, BitVec.ofNat 32 (v / 2 ^ 32))]))

/-- Whether an offset is a queue's APPEND (03 R53). -/
def isAppend (off : Nat) : Bool := off == 0x3018 || (decide (0x100000 ≤ off) && off % 0x40 == 0x18)

/-- The lanes of a cohort that write APPEND: their `cfgw` is a release at partition scope (03 R55). -/
def Acting.appenders (x : Acting) (off : Nat → Nat) : Mask :=
  if x.level = 3 then 0 else maskOf (x.lanes.filter (fun l => isAppend (off l)))

/-- One lane's `cfgw`: a write of APPEND is a release at partition scope (03 R55). At LEVEL 3 the doubleword goes to the owner
space, of which no rule says what a write does: it is shown outside (DESIGN CHOICE, log entry 81). -/
def State.cfgLane (s : State) (x : Acting) (l off v : Nat) : State :=
  if x.level = 3 then { s with outbox := s.outbox ++ [.ownerWrite off v] }
  else if isAppend off then
    let vc := s.leadClock x.gid (maskOf [l])
    let s : State := (s.releaseLanes x.gid (maskOf [l])).2
    (s.releasePins x.gang.team x.gang.core 2 vc).cfgWrite x.team.lease x.own off v vc
  else s.cfgWrite x.team.lease x.own off v []

/-- The writes of a cohort's `cfgw`, lane by lane; lanes with a misaligned offset trap (17 R332). -/
def State.cfgwWord (s : State) (a b : Fin 128) : State :=
  s.act fun x =>
    let off := fun (l : Nat) => (s.reg x.gang l a.val).toNat
    let t : State := x.lanes.foldl (fun t l =>
      if off l % 8 = 0 then t.cfgLane x l (off l) (s.pair x.gang l b.val) else t) s.issue
    (t.trapEach ((x.lanes.filter (fun l => off l % 8 != 0)).map (fun l =>
      (l, { cause := 0x04, tinfo := spaceInfo 0 8, taddr := off l })))).finish

/-- CFGW (R332). It waits at its word for every
earlier access of its lanes, and for the words on a route that it disables; lanes that write APPEND take their store-fault
records first (17 R335). -/
def execCfgw (a b : Fin 128) (s : State) : Host.Outcome State Fault Refusal :=
  .next (s.privileged fun x =>
    let off := fun (l : Nat) => (s.reg x.gang l a.val).toNat
    if s.accessPending x.gid x.co.mask 2 ||
        x.level != 3 && x.lanes.any (fun l => s.cfgWriteWaits x.team.lease x.own (off l) (s.pair x.gang l b.val)) then s
    else
      let due := s.dueLanes x.gid (x.appenders off) true
      (if due = 0 then s else (s.leave due).deliver x.gid due true x.pc x.co.repIdx x.co.word).cfgwWord a b)

/-! ### Translation invalidation -/

/-- The partition whose translations a lane's `tlbi` names (17 R333). -/
def State.tlbiTarget (s : State) (x : Acting) (v : Nat) : Option Nat :=
  if x.level = 1 then some (tkey x.team.lease (x.team.xten.getD 16))
  else if x.level = 2 then some (tkey x.team.lease (v % 16))
  else (s.tenants.find? (fun t => t.2.tag == some (v % 64))).map (·.1)

/-- The size of the page of a combined translation, as a power of two. -/
def Leaves.pageLog (x : Leaves) : Nat :=
  if x.l1 = 0 then Sys2Proof.Machine.pageLog x.l2 else min (Sys2Proof.Machine.pageLog x.l1) (Sys2Proof.Machine.pageLog x.l2)

/-- Whether a form of `tlbi` covers a translation: 0 .va, 1 .ta, 2 .all. -/
def tlbiCovers (form : Nat) (p : Nat) (e : TlbEntry) : Bool :=
  match form with
  | 0 => decide (p < 2 ^ 48) && e.vpage * 2 ^ 16 / 2 ^ e.leaves.pageLog == p / 2 ^ e.leaves.pageLog
  | 1 => e.leaves.ta / 2 ^ pageLog e.leaves.l2 == p / 2 ^ pageLog e.leaves.l2
  | _ => true

/-- The translation that an access under way used. -/
def State.usedEntry (s : State) (x : Access) : Option TlbEntry :=
  match s.team? x.team with
  | none => none
  | some t => t.xten.map (fun n => ⟨tkey t.lease n, false, x.level, x.va / 2 ^ 16, x.leaves⟩)

/-- Whether writes of a copy of a tenant that had been sent by a moment are still to take effect. -/
def State.copyWrites (s : State) (p : Nat → Bool) (mark : Nat) : Bool :=
  s.quads.any (fun q => q.2.copies.any (fun c => p c.2.ten &&
    c.2.writing.any (fun i => decide (i + 1 < mark) && (s.access? i).isSome)))

/-- `tlbi`: it waits for the stores of its lanes, drops the covered entries with every walk-cache entry of the tenants that
its lanes name, and waits until every access that used one
has taken effect, those of copies too. -/
def State.tlbi (s : State) (form : Nat) (addr : Acting → Nat → Nat) (tenant : Acting → Nat → Nat) : State :=
  s.privileged fun x =>
    if x.level = 1 ∧ form = 1 then s.trapWord 0x03
    else if s.storesPending x.gid x.co.mask 2 then s
    else
      let sel := fun (e : TlbEntry) => x.lanes.any (fun l =>
        s.tlbiTarget x (tenant x l) == some e.ten && tlbiCovers form (addr x l) e)
      if x.co.mark = 0 then
        ((x.lanes.filterMap (fun l => s.tlbiTarget x (tenant x l))).dedup.foldl State.dropWalks (s.dropTlb sel)).onCohort
          (fun c => { c with mark := s.nextId + 1 })
      else if s.accesses.any (fun p => decide (p.1 + 1 < x.co.mark) && !p.2.performedAt 2 false &&
          (match s.usedEntry p.2 with
           | some e => sel e
           | none => false)) ||
          s.copyWrites (fun k => x.lanes.any (fun l => s.tlbiTarget x (tenant x l) == some k)) x.co.mark then s
      else s.issue.finish

/-- TLBI_VA (R333). -/
def execTlbiVa (d a : Fin 128) (s : State) : Host.Outcome State Fault Refusal :=
  .next (s.tlbi 0 (fun x l => s.pair x.gang l a.val) (fun x l => (s.reg x.gang l d.val).toNat))

/-- TLBI_TA (R333). -/
def execTlbiTa (d a : Fin 128) (s : State) : Host.Outcome State Fault Refusal :=
  .next (s.tlbi 1 (fun x l => s.pair x.gang l a.val) (fun x l => (s.reg x.gang l d.val).toNat))

/-- TLBI_ALL (R333). -/
def execTlbiAll (d : Fin 128) (s : State) : Host.Outcome State Fault Refusal :=
  .next (s.tlbi 2 (fun _ _ => 0) (fun x l => (s.reg x.gang l d.val).toNat))

/-! ### The return from a trap -/

/-- A code word as a fetch at a level would read it, without any effect. -/
def State.codeWord (s : State) (c : Ctx) (va : Nat) : Option Nat :=
  match s.translate c va 2 false with
  | .error _ => none
  | .ok x =>
    some (ofLeBytes (if s.reads0 x then [0, 0, 0, 0]
      else if x.kind = 1 then memRead s.host (hostKey (bits (s.vfOf c) 9 7) x.pa) 4
      else (List.range 4).map (fun i => s.hwByte (x.pa + i))))

/-- Where a lane of a frame goes on (17 R329): at TPC, or past it when SKIP is set and the frame delivers no records and
TPC does not name a header. A skipped repetition goes on at the next one (06 R115). -/
def State.returnPc (s : State) (c : Ctx) (f : Frame) : Pc × Nat :=
  if f.sfr || !f.skip || f.tpc.idx == 15 then (f.tpc, f.rep)
  else
    let before := if f.tpc.idx = 0 then none else s.codeWord c (f.tpc.addr + 4 * f.tpc.idx)
    let reps := match before with
      | some w => if bits w 31 25 = 0x7F then bits w 24 19 + 1 else 1
      | none => 1
    if f.rep + 1 < reps then (f.tpc, f.rep + 1)
    else
      match s.codeWord c f.tpc.addr with
      | none => (⟨f.tpc.addr, f.tpc.idx + 1⟩, 0)
      | some h =>
        if f.tpc.idx + 1 < bits h 3 0 then (⟨f.tpc.addr, f.tpc.idx + 1⟩, 0)
        else (⟨(f.tpc.addr + 4 * (bits h 3 0 + 1)) % 2 ^ 48, 0⟩, 0)

/-- Lanes of the acting cohort that leave it for counters and repetitions of their own, parked first when the word's
SWITCH bit is set (05 R86). -/
def State.eretLane (s : State) (a : Acting) (l : Nat) : State :=
  match a.gang.frameOf l with
  | none => s
  | some (i, f) =>
    let (pc, rep) := s.returnPc (a.team.ctx f.prev a.gang.core) f
    let pc : Pc := if pc.idx = 15 then ⟨pc.addr, 0⟩ else pc
    (s.leave (maskOf [l])).onGang a.gid (fun g =>
      match assocGet? g.frames i with
      | some x => g.returnLane l i x pc rep
      | none => g)

/-- ERET (R329). -/
def execEret (s : State) : Host.Outcome State Fault Refusal :=
  .next (s.privileged fun a =>
    let back := a.lanes.filter (fun l => (a.gang.frameOf l).isSome)
    let s : State := back.foldl (fun s l => s.eretLane a l) s.issue
    let s : State := if a.co.switchBit then s.park (maskOf back) .switchPark ⟨0, 0⟩ false else s
    s.trapEach ((a.lanes.filter (fun l => (a.gang.frameOf l).isNone)).map (fun l =>
      (l, { cause := 0x02, taddr := a.co.hdr }))))

/-! ### The registers of other lanes -/

/-- Whether a lane that stands still has a result of a register outstanding. -/
def Gang.unsettled (g : Gang) (l r : Nat) : Bool :=
  ((g.lane l).parked || (g.lane l).frame.isSome) && g.results.any (fun p => p.2.lane == l && p.2.reg == r)

/-- TRLANE (R330). -/
def execTrlane (d n b : Fin 128) (s : State) : Host.Outcome State Fault Refusal :=
  .next (s.privileged fun a =>
    let target := fun (l : Nat) => (s.reg a.gang l b.val).toNat
    if a.lanes.any (fun l => a.gang.unsettled (target l) n.val) then s
    else s.laneWord false (fun x l =>
      if x.gang.width ≤ target l then .trap { cause := 0x02, taddr := x.co.hdr }
      else .regs [(d.val, if (x.gang.lane (target l)).live then s.reg x.gang (target l) n.val else 0)]))

/-- TWLANE (R330). -/
def execTwlane (n b d : Fin 128) (s : State) : Host.Outcome State Fault Refusal :=
  .next (s.privileged fun a =>
    let target := fun (l : Nat) => (s.reg a.gang l b.val).toNat
    let t : State := a.lanes.foldl (fun t l =>
      if target l < a.gang.width ∧ (a.gang.lane (target l)).live then
        t.onGang a.gid (fun g => g.writeNow (target l) n.val (s.reg a.gang l d.val))
      else t) s.issue
    (t.trapEach ((a.lanes.filter (fun l => decide (a.gang.width ≤ target l))).map (fun l =>
      (l, { cause := 0x02, taddr := a.co.hdr })))).finish)

/-! ### Halts -/

/-- Stop teams and mark their tenant once (17 R331): HALTCODE and the TYPE 6 entry, which shows the core of the first
team stopped. -/
def State.haltTeams (s : State) (lease : Nat) (tenant : Option Nat) (lvl code : Nat) (teams : List (Nat × Team)) : State :=
  let s : State := teams.foldl (fun s t => s.stopTeam t.1) s
  s.haltEntry lease tenant lvl code (match teams with
    | t :: _ => t.2.core
    | [] => 0)

/-- The launches of a tenant that were taken are discarded (17 R331). -/
def State.haltLaunches (s : State) (lease n : Nat) : State :=
  let s : State := (s.launchesOf (.tenant lease n)).foldl (fun s y => s.endBlock y.1) s
  { s with launches := s.launches.map (fun y => (y.1,
      if y.2.dom = .tenant lease n then
        { y.2 with halted := true, nextTeam := y.2.desc.teams, returned := [], nextItem := y.2.desc.icount }
      else y.2)) }

/-- The teams of a tenant that have not been stopped. -/
def State.tenantTeams (s : State) (lease n : Nat) : List (Nat × Team) :=
  s.teams.filter (fun t => t.2.lease == lease && t.2.tenant == some n && !t.2.halted)

/-- `halt.tenant` of a tenant (17 R331). -/
def State.haltTenantNow (s : State) (lease n lvl code : Nat) : State :=
  (s.haltTeams lease (some n) lvl code (s.tenantTeams lease n)).haltLaunches lease n

/-- The code that `halt` sets: V(ld,b) [30:0]. -/
def State.haltCode (s : State) (a : Acting) (b : Fin 128) : Nat := (s.reg a.gang a.leader b.val).toNat % 2 ^ 31

/-- HALT (R331): the issuing team. -/
def execHalt (b : Fin 128) (s : State) : Host.Outcome State Fault Refusal :=
  .next (s.act fun a =>
    s.issue.haltTeams a.team.lease a.team.tenant a.level (s.haltCode a b) [(a.gang.team, a.team)])

/-- HALT_LAUNCH (R331): every team of the launch. -/
def execHaltLaunch (b : Fin 128) (s : State) : Host.Outcome State Fault Refusal :=
  .next (s.privileged fun a =>
    s.issue.haltTeams a.team.lease a.team.tenant a.level (s.haltCode a b)
      (s.teams.filter (fun t => t.2.launch == a.team.launch && !t.2.halted)))

/-- HALT_TENANT (R331): every team of the tenant; a lease service team has none. -/
def execHaltTenant (b : Fin 128) (s : State) : Host.Outcome State Fault Refusal :=
  .next (s.privileged fun a =>
    match a.team.tenant with
    | none => s.issue.trapWord 0x02
    | some n => s.issue.haltTenantNow a.team.lease n a.level (s.haltCode a b))

/-- The tenant that `halt.other` names. -/
def State.haltTarget (s : State) (a : Acting) (v : Nat) : Option (Nat × Nat) :=
  if a.level = 2 then some (a.team.lease, v % 16)
  else (s.tenants.find? (fun t => t.2.tag == some (v % 64))).map (fun t => (keyLease t.1, keyNo t.1))

/-- HALT_OTHER (R331): the teams of another tenant; the issuing lanes go on at the clause that follows once all of
them have exited. -/
def execHaltOther (a b : Fin 128) (s : State) : Host.Outcome State Fault Refusal :=
  .next (s.act fun x =>
    if x.level < 2 then s.trapWord 0x03
    else
      let code := s.haltCode x b
      let go := fun (s : State) (teams : List Nat) =>
        let s : State := (s.endCohort).setPcs x.co.mask (fun _ => ⟨x.co.after, 0⟩) 0
        if teams.isEmpty then (if x.co.switchBit then s.park x.co.mask .switchPark ⟨x.co.after, 0⟩ false else s)
        else s.park x.co.mask (.halted teams) ⟨x.co.after, 0⟩ x.co.switchBit
      match s.haltTarget x (s.reg x.gang x.leader a.val).toNat with
      | none => go s.issue []
      | some (l, n) =>
        if x.team.lease = l ∧ x.team.tenant = some n then s.issue.haltTenantNow l n x.level code
        else if (s.tenantOf (tkey l n)).state < 2 then go s.issue []
        else go (s.issue.haltTenantNow l n x.level code)
          ((s.tenantTeams l n).map (·.1)))

end Sys2Proof.Machine
end

