-- ==== Sys2Proof/Machine/Dispatch.lean ====
section
/-! DEFINITION. The dispatch: one arm per instruction, each one direct call of its meaning. -/
namespace Sys2Proof.Machine

def exec (i : Instr) (s : State) : Host.Outcome State Fault Refusal :=
  match i with
  | .nop => Sys2Proof.Machine.execNop s
  | .iadd d a b => Sys2Proof.Machine.execIadd d a b s
  | .isub d a b => Sys2Proof.Machine.execIsub d a b s
  | .imul d a b => Sys2Proof.Machine.execImul d a b s
  | .imulh d a b => Sys2Proof.Machine.execImulh d a b s
  | .umulh d a b => Sys2Proof.Machine.execUmulh d a b s
  | .imad d a b => Sys2Proof.Machine.execImad d a b s
  | .imin d a b => Sys2Proof.Machine.execImin d a b s
  | .imax d a b => Sys2Proof.Machine.execImax d a b s
  | .umin d a b => Sys2Proof.Machine.execUmin d a b s
  | .umax d a b => Sys2Proof.Machine.execUmax d a b s
  | .iabs d a => Sys2Proof.Machine.execIabs d a s
  | .ineg d a => Sys2Proof.Machine.execIneg d a s
  | .idiv d a b => Sys2Proof.Machine.execIdiv d a b s
  | .udiv d a b => Sys2Proof.Machine.execUdiv d a b s
  | .irem d a b => Sys2Proof.Machine.execIrem d a b s
  | .urem d a b => Sys2Proof.Machine.execUrem d a b s
  | .andv d a b => Sys2Proof.Machine.execAndv d a b s
  | .orv d a b => Sys2Proof.Machine.execOrv d a b s
  | .xorv d a b => Sys2Proof.Machine.execXorv d a b s
  | .andn d a b => Sys2Proof.Machine.execAndn d a b s
  | .orn d a b => Sys2Proof.Machine.execOrn d a b s
  | .xnor d a b => Sys2Proof.Machine.execXnor d a b s
  | .shl d a b => Sys2Proof.Machine.execShl d a b s
  | .shr d a b => Sys2Proof.Machine.execShr d a b s
  | .sar d a b => Sys2Proof.Machine.execSar d a b s
  | .rotl d a b => Sys2Proof.Machine.execRotl d a b s
  | .popc d a => Sys2Proof.Machine.execPopc d a s
  | .clz d a => Sys2Proof.Machine.execClz d a s
  | .ctz d a => Sys2Proof.Machine.execCtz d a s
  | .brev d a => Sys2Proof.Machine.execBrev d a s
  | .sel d a b => Sys2Proof.Machine.execSel d a b s
  | .mov d a => Sys2Proof.Machine.execMov d a s
  | .icmp c d a b => Sys2Proof.Machine.execIcmp c d a b s
  | .aadd d a b => Sys2Proof.Machine.execAadd d a b s
  | .aaddz d a b => Sys2Proof.Machine.execAaddz d a b s
  | .asub d a b => Sys2Proof.Machine.execAsub d a b s
  | .amov d a => Sys2Proof.Machine.execAmov d a s
  | .acmpeq d a b => Sys2Proof.Machine.execAcmpeq d a b s
  | .acmplt d a b => Sys2Proof.Machine.execAcmplt d a b s
  | .ashl d a b => Sys2Proof.Machine.execAshl d a b s
  | .amul d a b => Sys2Proof.Machine.execAmul d a b s
  | .iaddi d a im => Sys2Proof.Machine.execIaddi d a im s
  | .andi d a im => Sys2Proof.Machine.execAndi d a im s
  | .ori d a im => Sys2Proof.Machine.execOri d a im s
  | .xori d a im => Sys2Proof.Machine.execXori d a im s
  | .shli d a im => Sys2Proof.Machine.execShli d a im s
  | .shri d a im => Sys2Proof.Machine.execShri d a im s
  | .sari d a im => Sys2Proof.Machine.execSari d a im s
  | .icmpi d a c im => Sys2Proof.Machine.execIcmpi d a c im s
  | .aaddi d a im => Sys2Proof.Machine.execAaddi d a im s
  | .bfx d a x sz l => Sys2Proof.Machine.execBfx d a x sz l s
  | .bfi d a x sz l => Sys2Proof.Machine.execBfi d a x sz l s
  | .imuli d a im => Sys2Proof.Machine.execImuli d a im s
  | .movi d im => Sys2Proof.Machine.execMovi d im s
  | .movh d im => Sys2Proof.Machine.execMovh d im s
  | .fadd d a b => Sys2Proof.Machine.execFadd d a b s
  | .fsub d a b => Sys2Proof.Machine.execFsub d a b s
  | .fmul d a b => Sys2Proof.Machine.execFmul d a b s
  | .fma d a b => Sys2Proof.Machine.execFma d a b s
  | .fms d a b => Sys2Proof.Machine.execFms d a b s
  | .fnma d a b => Sys2Proof.Machine.execFnma d a b s
  | .fmin d a b => Sys2Proof.Machine.execFmin d a b s
  | .fmax d a b => Sys2Proof.Machine.execFmax d a b s
  | .fabs d a => Sys2Proof.Machine.execFabs d a s
  | .fneg d a => Sys2Proof.Machine.execFneg d a s
  | .fcpsgn d a b => Sys2Proof.Machine.execFcpsgn d a b s
  | .frnd d a m => Sys2Proof.Machine.execFrnd d a m s
  | .fdiv d a b => Sys2Proof.Machine.execFdiv d a b s
  | .fsqrt d a => Sys2Proof.Machine.execFsqrt d a s
  | .fsat d a => Sys2Proof.Machine.execFsat d a s
  | .fclass d a => Sys2Proof.Machine.execFclass d a s
  | .fcmp c d a b => Sys2Proof.Machine.execFcmp c d a b s
  | .frcp d a => Sys2Proof.Machine.execFrcp d a s
  | .frsq d a => Sys2Proof.Machine.execFrsq d a s
  | .fexp2 d a => Sys2Proof.Machine.execFexp2 d a s
  | .flog2 d a => Sys2Proof.Machine.execFlog2 d a s
  | .fsinpi d a => Sys2Proof.Machine.execFsinpi d a s
  | .fcospi d a => Sys2Proof.Machine.execFcospi d a s
  | .ftanh d a => Sys2Proof.Machine.execFtanh d a s
  | .fsig d a => Sys2Proof.Machine.execFsig d a s
  | .hadd2 d a b => Sys2Proof.Machine.execHadd2 d a b s
  | .hsub2 d a b => Sys2Proof.Machine.execHsub2 d a b s
  | .hmul2 d a b => Sys2Proof.Machine.execHmul2 d a b s
  | .hfma2 d a b => Sys2Proof.Machine.execHfma2 d a b s
  | .hmin2 d a b => Sys2Proof.Machine.execHmin2 d a b s
  | .hmax2 d a b => Sys2Proof.Machine.execHmax2 d a b s
  | .badd2 d a b => Sys2Proof.Machine.execBadd2 d a b s
  | .bsub2 d a b => Sys2Proof.Machine.execBsub2 d a b s
  | .bmul2 d a b => Sys2Proof.Machine.execBmul2 d a b s
  | .bfma2 d a b => Sys2Proof.Machine.execBfma2 d a b s
  | .bmin2 d a b => Sys2Proof.Machine.execBmin2 d a b s
  | .bmax2 d a b => Sys2Proof.Machine.execBmax2 d a b s
  | .dp4i d a b => Sys2Proof.Machine.execDp4i d a b s
  | .dp4n d a b => Sys2Proof.Machine.execDp4n d a b s
  | .dp2h d a b => Sys2Proof.Machine.execDp2h d a b s
  | .dp2b d a b => Sys2Proof.Machine.execDp2b d a b s
  | .dp4e d a b => Sys2Proof.Machine.execDp4e d a b s
  | .dp4f d a b => Sys2Proof.Machine.execDp4f d a b s
  | .i2f d a sz => Sys2Proof.Machine.execI2f d a sz s
  | .n2f d a k j => Sys2Proof.Machine.execN2f d a k j s
  | .f2i d a m => Sys2Proof.Machine.execF2i d a m s
  | .f2n d a k j => Sys2Proof.Machine.execF2n d a k j s
  | .pkh d a j => Sys2Proof.Machine.execPkh d a j s
  | .pkb d a j => Sys2Proof.Machine.execPkb d a j s
  | .unh d a j => Sys2Proof.Machine.execUnh d a j s
  | .unb d a j => Sys2Proof.Machine.execUnb d a j s
  | .pk8e d a j => Sys2Proof.Machine.execPk8e d a j s
  | .pk8f d a j => Sys2Proof.Machine.execPk8f d a j s
  | .un8e d a j => Sys2Proof.Machine.execUn8e d a j s
  | .un8f d a j => Sys2Proof.Machine.execUn8f d a j s
  | .pk6 d a j => Sys2Proof.Machine.execPk6 d a j s
  | .un6 d a j => Sys2Proof.Machine.execUn6 d a j s
  | .pk4 d a j => Sys2Proof.Machine.execPk4 d a j s
  | .un4 d a j => Sys2Proof.Machine.execUn4 d a j s
  | .sx8 d a => Sys2Proof.Machine.execSx8 d a s
  | .sx16 d a => Sys2Proof.Machine.execSx16 d a s
  | .sat8 d a => Sys2Proof.Machine.execSat8 d a s
  | .satz8 d a => Sys2Proof.Machine.execSatz8 d a s
  | .sat16 d a => Sys2Proof.Machine.execSat16 d a s
  | .satz16 d a => Sys2Proof.Machine.execSatz16 d a s
  | .fxf d a q => Sys2Proof.Machine.execFxf d a q s
  | .laneid d => Sys2Proof.Machine.execLaneid d s
  | .gwidth d => Sys2Proof.Machine.execGwidth d s
  | .cohort d => Sys2Proof.Machine.execCohort d s
  | .vany d a => Sys2Proof.Machine.execVany d a s
  | .vall d a => Sys2Proof.Machine.execVall d a s
  | .ballot d a => Sys2Proof.Machine.execBallot d a s
  | .matchEq d a => Sys2Proof.Machine.execMatchEq d a s
  | .shfl d a b => Sys2Proof.Machine.execShfl d a b s
  | .shup d a k => Sys2Proof.Machine.execShup d a k s
  | .shdn d a k => Sys2Proof.Machine.execShdn d a k s
  | .shxor d a k => Sys2Proof.Machine.execShxor d a k s
  | .redadd d a => Sys2Proof.Machine.execRedadd d a s
  | .redmin d a => Sys2Proof.Machine.execRedmin d a s
  | .redmax d a => Sys2Proof.Machine.execRedmax d a s
  | .bcast d a => Sys2Proof.Machine.execBcast d a s
  | .redand d a => Sys2Proof.Machine.execRedand d a s
  | .fredadd d a => Sys2Proof.Machine.execFredadd d a s
  | .fredmin d a => Sys2Proof.Machine.execFredmin d a s
  | .fredmax d a => Sys2Proof.Machine.execFredmax d a s
  | .redor d a => Sys2Proof.Machine.execRedor d a s
  | .redxor d a => Sys2Proof.Machine.execRedxor d a s
  | .sreg d im => Sys2Proof.Machine.execSreg d im s
  | .sregw a im => Sys2Proof.Machine.execSregw a im s
  | .ldB d a im => Sys2Proof.Machine.execLdB d a im s
  | .ldBs d a im => Sys2Proof.Machine.execLdBs d a im s
  | .ldH d a im => Sys2Proof.Machine.execLdH d a im s
  | .ldHs d a im => Sys2Proof.Machine.execLdHs d a im s
  | .ldW d a im => Sys2Proof.Machine.execLdW d a im s
  | .ldD d a im => Sys2Proof.Machine.execLdD d a im s
  | .ldQ d a im => Sys2Proof.Machine.execLdQ d a im s
  | .stB d a im => Sys2Proof.Machine.execStB d a im s
  | .stH d a im => Sys2Proof.Machine.execStH d a im s
  | .stW d a im => Sys2Proof.Machine.execStW d a im s
  | .stD d a im => Sys2Proof.Machine.execStD d a im s
  | .stQ d a im => Sys2Proof.Machine.execStQ d a im s
  | .ldbW d a b m o => Sys2Proof.Machine.execLdbW d a b m o s
  | .ldbD d a b m o => Sys2Proof.Machine.execLdbD d a b m o s
  | .ldbQ d a b m o => Sys2Proof.Machine.execLdbQ d a b m o s
  | .ldaH d a im => Sys2Proof.Machine.execLdaH d a im s
  | .ldaW d a im => Sys2Proof.Machine.execLdaW d a im s
  | .ldaQ d a im => Sys2Proof.Machine.execLdaQ d a im s
  | .staH d a im => Sys2Proof.Machine.execStaH d a im s
  | .staW d a im => Sys2Proof.Machine.execStaW d a im s
  | .staQ d a im => Sys2Proof.Machine.execStaQ d a im s
  | .ldwQ d a im => Sys2Proof.Machine.execLdwQ d a im s
  | .stwQ d a im => Sys2Proof.Machine.execStwQ d a im s
  | .atomAdd o sz d a b => Sys2Proof.Machine.execAtomAdd o sz d a b s
  | .atomMin o sz d a b => Sys2Proof.Machine.execAtomMin o sz d a b s
  | .atomMax o sz d a b => Sys2Proof.Machine.execAtomMax o sz d a b s
  | .atomUmin o sz d a b => Sys2Proof.Machine.execAtomUmin o sz d a b s
  | .atomUmax o sz d a b => Sys2Proof.Machine.execAtomUmax o sz d a b s
  | .atomAnd o sz d a b => Sys2Proof.Machine.execAtomAnd o sz d a b s
  | .atomOr o sz d a b => Sys2Proof.Machine.execAtomOr o sz d a b s
  | .atomXor o sz d a b => Sys2Proof.Machine.execAtomXor o sz d a b s
  | .atomXchg o sz d a b => Sys2Proof.Machine.execAtomXchg o sz d a b s
  | .atomCas o sz d a b => Sys2Proof.Machine.execAtomCas o sz d a b s
  | .atomFadd o sz d a b => Sys2Proof.Machine.execAtomFadd o sz d a b s
  | .atomAdd64 o sz d a b => Sys2Proof.Machine.execAtomAdd64 o sz d a b s
  | .redAdd o sz a b => Sys2Proof.Machine.execRedAdd o sz a b s
  | .redMin o sz a b => Sys2Proof.Machine.execRedMin o sz a b s
  | .redMax o sz a b => Sys2Proof.Machine.execRedMax o sz a b s
  | .redAnd o sz a b => Sys2Proof.Machine.execRedAnd o sz a b s
  | .redOr o sz a b => Sys2Proof.Machine.execRedOr o sz a b s
  | .redXor o sz a b => Sys2Proof.Machine.execRedXor o sz a b s
  | .redFadd o sz a b => Sys2Proof.Machine.execRedFadd o sz a b s
  | .scaAdd d a b => Sys2Proof.Machine.execScaAdd d a b s
  | .scaMin d a b => Sys2Proof.Machine.execScaMin d a b s
  | .scaMax d a b => Sys2Proof.Machine.execScaMax d a b s
  | .scaUmin d a b => Sys2Proof.Machine.execScaUmin d a b s
  | .scaUmax d a b => Sys2Proof.Machine.execScaUmax d a b s
  | .scaAnd d a b => Sys2Proof.Machine.execScaAnd d a b s
  | .scaOr d a b => Sys2Proof.Machine.execScaOr d a b s
  | .scaXor d a b => Sys2Proof.Machine.execScaXor d a b s
  | .scaXchg d a b => Sys2Proof.Machine.execScaXchg d a b s
  | .scaCas d a b => Sys2Proof.Machine.execScaCas d a b s
  | .scaFadd d a b => Sys2Proof.Machine.execScaFadd d a b s
  | .saccW a b => Sys2Proof.Machine.execSaccW a b s
  | .saccF a b => Sys2Proof.Machine.execSaccF a b s
  | .fence sz o => Sys2Proof.Machine.execFence sz o s
  | .radv d k => Sys2Proof.Machine.execRadv d k s
  | .racq d a k => Sys2Proof.Machine.execRacq d a k s
  | .rview d k => Sys2Proof.Machine.execRview d k s
  | .rviewCnt d k => Sys2Proof.Machine.execRviewCnt d k s
  | .mon a => Sys2Proof.Machine.execMon a s
  | .mwait d b => Sys2Proof.Machine.execMwait d b s
  | .mwaitTrap d b => Sys2Proof.Machine.execMwaitTrap d b s
  | .munarm => Sys2Proof.Machine.execMunarm s
  | .sdrain => Sys2Proof.Machine.execSdrain s
  | .cinv a => Sys2Proof.Machine.execCinv a s
  | .pfetch a => Sys2Proof.Machine.execPfetch a s
  | .pfl2 a => Sys2Proof.Machine.execPfl2 a s
  | .pdisc d a => Sys2Proof.Machine.execPdisc d a s
  | .br o => Sys2Proof.Machine.execBr o s
  | .brnz a o => Sys2Proof.Machine.execBrnz a o s
  | .brz a o => Sys2Proof.Machine.execBrz a o s
  | .call a o => Sys2Proof.Machine.execCall a o s
  | .jmp a => Sys2Proof.Machine.execJmp a s
  | .jmpl d a => Sys2Proof.Machine.execJmpl d a s
  | .jpush => Sys2Proof.Machine.execJpush s
  | .jwait => Sys2Proof.Machine.execJwait s
  | .jdrop k => Sys2Proof.Machine.execJdrop k s
  | .jdepth d => Sys2Proof.Machine.execJdepth d s
  | .exitv sz => Sys2Proof.Machine.execExitv sz s
  | .bar => Sys2Proof.Machine.execBar s
  | .refill d => Sys2Proof.Machine.execRefill d s
  | .trapv c => Sys2Proof.Machine.execTrapv c s
  | .yield => Sys2Proof.Machine.execYield s
  | .sysr d n => Sys2Proof.Machine.execSysr d n s
  | .sysw a n => Sys2Proof.Machine.execSysw a n s
  | .cfgr d a => Sys2Proof.Machine.execCfgr d a s
  | .cfgw a b => Sys2Proof.Machine.execCfgw a b s
  | .tlbiVa d a => Sys2Proof.Machine.execTlbiVa d a s
  | .tlbiTa d a => Sys2Proof.Machine.execTlbiTa d a s
  | .tlbiAll d => Sys2Proof.Machine.execTlbiAll d s
  | .eret => Sys2Proof.Machine.execEret s
  | .trlane d n b => Sys2Proof.Machine.execTrlane d n b s
  | .twlane d n b => Sys2Proof.Machine.execTwlane d n b s
  | .halt b => Sys2Proof.Machine.execHalt b s
  | .haltLaunch b => Sys2Proof.Machine.execHaltLaunch b s
  | .haltTenant b => Sys2Proof.Machine.execHaltTenant b s
  | .haltOther a b => Sys2Proof.Machine.execHaltOther a b s
  | .cpy d => Sys2Proof.Machine.execCpy d s
  | .cpg d a => Sys2Proof.Machine.execCpg d a s
  | .cps d a => Sys2Proof.Machine.execCps d a s
  | .cpxw d => Sys2Proof.Machine.execCpxw d s
  | .cpxr d => Sys2Proof.Machine.execCpxr d s
  | .cpf d => Sys2Proof.Machine.execCpf d s
  | .mmul d => Sys2Proof.Machine.execMmul d s
  | .mmulw d => Sys2Proof.Machine.execMmulw d s
  | .mmsp d => Sys2Proof.Machine.execMmsp d s
  | .mzero d => Sys2Proof.Machine.execMzero d s
  | .mepi d => Sys2Proof.Machine.execMepi d s
  | .mfence => Sys2Proof.Machine.execMfence s
  | .acrd d a x => Sys2Proof.Machine.execAcrd d a x s
  | .acwr d a x => Sys2Proof.Machine.execAcwr d a x s
  | .acst d k => Sys2Proof.Machine.execAcst d k s
  | .sinc n b => Sys2Proof.Machine.execSinc n b s
  | .swait n b => Sys2Proof.Machine.execSwait n b s
  | .sset n b => Sys2Proof.Machine.execSset n b s
  | .sget d n w => Sys2Proof.Machine.execSget d n w s
  | .sdec n b => Sys2Proof.Machine.execSdec n b s
  | .rtsend r a n => Sys2Proof.Machine.execRtsend r a n s
  | .rtrecv d r n => Sys2Proof.Machine.execRtrecv d r n s
  | .rtsendq d a r => Sys2Proof.Machine.execRtsendq d a r s
  | .rtrecvq d r => Sys2Proof.Machine.execRtrecvq d r s
  | .rtstat d r => Sys2Proof.Machine.execRtstat d r s
  | .wpush d a b => Sys2Proof.Machine.execWpush d a b s
  | .wjoin d a => Sys2Proof.Machine.execWjoin d a s
  | .ipush d a => Sys2Proof.Machine.execIpush d a s
  | .shset d a b => Sys2Proof.Machine.execShset d a b s
  | .shinv a => Sys2Proof.Machine.execShinv a s
  | .rep c x y z => Sys2Proof.Machine.execRep c x y z s
  | .queueAppend dom q addr bytes => Sys2Proof.Machine.execQueueAppend dom q addr bytes s
  | .queueEnable dom q ctl => Sys2Proof.Machine.execQueueEnable dom q ctl s
  | .queueDisable dom q ctl => Sys2Proof.Machine.execQueueDisable dom q ctl s
  | .queueClr dom q => Sys2Proof.Machine.execQueueClr dom q s
  | .dispatchTake dom q => Sys2Proof.Machine.execDispatchTake dom q s
  | .teamRelease dom => Sys2Proof.Machine.execTeamRelease dom s
  | .coopBlock dom => Sys2Proof.Machine.execCoopBlock dom s
  | .holdListDrain dom q => Sys2Proof.Machine.execHoldListDrain dom q s
  | .successorJoin launch => Sys2Proof.Machine.execSuccessorJoin launch s
  | .teamExit team => Sys2Proof.Machine.execTeamExit team s
  | .itemChunkDeal core launch => Sys2Proof.Machine.execItemChunkDeal core launch s
  | .powerWaitExpire quad => Sys2Proof.Machine.execPowerWaitExpire quad s
  | .quadPowerReady quad => Sys2Proof.Machine.execQuadPowerReady quad s
  | .quadGate quad => Sys2Proof.Machine.execQuadGate quad s
  | .swapOutEligible gang => Sys2Proof.Machine.execSwapOutEligible gang s
  | .swapOutForced gang => Sys2Proof.Machine.execSwapOutForced gang s
  | .swapIn gang => Sys2Proof.Machine.execSwapIn gang s
  | .quadFailure field prow pcol => Sys2Proof.Machine.execQuadFailure field prow pcol s
  | .trimFailure quad cap => Sys2Proof.Machine.execTrimFailure quad cap s
  | .bypassFailure quad => Sys2Proof.Machine.execBypassFailure quad s
  | .latmatSweep lease ns => Sys2Proof.Machine.execLatmatSweep lease ns s
  | .capRaise quad cap => Sys2Proof.Machine.execCapRaise quad cap s
  | .engineDead quad => Sys2Proof.Machine.execEngineDead quad s
  | .cohortForm gang slice => Sys2Proof.Machine.execCohortForm gang slice s
  | .prewaitRelease gang wait => Sys2Proof.Machine.execPrewaitRelease gang wait s
  | .switchParkEnd gang wait => Sys2Proof.Machine.execSwitchParkEnd gang wait s
  | .resultWrite gang result => Sys2Proof.Machine.execResultWrite gang result s
  | .storeFaultReport acc => Sys2Proof.Machine.execStoreFaultReport acc s
  | .skidCountDeliver gang cohort => Sys2Proof.Machine.execSkidCountDeliver gang cohort s
  | .faultResponse fb value => Sys2Proof.Machine.execFaultResponse fb value s
  | .fbheadWrite fb value => Sys2Proof.Machine.execFbheadWrite fb value s
  | .clrovfWrite fb value => Sys2Proof.Machine.execClrovfWrite fb value s
  | .homeReadMiss acc => Sys2Proof.Machine.execHomeReadMiss acc s
  | .l1Fill acc => Sys2Proof.Machine.execL1Fill acc s
  | .homeStoreApply acc => Sys2Proof.Machine.execHomeStoreApply acc s
  | .sharerUpdate acc => Sys2Proof.Machine.execSharerUpdate acc s
  | .storeAck acc => Sys2Proof.Machine.execStoreAck acc s
  | .listSplice core line => Sys2Proof.Machine.execListSplice core line s
  | .l2Evict line => Sys2Proof.Machine.execL2Evict line s
  | .homeAtomic acc => Sys2Proof.Machine.execHomeAtomic acc s
  | .pinRefusalRetry acc => Sys2Proof.Machine.execPinRefusalRetry acc s
  | .viewBroadcast lease tenant idx => Sys2Proof.Machine.execViewBroadcast lease tenant idx s
  | .roundRefetch acc => Sys2Proof.Machine.execRoundRefetch acc s
  | .mwaitDeadline gang wait => Sys2Proof.Machine.execMwaitDeadline gang wait s
  | .hostCompletion acc ok => Sys2Proof.Machine.execHostCompletion acc ok s
  | .hostTimeout acc => Sys2Proof.Machine.execHostTimeout acc s
  | .pageFillDone page => Sys2Proof.Machine.execPageFillDone page s
  | .tokenRefill => Sys2Proof.Machine.execTokenRefill s
  | .walkaheadTranslate quad uid => Sys2Proof.Machine.execWalkaheadTranslate quad uid s
  | .engineAccept gang cohort => Sys2Proof.Machine.execEngineAccept gang cohort s
  | .copyBlock quad uid => Sys2Proof.Machine.execCopyBlock quad uid s
  | .copyComplete quad uid => Sys2Proof.Machine.execCopyComplete quad uid s
  | .churnStep quad arr => Sys2Proof.Machine.execChurnStep quad arr s
  | .matrixComplete quad uid => Sys2Proof.Machine.execMatrixComplete quad uid s
  | .routeWordArrive lease tenant rt seg => Sys2Proof.Machine.execRouteWordArrive lease tenant rt seg s
  | .routeBreak lease tenant rt seg => Sys2Proof.Machine.execRouteBreak lease tenant rt seg s
  | .routeEnable lease tenant rt value => Sys2Proof.Machine.execRouteEnable lease tenant rt value s
  | .routeDisable lease tenant rt value => Sys2Proof.Machine.execRouteDisable lease tenant rt value s
  | .attrEntryWrite lease tenant im value => Sys2Proof.Machine.execAttrEntryWrite lease tenant im value s
  | .s1rootWrite lease tenant value => Sys2Proof.Machine.execS1rootWrite lease tenant value s
  | .s2rootWrite lease tenant value => Sys2Proof.Machine.execS2rootWrite lease tenant value s
  | .descConfigure lease tenant => Sys2Proof.Machine.execDescConfigure lease tenant s
  | .descCommit lease tenant => Sys2Proof.Machine.execDescCommit lease tenant s
  | .descUncommit lease tenant => Sys2Proof.Machine.execDescUncommit lease tenant s
  | .descRun lease tenant => Sys2Proof.Machine.execDescRun lease tenant s
  | .descPreempt lease tenant => Sys2Proof.Machine.execDescPreempt lease tenant s
  | .descRestore lease tenant => Sys2Proof.Machine.execDescRestore lease tenant s
  | .descHoldOut lease tenant => Sys2Proof.Machine.execDescHoldOut lease tenant s
  | .descFree lease tenant => Sys2Proof.Machine.execDescFree lease tenant s
  | .descRecover lease tenant => Sys2Proof.Machine.execDescRecover lease tenant s
  | .quantumWrite lease tenant value => Sys2Proof.Machine.execQuantumWrite lease tenant value s
  | .vminReset quad => Sys2Proof.Machine.execVminReset quad s
  | .registerWrite who offset value => Sys2Proof.Machine.execRegisterWrite who offset value s
  | .preemptHardStop lease tenant => Sys2Proof.Machine.execPreemptHardStop lease tenant s
  | .engineStopAck lease tenant cls => Sys2Proof.Machine.execEngineStopAck lease tenant cls s
  | .saveDone lease tenant us => Sys2Proof.Machine.execSaveDone lease tenant us s
  | .preemptKill lease tenant => Sys2Proof.Machine.execPreemptKill lease tenant s
  | .quantumExpire lease tenant => Sys2Proof.Machine.execQuantumExpire lease tenant s
  | .peerAccessReceive link write addr data => Sys2Proof.Machine.execPeerAccessReceive link write addr data s
  | .flitAck link packet => Sys2Proof.Machine.execFlitAck link packet s
  | .flitReplay link => Sys2Proof.Machine.execFlitReplay link s
  | .packetTagDrop lease => Sys2Proof.Machine.execPacketTagDrop lease s
  | .voltageSample quad mv => Sys2Proof.Machine.execVoltageSample quad mv s
  | .powerSample watts decidegrees => Sys2Proof.Machine.execPowerSample watts decidegrees s
  | .spdmGetMeasurements port vfn index => Sys2Proof.Machine.execSpdmGetMeasurements port vfn index s
  | .tdispLockInterface port vfn => Sys2Proof.Machine.execTdispLockInterface port vfn s
  | .boot defects => Sys2Proof.Machine.execBoot defects s
  | .restoreDone lease tenant => Sys2Proof.Machine.execRestoreDone lease tenant s
  | .lossOfLock link => Sys2Proof.Machine.execLossOfLock link s
  | .peerLinkLost link => Sys2Proof.Machine.execPeerLinkLost link s
  | .tdispStartInterface port vfn => Sys2Proof.Machine.execTdispStartInterface port vfn s
  | .leaseCreation lease spec => Sys2Proof.Machine.execLeaseCreation lease spec s

end Sys2Proof.Machine
end

