-- ==== Sys2Proof/Machine/Words.lean ====
section
/-! DEFINITION. A word at issue: it is decoded and runs, or traps with cause 0x02 (05 R89 step 5, R96). Lean's compiler
cannot build the constructors of Instr past the 245th, so a compiled twin decodes the engine words straight into their
meanings; a theorem shows that the two are one function, and compiled code uses the twin. -/
namespace Sys2Proof.Machine

/-- The word w issues. -/
noncomputable def runWord (w : Nat) (s : State) : Host.Outcome State Fault Refusal :=
  match decode w with
  | .ok i => exec i s
  | .error _ => .next (s.trapWord 0x02)

/-- A decoded instruction of a low major runs. -/
def runLow (r : Except Reject Instr) (s : State) : Host.Outcome State Fault Refusal :=
  match r with
  | .ok i => exec i s
  | .error _ => .next (s.trapWord 0x02)

/-- A word runs when its unused fields are zero and its operands have no defect. -/
def runIf (p : Prop) [Decidable p] (d : Option Defect) (s : State)
    (k : Unit → Host.Outcome State Fault Refusal) : Host.Outcome State Fault Refusal :=
  if p then (match d with
    | none => k ()
    | some _ => .next (s.trapWord 0x02))
  else .next (s.trapWord 0x02)

/-- Major 0x78: cpy, cpg, cps, cpxw, cpxr, cpf. -/
def run78 (w : Nat) (s : State) : Host.Outcome State Fault Refusal :=
  match bits w 24 21 with
  | 0 => runIf (bits w 13 0 = 0) (block (fin 128 w 14) 4) s (fun _ => execCpy (fin 128 w 14) s)
  | 1 => runIf (bits w 6 0 = 0) (block (fin 128 w 14) 4) s (fun _ => execCpg (fin 128 w 14) (fin 128 w 7) s)
  | 2 => runIf (bits w 6 0 = 0) (block (fin 128 w 14) 4) s (fun _ => execCps (fin 128 w 14) (fin 128 w 7) s)
  | 3 => runIf (bits w 13 0 = 0) (block (fin 128 w 14) 4) s (fun _ => execCpxw (fin 128 w 14) s)
  | 4 => runIf (bits w 13 0 = 0) (block (fin 128 w 14) 4) s (fun _ => execCpxr (fin 128 w 14) s)
  | 5 => runIf (bits w 13 0 = 0) (block (fin 128 w 14) 4) s (fun _ => execCpf (fin 128 w 14) s)
  | _ => .next (s.trapWord 0x02)

/-- Major 0x79: mmul, mmulw, mmsp, mzero, mepi, mfence, acrd, acwr, acst. -/
def run79 (w : Nat) (s : State) : Host.Outcome State Fault Refusal :=
  match bits w 24 21 with
  | 0 => runIf (bits w 13 0 = 0) (block (fin 128 w 14) 4) s (fun _ => execMmul (fin 128 w 14) s)
  | 1 => runIf (bits w 13 0 = 0) (block (fin 128 w 14) 4) s (fun _ => execMmulw (fin 128 w 14) s)
  | 2 => runIf (bits w 13 0 = 0) (block (fin 128 w 14) 4) s (fun _ => execMmsp (fin 128 w 14) s)
  | 3 => runIf (bits w 13 0 = 0) (block (fin 128 w 14) 2) s (fun _ => execMzero (fin 128 w 14) s)
  | 4 => runIf (bits w 13 0 = 0) (block (fin 128 w 14) 4) s (fun _ => execMepi (fin 128 w 14) s)
  | 5 => runIf (bits w 20 0 = 0) (none) s (fun _ => execMfence s)
  | 6 => runIf (bits w 6 1 = 0) (none) s (fun _ => execAcrd (fin 128 w 14) (fin 128 w 7) (fin 2 w 0) s)
  | 7 => runIf (bits w 6 1 = 0) (none) s (fun _ => execAcwr (fin 128 w 14) (fin 128 w 7) (fin 2 w 0) s)
  | 8 => runIf (bits w 13 6 = 0) (none) s (fun _ => execAcst (fin 128 w 14) (fin 64 w 0) s)
  | _ => .next (s.trapWord 0x02)

/-- Major 0x7A: sinc, swait, sset, sget, sdec. -/
def run7A (w : Nat) (s : State) : Host.Outcome State Fault Refusal :=
  match bits w 24 21 with
  | 0 => runIf (bits w 20 14 = 0) (none) s (fun _ => execSinc (fin 128 w 7) (fin 128 w 0) s)
  | 1 => runIf (bits w 20 14 = 0) (none) s (fun _ => execSwait (fin 128 w 7) (fin 128 w 0) s)
  | 2 => runIf (bits w 20 14 = 0) (none) s (fun _ => execSset (fin 128 w 7) (fin 128 w 0) s)
  | 3 => runIf (bits w 6 4 = 0) (limit ((fin 16 w 0).val ≤ 9)) s (fun _ => execSget (fin 128 w 14) (fin 128 w 7) (fin 16 w 0) s)
  | 4 => runIf (bits w 20 14 = 0) (none) s (fun _ => execSdec (fin 128 w 7) (fin 128 w 0) s)
  | _ => .next (s.trapWord 0x02)

/-- Major 0x7B: rtsend, rtrecv, rtsendq, rtrecvq, rtstat. -/
def run7B (w : Nat) (s : State) : Host.Outcome State Fault Refusal :=
  match bits w 24 21 with
  | 0 => runIf (bits w 20 20 = 0 ∧ bits w 6 3 = 0) (limit ((fin 128 w 7).val + (fin 8 w 0).val ≤ 127)) s (fun _ => execRtsend (fin 64 w 14) (fin 128 w 7) (fin 8 w 0) s)
  | 1 => runIf (bits w 13 13 = 0 ∧ bits w 6 3 = 0) (limit ((fin 128 w 14).val + (fin 8 w 0).val ≤ 127)) s (fun _ => execRtrecv (fin 128 w 14) (fin 64 w 7) (fin 8 w 0) s)
  | 2 => runIf (bits w 6 6 = 0) (none) s (fun _ => execRtsendq (fin 128 w 14) (fin 128 w 7) (fin 64 w 0) s)
  | 3 => runIf (bits w 13 6 = 0) (pair (fin 128 w 14)) s (fun _ => execRtrecvq (fin 128 w 14) (fin 64 w 0) s)
  | 4 => runIf (bits w 13 6 = 0) (none) s (fun _ => execRtstat (fin 128 w 14) (fin 64 w 0) s)
  | _ => .next (s.trapWord 0x02)

/-- Major 0x7C: wpush, wjoin, ipush, shset, shinv. -/
def run7C (w : Nat) (s : State) : Host.Outcome State Fault Refusal :=
  match bits w 24 21 with
  | 0 => runIf (True) (pair (fin 128 w 7)) s (fun _ => execWpush (fin 128 w 14) (fin 128 w 7) (fin 128 w 0) s)
  | 1 => runIf (bits w 6 0 = 0) (pair (fin 128 w 7)) s (fun _ => execWjoin (fin 128 w 14) (fin 128 w 7) s)
  | 2 => runIf (bits w 6 0 = 0) (none) s (fun _ => execIpush (fin 128 w 14) (fin 128 w 7) s)
  | 3 => runIf (True) (block (fin 128 w 7) 16) s (fun _ => execShset (fin 128 w 14) (fin 128 w 7) (fin 128 w 0) s)
  | 4 => runIf (bits w 20 14 = 0 ∧ bits w 6 0 = 0) (none) s (fun _ => execShinv (fin 128 w 7) s)
  | _ => .next (s.trapWord 0x02)

/-- Major 0x7F: rep. -/
def run7F (w : Nat) (s : State) : Host.Outcome State Fault Refusal :=
  runIf (bits w 12 0 = 0) none s (fun _ => execRep (fin 64 w 19) (fin 4 w 17) (fin 4 w 15) (fin 4 w 13) s)

/-- A word of an engine major. -/
def runEng (w : Nat) (s : State) : Host.Outcome State Fault Refusal :=
  match bits w 31 25 with
  | 0x78 => run78 w s
  | 0x79 => run79 w s
  | 0x7A => run7A w s
  | 0x7B => run7B w s
  | 0x7C => run7C w s
  | 0x7F => run7F w s
  | _ => .next (s.trapWord 0x02)

/-- The compiled twin of `runWord`. -/
def runWordFast (w : Nat) (s : State) : Host.Outcome State Fault Refusal :=
  if bits w 31 25 < 0x68 then runLow (decodeLow w) s
  else if bits w 31 25 < 0x78 then runLow (checked (decodeCtl w)) s
  else runEng w s

/-- What a decoding rejected or accepted does. -/
theorem runLow_checked_unused (p : Prop) [Decidable p] (i : Instr) (s : State) :
    runLow (checked (unused p i)) s = runIf p i.defect s (fun _ => exec i s) := by
  unfold unused runIf
  split
  · simp only [checked]
    split <;> rename_i h <;> simp [runLow, h]
  · rfl

theorem runLow_checked_ok (i : Instr) (s : State) :
    runLow (checked (.ok i)) s = runIf True i.defect s (fun _ => exec i s) := by
  simp only [checked, runIf]
  split <;> rename_i h <;> simp [runLow, h]

theorem run78_eq (w : Nat) (s : State) : runLow (checked (decode78 w)) s = run78 w s := by
  unfold decode78 run78
  generalize bits w 24 21 = n
  split
  all_goals first
    | exact runLow_checked_unused _ _ _
    | exact runLow_checked_ok _ _
    | skip
  all_goals first
    | rfl
    | (split <;> first | contradiction | rfl)

theorem run79_eq (w : Nat) (s : State) : runLow (checked (decode79 w)) s = run79 w s := by
  unfold decode79 run79
  generalize bits w 24 21 = n
  split
  all_goals first
    | exact runLow_checked_unused _ _ _
    | exact runLow_checked_ok _ _
    | skip
  all_goals first
    | rfl
    | (split <;> first | contradiction | rfl)

theorem run7A_eq (w : Nat) (s : State) : runLow (checked (decode7A w)) s = run7A w s := by
  unfold decode7A run7A
  generalize bits w 24 21 = n
  split
  all_goals first
    | exact runLow_checked_unused _ _ _
    | exact runLow_checked_ok _ _
    | skip
  all_goals first
    | rfl
    | (split <;> first | contradiction | rfl)

theorem run7B_eq (w : Nat) (s : State) : runLow (checked (decode7B w)) s = run7B w s := by
  unfold decode7B run7B
  generalize bits w 24 21 = n
  split
  all_goals first
    | exact runLow_checked_unused _ _ _
    | exact runLow_checked_ok _ _
    | skip
  all_goals first
    | rfl
    | (split <;> first | contradiction | rfl)

theorem run7C_eq (w : Nat) (s : State) : runLow (checked (decode7C w)) s = run7C w s := by
  unfold decode7C run7C
  generalize bits w 24 21 = n
  split
  all_goals first
    | exact runLow_checked_unused _ _ _
    | exact runLow_checked_ok _ _
    | skip
  all_goals first
    | rfl
    | (split <;> first | contradiction | rfl)

theorem run7F_eq (w : Nat) (s : State) : runLow (checked (decode7F w)) s = run7F w s := by
  unfold decode7F run7F
  rw [runLow_checked_unused]
  rfl

theorem runEng_eq (w : Nat) (s : State) : runLow (checked (decodeEng w)) s = runEng w s := by
  unfold decodeEng runEng
  generalize bits w 31 25 = n
  split
  · exact run78_eq w s
  · exact run79_eq w s
  · exact run7A_eq w s
  · exact run7B_eq w s
  · exact run7C_eq w s
  · exact run7F_eq w s
  · first
    | rfl
    | (split <;> first | contradiction | rfl)

@[csimp] theorem runWord_fast : @runWord = @runWordFast := by
  funext w s
  show runLow (decode w) s = runWordFast w s
  unfold decode
  split
  · rename_i h
    simp [runWordFast, h]
  · rename_i h
    split
    · rename_i h2
      simp [runWordFast, h, h2]
    · rename_i h2
      simp only [runWordFast, if_neg h, if_neg h2]
      exact runEng_eq w s

end Sys2Proof.Machine
end

