-- ==== Sys2Proof/Machine/Agents.lean ====
section
/-! DEFINITION. The agents of the machine and what each may do next: a word issues, a step of a gang, of the memory
system, of an engine, of a dispatcher, of pre-emption or of power happens, a parked group goes on, or something arrives
from outside. One agent acts in each step; which of those that may act is a free choice. -/
namespace Sys2Proof.Machine

/-- What one agent may do in a step. -/
inductive Act where
  | input
  | word (gang cohort : Nat)
  | settle (gang cohort : Nat)
  | wake (gang wait : Nat)
  | cohortForm (gang slice : Nat)
  | prewaitRelease (gang wait : Nat)
  | switchParkEnd (gang wait : Nat)
  | resultWrite (gang result : Nat)
  | storeFaultReport (acc : Nat)
  | skidCountDeliver (gang cohort : Nat)
  | swapOutEligible (gang : Nat)
  | swapOutForced (gang : Nat)
  | swapIn (gang : Nat)
  | homeReadMiss (acc : Nat)
  | roundRefetch (acc : Nat)
  | homeStoreApply (acc : Nat)
  | homeAtomic (acc : Nat)
  | pinRefusalRetry (acc : Nat)
  | coreRetry (acc : Nat)
  | l1Fill (acc : Nat)
  | sharerUpdate (acc : Nat)
  | storeAck (acc : Nat)
  | scratchApply (acc : Nat)
  | listSplice (core line : Nat)
  | l2Evict (line : Nat)
  | pageFillDone (page : Nat)
  | tokenRefill
  | viewBroadcast (lease tenant idx : Nat)
  | mwaitDeadline (gang wait : Nat)
  | hostCompletion (acc : Nat)
  | hostTimeout (acc : Nat)
  | walkaheadTranslate (quad uid : Nat)
  | engineAccept (gang cohort : Nat)
  | copyBlock (quad uid : Nat)
  | copyComplete (quad uid : Nat)
  | churnStep (quad arr : Nat)
  | matrixComplete (quad uid : Nat)
  | routeWordArrive (lease tenant rt seg : Nat)
  | dispatchTake (dom : Dom) (q : Nat)
  | teamRelease (dom : Dom)
  | coopBlock (dom : Dom)
  | holdListDrain (dom : Dom) (q : Nat)
  | itemChunkDeal (core launch : Nat)
  | teamExit (team : Nat)
  | successorJoin (launch : Nat)
  | preemptHardStop (lease tenant : Nat)
  | engineStopAck (lease tenant cls : Nat)
  | saveDone (lease tenant us : Nat)
  | preemptKill (lease tenant : Nat)
  | restoreDone (lease tenant : Nat)
  | quantumExpire (lease tenant : Nat)
  | powerWaitExpire (quad : Nat)
  | quadPowerReady (quad : Nat)
  | quiesceStop
  | quiesceEnd
deriving DecidableEq, Repr

/-! ### The end of a park without a step of its own in the table (06 R113) -/

/-- Whether the lanes of a placed team may go on: its tenant runs, or its lanes have not been stopped (17 R342). -/
def State.mayWake (s : State) (g : Gang) : Bool :=
  match s.team? g.team with
  | none => false
  | some t => t.placed && !t.halted && (match t.tenant with
    | some n =>
      let k := s.tenantOf (tkey t.lease n)
      k.state == 3 || (k.state == 4 && k.ladder.any (fun x => !isIn x.acks 0))
    | none => !(s.lease? t.lease).any (·.quiet))

/-- Whether the routes of a gang's tenant have not been stopped (12 R302, 17 R342): a parked route word goes on only then. -/
def State.routesRun (s : State) (g : Gang) : Bool :=
  match s.team? g.team with
  | none => false
  | some t => !s.acknowledged t.part 3

/-- What a parked group of a gang may do. -/
def State.waitAct (s : State) (gid : Nat) (g : Gang) (w : Nat) (x : Wait) : List Act :=
  let wake := fun (ok : Bool) => if ok then [Act.wake gid w] else []
  match x.kind with
  | .prewait b => if s.prewaitMet gid g b then [.prewaitRelease gid w] else []
  | .switchPark => if g.results.isEmpty then [.switchParkEnd gid w] else []
  | .refill _ =>
    match s.team? g.team with
    | some t => wake (!((s.core g.core).itemsOf t.launch).isEmpty || !s.valuesLeft t.launch)
    | none => []
  | .fence ord scope => wake (s.fenceReady gid x.mask ord scope)
  | .pageRequest _ _ => []
  | .answered _ _ _ _ => wake true
  | .halted ts => wake (ts.all (fun t => (s.team? t).isNone))
  | .semaphore _ n v =>
    match (s.team? g.team).bind (fun t => semAt t g.core n) with
    | some p => wake ((s.sem p).ready v)
    | none => []
  | .round _ k m =>
    match s.team? g.team with
    | some t => wake (decide (m ≤ (s.tenantOf t.part).count k))
    | none => []
  | .monitor _ _ deadline =>
    if deadline ≤ s.now then [.mwaitDeadline gid w]
    else wake (mwaitStatus (g.lane (lowBit 64 x.mask.toNat)).monitor s.now deadline).isSome
  | .route send rt _ n _ =>
    match s.team? g.team with
    | some t => wake (s.routesRun g && s.routeWaitOver t g.core ((lanesOf x.mask).length * n) rt send)
    | none => []
  | .frame _ _ _ _ _ _ _ => wake (decide (g.frames.length < 8))
  | .handled m f => wake (g.handled m f)

/-- A parked group goes on. -/
def State.wakeUp (s : State) (gid w : Nat) : State :=
  match s.wait? gid w, s.gang? gid with
  | some x, some g =>
    match x.kind with
    | .prewait _ => s
    | .switchPark => s
    | .refill _ => s.unpark gid w false
    | .fence ord scope => if s.fenceReady gid x.mask ord scope then s.fenceWake gid w ord scope else s
    | .pageRequest _ _ => s
    | .answered action cause synd va => s.answerPage gid w action cause synd va
    | .halted _ => s.unpark gid w true
    | .semaphore dec n v => s.semWake gid w dec n v
    | .round d k _ => s.roundWake gid w d k
    | .monitor d trap deadline =>
      match mwaitStatus (g.lane (lowBit 64 x.mask.toNat)).monitor s.now deadline with
      | some st => s.mwaitWake gid w d trap st
      | none => s
    | .route send rt d n vals => s.routeWake gid w send rt d n (vals.map BitVec.toNat)
    | .frame sfr cause tinfo taddr tword rep fpstat =>
      let s : State := s.unpark gid w false
      (s.rehold g.core w s.nextId).enterFrame gid x.mask x.next rep tword sfr
        { cause := cause, tinfo := tinfo, taddr := taddr, fpstat := fpstat }
    | .handled m f => if g.handled m f then s.unpark gid w true else s
  | _, _ => s

/-! ### What may happen next -/

/-- A value in a list when a condition holds. -/
def opt {α : Type} (p : Bool) (x : α) : List α := if p then [x] else []

/-- Whether an access of lanes of a gang is being refused by a pin: they issue nothing further (09 R197). -/
def State.refusedLanes (s : State) (gid : Nat) (m : Mask) : Bool :=
  s.accesses.any (fun p => p.2.gang == gid && m.getLsbD p.2.lane && p.2.op.counts && p.2.phase == .toHome &&
    decide (0 < p.2.refusals))

/-- The pipes that a cohort's slices need, with the a-cycles that its word takes there (06 R111). -/
def Cohort.pipes (c : Cohort) : List (Nat × Nat) :=
  (List.range 4).filterMap (fun p =>
    match ofBool (bits c.mask.toNat (8 * p + 7) (8 * p) != 0) + ofBool (bits c.mask.toNat (8 * p + 39) (8 * p + 32) != 0) with
    | 0 => none
    | n => some (p, n))

/-- Whether the time has come for a word of a cohort: its pipes are free (06 R111), and every ALU result of its gang whose
latency is over has been written (07 R137). -/
def State.inTime (s : State) (g : Gang) (c : Cohort) : Bool :=
  let now := s.enabled g.core
  c.pipes.all (fun p => decide (assocGet 0 (s.core g.core).pipes p.1 ≤ now)) &&
    g.results.all (fun r => r.2.due.all (fun t => decide (now < t)))

/-- Whether a formed cohort is ready to issue its word (06 R111); the later parts of a store are no first word of a lane
(17 R335). -/
def State.wordReady (s : State) (gid : Nat) (g : Gang) (c : Cohort) : Bool :=
  !c.hold && s.inTime g c && decide (c.nextTry ≤ s.enabled g.core) && !s.refusedLanes gid c.mask && (c.done != 0 || (!s.skidWaits gid g c.mask && !s.skidDue gid g c.mask))

/-- A cohort that is ready: its core, the tick since which it has been, and its pipes. -/
structure Rival where
  core : Nat
  ready : Nat
  pipes : List Nat
deriving DecidableEq, Repr

/-- Every cohort that is ready. -/
def State.rivals (s : State) : List Rival :=
  s.gangs.flatMap (fun g =>
    if s.mayRun g.2 then
      g.2.cohorts.filterMap (fun c => if s.wordReady g.1 g.2 c.2 then some ⟨g.2.core, c.2.ready, c.2.pipes.map (·.1)⟩ else none)
    else [])

/-- The tick of the latest `yield` of lanes that have issued nothing since (06 R133). -/
def Gang.yieldedAt (g : Gang) (m : Mask) : Nat := (lanesOf m).foldl (fun n l => max n (g.lane l).yielded) 0

/-- Whether no cohort of the core that has been ready longer comes first (06 R111, R133): one that needs a pipe of this
cohort, or that was ready when this one yielded (log entry 48). -/
def Gang.firstOf (g : Gang) (c : Cohort) (rs : List Rival) : Bool :=
  rs.all (fun r => !(r.core == g.core && decide (r.ready < c.ready) &&
    (c.pipes.any (fun p => isIn r.pipes p.1) || decide (r.ready < g.yieldedAt c.mask))))

/-- What a formed cohort of a gang may do: issue its word, wait at it, or take records that are due by count. -/
def State.cohortActs (s : State) (rs : List Rival) (gid : Nat) (g : Gang) (cid : Nat) (c : Cohort) : List Act :=
  if c.hold then
    match c.args with
    | op :: args => opt (s.cmdRoom g.core op.toNat (args.map BitVec.toNat) c.order) (.engineAccept gid cid)
    | [] => opt (s.accesses.all (fun p => !(p.2.precise && p.2.gang == gid && p.2.cohort == cid))) (.settle gid cid)
  else if s.refusedLanes gid c.mask then []
  else if c.done == 0 && s.skidWaits gid g c.mask then []
  else if c.done == 0 && s.skidDue gid g c.mask then [.skidCountDeliver gid cid]
  else opt (s.inTime g c && decide (c.nextTry ≤ s.enabled g.core) && g.firstOf c rs) (.word gid cid)

/-- The steps of a gang that may not run: a `tlbi` in progress ends before the lanes of its tenant acknowledge a stop
(17 R344). -/
def State.stoppedActs (s : State) (gid : Nat) (g : Gang) : List Act :=
  if s.mayWake g && (s.team? g.team).any (fun t => (s.tenantOf t.part).ladder.any (fun x => x.hard.isSome)) then
    g.cohorts.flatMap (fun c => opt c.2.inTlbi (.word gid c.1))
  else []

/-- The steps of one gang. -/
def State.gangActs (s : State) (rs : List Rival) (gid : Nat) (g : Gang) : List Act :=
  g.results.flatMap (fun r => opt r.2.val.isSome (.resultWrite gid r.1)) ++
  (if s.mayWake g then g.waits.flatMap (fun w => s.waitAct gid g w.1 w.2) else []) ++
  (if s.mayRun g then
    g.cohorts.flatMap (fun c => s.cohortActs rs gid g c.1 c.2) ++
    (List.range (g.width / 8)).flatMap (fun k => opt (s.maySelect g k) (.cohortForm gid k))
   else s.stoppedActs gid g)

/-- The swaps of the gangs of a core on which a gang is swapped out. -/
def State.swapActs (s : State) : List Act :=
  let cores := ((s.gangs.filter (fun p => p.2.swapped)).map (fun p => p.2.core)).dedup
  cores.flatMap (fun c => (s.gangsOn c).flatMap (fun p =>
    opt (s.mayLeave p.1 p.2) (.swapOutEligible p.1) ++ opt (s.mustLeave p.1 p.2) (.swapOutForced p.1) ++
      opt (s.mayEnter p.1 p.2) (.swapIn p.1)))

/-- The step by which an access arrives at its place of execution. -/
def arriveAct (id : Nat) (x : Access) : Act :=
  if !x.first then .pinRefusalRetry id
  else if x.bounded then .roundRefetch id
  else if x.isRead then .homeReadMiss id
  else if x.isStore then .homeStoreApply id
  else .homeAtomic id

/-- The steps of one access. -/
def State.accessActs (s : State) (id : Nat) (x : Access) : List Act :=
  match x.phase with
  | .atCore => opt (s.mayLeaveCore id x) (.coreRetry id)
  | .toHome => opt (s.mayArrive id x && (!x.bounded || s.viewReady x)) (arriveAct id x)
  | .behind => opt (s.mayFollow x) (.homeStoreApply id)
  | .fill => opt (s.mayFill x) (.l1Fill id)
  | .updating cs =>
    match cs with
    | c :: _ => opt (s.orderedAt c (lineOf x.pa) x.applied) (.sharerUpdate id)
    | [] => []
  | .acked => opt (s.mayAck x) (.storeAck id)
  | .host =>
    if x.op == .store then opt (s.mayPost id x) (.storeAck id)
    else if s.laneWaits id x then []
    else opt (s.releaseReady id x) (.hostCompletion id) ++ opt (decide (x.issued + 42500 ≤ s.now)) (.hostTimeout id)
  | .reviving => []
  | .scratch => [.scratchApply id]
  | .faulted _ _ => [.storeFaultReport id]

/-- The steps of the memory system beside those of accesses. -/
def State.memoryActs (s : State) : List Act :=
  s.cores.flatMap (fun c => c.2.l1.flatMap (fun l => opt l.2.leaving (.listSplice c.1 l.1))) ++
  s.fills.flatMap (fun p => opt (s.fillTokens p).isSome (.pageFillDone p)) ++
  opt (!s.buckets.isEmpty && decide (s.refillAt ≤ s.now)) .tokenRefill ++
  s.tenants.flatMap (fun t => (List.range t.2.bcasts.length).map (fun i =>
    Act.viewBroadcast (keyLease t.1) (keyNo t.1) i))

/-- The steps of the engines of one quad. -/
def State.engineActs (s : State) (q : Nat) (x : Quad) : List Act :=
  x.copies.flatMap (fun c =>
    opt (s.copyRuns c.2 && s.copyMay c.2) (.copyBlock q c.1) ++ opt (s.copyOver c.2) (.copyComplete q c.1) ++
    (if c.2.asked.isSome && !c.2.granted then
      [.hostCompletion c.1] ++ opt (decide (c.2.since + 42500 ≤ s.now)) (.hostTimeout c.1)
     else [])) ++
  [0, 1].flatMap (fun k => opt (s.stepOf q k).isSome (.churnStep q k)) ++
  ((s.cmdsOf q).filter (s.mayRetire q)).map (fun c => Act.matrixComplete q c.uid) ++
  opt (x.pwr == 1) (.powerWaitExpire q) ++ opt (x.pwr == 2) (.quadPowerReady q)

/-- Words of static routes on their way. -/
def routeActs (k : Nat) (t : Tenant) : List Act :=
  if t.state = 3 ∨ t.state = 4 then
    t.routes.flatMap (fun r => r.2.flight.flatMap (fun f =>
      opt (!f.2.isEmpty) (.routeWordArrive (keyLease k) (keyNo k) r.1 f.1)))
  else []

/-- The steps of one dispatcher. -/
def State.dispatcherActs (s : State) (d : Dom) : List Act :=
  (List.range (s.queueCount d)).flatMap (fun q =>
    opt (s.mayTake d q) (.dispatchTake d q) ++
    opt (!(s.queueOf d q).held.isEmpty && !(s.queueOf d q).full && (s.queueOf d q).en) (.holdListDrain d q)) ++
  opt (s.dispatches d && (s.release d).isSome) (.teamRelease d) ++
  opt (s.dispatches d && (s.coopWaiter d).any (fun y => decide (y.2.takenAt + 85000 ≤ s.now))) (.coopBlock d)

/-- The domains of the machine. -/
def State.domains (s : State) : List Dom :=
  (s.tenants.filter (fun t => !isService t.1)).map (fun t => Dom.tenant (keyLease t.1) (keyNo t.1)) ++
    s.leases.map (fun l => Dom.lsq l.1)

/-- The steps of teams and launches. -/
def State.workActs (s : State) : List Act :=
  s.teams.flatMap (fun t =>
    opt (s.mayExit t.1 t.2) (.teamExit t.1) ++
    t.2.cores.flatMap (fun c => match s.launch? t.2.launch with
      | some y => opt (t.2.placed && s.chunkSize c t.2.launch y != 0) (.itemChunkDeal c t.2.launch)
      | none => [])) ++
  s.launches.flatMap (fun y => opt (s.launchOver y.1 y.2) (.successorJoin y.1))

/-- The steps of pre-emption and time-slicing of one tenant. -/
def State.tenantActs (s : State) (k : Nat) (t : Tenant) : List Act :=
  let l := keyLease k
  let n := keyNo k
  if isService k then []
  else if t.state = 4 then
    opt (s.softOver l n) (.preemptHardStop l n) ++
    (match t.ladder with
     | some x => (List.range 6).flatMap (fun c =>
        opt (x.hard.isSome && !isIn x.acks c && s.classReady l n c) (.engineStopAck l n c))
     | none => []) ++
    opt (s.mayFinishSave l n) (.saveDone l n (match t.ladder with
      | some x => (s.now - x.hard.getD s.now) / 850
      | none => 0)) ++
    opt (s.mustKill l n) (.preemptKill l n)
  else if t.state = 5 then opt (s.mayRestore l n) (.restoreDone l n)
  else if t.state = 3 then opt (s.quantumOver l n) (.quantumExpire l n)
  else []

/-- The steps of a quiesce (19 R360). -/
def State.quiesceActs (s : State) : List Act :=
  if s.failing.isEmpty then []
  else if s.quiesceWants then [.quiesceStop]
  else opt s.quiesceReady .quiesceEnd

/-- Steps that may always happen and change no result that a program can rely on: walk-ahead (08 R186) and the
eviction of a line from L2 (08 R170). -/
def State.idleActs (s : State) : List Act :=
  s.quads.flatMap (fun q => q.2.copies.flatMap (fun c => opt (s.copyRuns c.2 && c.2.stopped.isNone && c.2.xten.isSome)
    (.walkaheadTranslate q.1 c.1))) ++
  (match s.l2 with
   | [] => []
   | l :: ls => [.l2Evict ((l :: ls).getD (s.pick 21 (ls.length + 1)) l).1])

/-- Whether what arrives next from outside is a register write that must wait (12 R296, 01 R27): it stays where it is. -/
def State.inputWaits (s : State) : Bool :=
  match s.inputs with
  | .registerWrite (.tenant l n) off v :: _ => s.cfgWriteWaits l (some n) off (v % 2 ^ 64)
  | .registerWrite (.lease l) off v :: _ => s.cfgWriteWaits l none off (v % 2 ^ 64)
  | .routeDisable l n rt v :: _ => s.routeWriteWaits l n rt 0 (v % 2 ^ 63)
  | .attrEntryWrite l n i _ :: _ => s.attrWriteWaits (tkey l n) i
  | _ => false

/-- Everything that may happen next. -/
def State.acts (s : State) : List Act :=
  opt (!s.inputs.isEmpty && !s.inputWaits) .input ++
  s.accesses.flatMap (fun a => s.accessActs a.1 a.2) ++
  s.memoryActs ++
  s.quads.flatMap (fun q => s.engineActs q.1 q.2) ++
  s.tenants.flatMap (fun t => routeActs t.1 t.2) ++
  (let rs := s.rivals
   s.gangs.flatMap (fun g => s.gangActs rs g.1 g.2)) ++
  s.swapActs ++
  s.workActs ++
  s.domains.flatMap s.dispatcherActs ++
  s.tenants.flatMap (fun t => s.tenantActs t.1 t.2) ++
  s.quiesceActs ++
  s.idleActs

/-! ### One act -/

/-- A cohort has had its turn: it comes behind those that are ready, and its `yield` is over (06 R111, R133). -/
def State.queueUp (s : State) (gid cid : Nat) : State :=
  s.onGang gid (fun g =>
    match assocGet? g.cohorts cid with
    | none => g
    | some c =>
      { g.mapLanes c.mask (fun _ x => { x with yielded := 0 }) with
        cohorts := assocSet g.cohorts cid { c with ready := s.tick } })

/-- The latency of an ALU word (07 R137). -/
def latency (w : Nat) : Nat :=
  let fn := bits w 24 21
  match bits w 31 25 with
  | 0x01 => if 12 ≤ fn then 24 else 4
  | 0x18 => if fn = 12 ∨ fn = 13 then 16 else 4
  | 0x1A => 16
  | 0x20 => if fn = 5 ∨ fn = 6 ∨ 11 ≤ fn then 8 else 4
  | 0x21 => 8
  | _ => 4

/-- A word of a cohort has issued, if it has (06 R111, 07 R137): its pipes are busy, and the results of an ALU word,
numbered from n on, have a time by which they are written. -/
def State.issuedAt (t : State) (gid : Nat) (old : Gang) (c : Cohort) (n : Nat) : State :=
  match t.gang? gid with
  | none => t
  | some g =>
    if g.seq = old.seq then t
    else
      let now := t.enabled old.core
      let last := now + c.pipes.foldl (fun m p => max m p.2) 1 - 1
      let t : State := t.onCore old.core (fun x => { x with
        pipes := c.pipes.foldl (fun ps p => assocSet ps p.1 (now + p.2)) x.pipes })
      if wordClass c.word = 0 then
        t.setGang gid { g with results := g.results.map (fun r =>
          (r.1, if n ≤ r.1 && r.2.val.isSome then { r.2 with due := some (last + latency c.word) } else r.2)) }
      else t

/-- The same for what a word did. -/
def issuedOutcome (gid : Nat) (old : Gang) (c : Cohort) (n : Nat) :
    Host.Outcome State Fault Refusal → Host.Outcome State Fault Refusal
  | .next t => .next (t.issuedAt gid old c n)
  | .fault f => .fault f
  | .refused r => .refused r

/-- The word at which a cohort stands issues. -/
def State.issueWord (s : State) (gid cid : Nat) : Host.Outcome State Fault Refusal :=
  match s.gang? gid with
  | none => .next s
  | some g =>
    match assocGet? g.cohorts cid with
    | none => .next s
    | some c => issuedOutcome gid g c s.nextId (runWord c.word { s.queueUp gid cid with cur := (gid, cid) })

/-- Something arrives from outside; a word of a lane does not. -/
def State.takeInput (s : State) : Host.Outcome State Fault Refusal :=
  match s.inputs with
  | [] => .next s
  | i :: rest => if i.isWord then .next { s with inputs := rest } else exec i { s with inputs := rest }

/-- An agent acts. -/
def State.perform (s : State) (a : Act) : Host.Outcome State Fault Refusal :=
  match a with
  | .input => s.takeInput
  | .word g c => s.issueWord g c
  | .settle g c => .next ((s.queueUp g c).settleHold g c)
  | .wake g w => .next (s.wakeUp g w)
  | .cohortForm g k => execCohortForm g k s
  | .prewaitRelease g w => execPrewaitRelease g w s
  | .switchParkEnd g w => execSwitchParkEnd g w s
  | .resultWrite g r => execResultWrite g r s
  | .storeFaultReport i => execStoreFaultReport i s
  | .skidCountDeliver g c => execSkidCountDeliver g c s
  | .swapOutEligible g => execSwapOutEligible g s
  | .swapOutForced g => execSwapOutForced g s
  | .swapIn g => execSwapIn g s
  | .homeReadMiss i => execHomeReadMiss i s
  | .roundRefetch i => execRoundRefetch i s
  | .homeStoreApply i => execHomeStoreApply i s
  | .homeAtomic i => execHomeAtomic i s
  | .pinRefusalRetry i => execPinRefusalRetry i s
  | .coreRetry i => .next (s.coreRetry i)
  | .l1Fill i => execL1Fill i s
  | .sharerUpdate i => execSharerUpdate i s
  | .storeAck i => execStoreAck i s
  | .scratchApply i => .next (s.scratchApply i)
  | .listSplice c l => execListSplice c l s
  | .l2Evict l => execL2Evict l s
  | .pageFillDone p => execPageFillDone p s
  | .tokenRefill => execTokenRefill s
  | .viewBroadcast l n i => execViewBroadcast l n i s
  | .mwaitDeadline g w => execMwaitDeadline g w s
  | .hostCompletion i => execHostCompletion i true s
  | .hostTimeout i => execHostTimeout i s
  | .walkaheadTranslate q u => execWalkaheadTranslate q u s
  | .engineAccept g c => execEngineAccept g c (s.queueUp g c)
  | .copyBlock q u => execCopyBlock q u s
  | .copyComplete q u => execCopyComplete q u s
  | .churnStep q k => execChurnStep q k s
  | .matrixComplete q u => execMatrixComplete q u s
  | .routeWordArrive l n r g => execRouteWordArrive l n r g s
  | .dispatchTake d q => execDispatchTake d q s
  | .teamRelease d => execTeamRelease d s
  | .coopBlock d => execCoopBlock d s
  | .holdListDrain d q => execHoldListDrain d q s
  | .itemChunkDeal c l => execItemChunkDeal c l s
  | .teamExit t => execTeamExit t s
  | .successorJoin l => execSuccessorJoin l s
  | .preemptHardStop l n => execPreemptHardStop l n s
  | .engineStopAck l n c => execEngineStopAck l n c s
  | .saveDone l n us => execSaveDone l n us s
  | .preemptKill l n => execPreemptKill l n s
  | .restoreDone l n => execRestoreDone l n s
  | .quantumExpire l n => execQuantumExpire l n s
  | .powerWaitExpire q => execPowerWaitExpire q s
  | .quadPowerReady q => execQuadPowerReady q s
  | .quiesceStop => .next s.quiesceStop
  | .quiesceEnd => .next s.quiesceEnd

/-- Time passes before a step: the tick advances, a-cycles pass, and the health words of leases count the cycles that
capped quads lose (00 R3, R4; 19 R374). -/
def State.passTime (s : State) : State :=
  let now := s.now + Config.freeElapsed (s.tick + 1)
  { s with
    tick := s.tick + 1
    now := now
    leases := s.leases.map (fun l =>
      (l.1, (s.quads.filter (fun q => q.2.cap != 0 && isIn l.2.quads q.1)).foldl (fun x q =>
        x.countHealth 5 ((now - s.now) - issueCycles q.2.cap s.now now)) l.2)) }

/-- One of several acts, as a free choice; with none the machine is idle. -/
def State.choose (s : State) (as : List Act) : Host.Outcome State Fault Refusal :=
  match as with
  | [] => .next s
  | [a] => s.perform a
  | a :: b :: rest => s.perform ((a :: b :: rest).getD (s.pick 20 (rest.length + 2)) a)

end Sys2Proof.Machine
end

