-- ==== Sys2Proof/Machine/Step.lean ====
section
/-! DEFINITION. One step of the machine, and a state in which a given word is the next to issue. -/
namespace Sys2Proof.Machine

/-- One step: time passes, then one agent that may act does (log entry 1). -/
def step (s : State) : Host.Outcome State Fault Refusal := s.passTime.choose s.passTime.acts

/-- The machine with a team of the lease service queue on core 0 whose one gang of 16 lanes has formed a cohort that
stands at this word, of a clause of two words the second of which is `nop` (log entry 37). -/
def State.withFetchWord (s : State) (_nbits w : Nat) : State :=
  let t := s.nextId
  { s with
    nextId := t + 3
    teams := assocSet s.teams t
      { launch := 0, t := 0, lease := 0, tenant := none, xten := none, core := 0, paired := false, level := 2 }
    gangs := assocSet s.gangs (t + 1)
      { team := t, g := 0, core := 0, slot := 0, width := 16, nregs := 16
        lanes := List.replicate 16 { pc := ⟨0, 0⟩, level := 2 }
        cohorts := [(t + 2, { mask := 0xFFFF, hdr := 0, count := 2, cls := wordClass w % 4, tail := true, switches := 0,
                              words := [w, 0], span := 0xFFFF })] } }

end Sys2Proof.Machine
end

