-- ==== Sys2Proof/Safety.lean ====
section
/-! DEFINITION. The terms in which claims are stated: what counts as a safe run, the canonical form of every memory, what
a word that touches one gang leaves alone, and the results that a word leaves outstanding. -/
namespace Sys2Proof.Machine

/-! ### Runs -/

/-- A step answers a next state. -/
def State.goesOn (s : State) : Prop := ∃ t, step s = .next t

/-- Every step keeps a property of states. -/
def Kept (p : State → Prop) : Prop := ∀ s t, p s → step s = .next t → p t

/-- States that some run from a state reaches. -/
inductive Reaches (s : State) : State → Prop where
  | here : Reaches s s
  | next {t u : State} : Reaches s t → step t = .next u → Reaches s u

/-- A run is safe for a property when every state that it reaches has it. -/
def SafeFor (p : State → Prop) (s : State) : Prop := ∀ t, Reaches s t → p t

/-- The memories that any access of the machine may change, DRAM and the host's pages, have their canonical form. -/
def State.canon (s : State) : Prop := memCanon s.mem = true ∧ memCanon s.host = true

/-- The C-store of an array, what it holds for partitions that it does not serve now, and what `acrd` may return from before
have their canonical form. -/
abbrev Array.canonTiles (a : Array) : Prop :=
  memCanon a.cstore = true ∧ (∀ p ∈ a.parked, memCanon p.2.cstore = true) ∧ ∀ w ∈ a.was, memCanon w.2.2 = true

/-- The buffers of every core, and every C-store with those of saved contexts, have their canonical form. -/
def State.canonBuffers (s : State) : Prop :=
  (∀ c ∈ s.cores, memCanon c.2.abuf = true ∧ memCanon c.2.wbuf = true) ∧
  (∀ q ∈ s.quads, ∀ y ∈ q.2.arrays, y.2.canonTiles) ∧
  ∀ t ∈ s.tenants, ∀ q ∈ t.2.saved, ∀ y ∈ q.2.arrays, y.2.canonTiles

/-! ### Frames -/

/-- Two lanes differ at most in the counter, the repetition and whether they are parked. -/
def Lane.sameBut (x y : Lane) : Prop := { y with pc := x.pc, rep := x.rep, parked := x.parked, sw := x.sw } = x

/-- A step of a word that works on registers alone, seen from outside its gang: nothing of the machine changes but that
gang, the supply of identifiers and the counters of tenants; in the gang no lane changes but for where it stands, and
frames, stack and barrier stay. Every byte of every memory and buffer reads as before. -/
structure GangStep (s t : State) (gid : Nat) : Prop where
  rest : { t with gangs := s.gangs, nextId := s.nextId, tenants := s.tenants } = s
  mem : ∀ x, memByte t.mem x = memByte s.mem x
  host : ∀ x, memByte t.host x = memByte s.host x
  abuf : ∀ c x, memByte (t.core c).abuf x = memByte (s.core c).abuf x
  wbuf : ∀ c x, memByte (t.core c).wbuf x = memByte (s.core c).wbuf x
  others : ∀ k, k ≠ gid → t.gang? k = s.gang? k
  tenants : ∀ k, { t.tenantOf k with counters := (s.tenantOf k).counters } = s.tenantOf k
  lanes : ∀ g, s.gang? gid = some g → ∃ h, t.gang? gid = some h ∧ (∀ l, (g.lane l).sameBut (h.lane l)) ∧
    h.frames = g.frames ∧ h.stack = g.stack ∧ h.gone = g.gone ∧ h.arrived = g.arrived ∧ h.due = g.due ∧
    h.nregs = g.nregs ∧ h.width = g.width ∧ h.team = g.team ∧ h.core = g.core ∧ h.floors = g.floors

/-! ### Results -/

/-- A lane has a result of a register outstanding, with its value (06 R114). -/
def State.due (t : State) (gid l r seq : Nat) (v : Word) : Prop :=
  ∃ g, t.gang? gid = some g ∧ ∃ id long isLoad pair, (id, (⟨l, r, seq, some v, long, isLoad, pair, none⟩ : Pending)) ∈ g.results

/-- The word that a cohort stands at has issued, and its results are outstanding: for each lane the values that `out`
gives, results that were outstanding before are still so, and there are no others. -/
def Wrote (t : State) (a : Acting) (out : Nat → List (Nat × Word)) : Prop :=
  (∀ l ∈ a.lanes, ∀ p ∈ out l, t.due a.gid l p.1 (a.gang.seq + 1) p.2) ∧
  ∃ h, t.gang? a.gid = some h ∧ h.seq = a.gang.seq + 1 ∧ (∀ r ∈ a.gang.results, r ∈ h.results) ∧
    ∀ r ∈ h.results, r ∈ a.gang.results ∨
      ∃ l ∈ a.lanes, ∃ p ∈ out l, r.2.lane = l ∧ r.2.reg = p.1 ∧ r.2.val = some p.2

/-- V(L,r) and P(L,r) of a lane of the acting gang (00 R11). -/
def V (s : State) (a : Acting) (l : Nat) (r : Fin 128) : Word := s.reg a.gang l r.val
def P (s : State) (a : Acting) (l : Nat) (r : Fin 128) : Nat := s.pair a.gang l r.val

/-- An instruction answers a next state in which its results are outstanding, and changes nothing else outside its
gang. -/
def Gives (i : Instr) (out : State → Acting → Nat → List (Nat × Word)) : Prop :=
  ∀ s a, s.acting = some a → ∃ t, exec i s = .next t ∧ GangStep s t a.gid ∧ Wrote t a (out s a)

/-- One 32-bit result for each lane. -/
def GivesWord (i : Instr) (d : Fin 128) (f : State → Acting → Nat → Word) : Prop :=
  Gives i (fun s a l => [(d.val, f s a l)])

/-- One pair result for each lane: the low word in d, the high word in d + 1 (00 R11). -/
def GivesPair (i : Instr) (d : Fin 128) (f : State → Acting → Nat → Int) : Prop :=
  Gives i (fun s a l => [(d.val, BitVec.ofInt 32 (f s a l)), (d.val + 1, BitVec.ofInt 32 (f s a l / 2 ^ 32))])

/-- Quotient and remainder as the pseudocode of 07 R139 gives them. -/
def quotRem (signed : Bool) (a b : Word) : Int × Int :=
  let x : Int := if signed then a.toInt else a.toNat
  let y : Int := if signed then b.toInt else b.toNat
  if y = 0 then (0xFFFFFFFF, x)
  else if signed = true ∧ x = -2 ^ 31 ∧ y = -1 then (-2 ^ 31, 0)
  else (x.tdiv y, x - x.tdiv y * y)

/-- The least or the greatest of some numbers and a bound that none of them passes. -/
def least (xs : List Int) (bound : Int) : Int := xs.foldl (fun x y => if y < x then y else x) bound
def greatest (xs : List Int) (bound : Int) : Int := xs.foldl (fun x y => if x < y then y else x) bound

/-- The source lane of a shuffle and what it gives (07 R161). -/
def shuffled (s : State) (x : Acting) (l : Nat) (a : Fin 128) (src : Int) : Word :=
  if 0 ≤ src ∧ src < x.gang.width ∧ src.toNat ∈ x.lanes then V s x src.toNat a else V s x l a

/-- A floating-point word whose lanes are governed by the FPCR that `c` names. When no lane raises an exception that is
enabled, each lane's result is outstanding; when every lane does, nothing is, and the whole cohort takes the trap 0x18,
with FPSTAT of each lane (02 R39, 07 R136). -/
def FpWordBy (c : Acting → Nat → Nat) (i : Instr) (d : Fin 128) (f : State → Acting → Nat → Nat → Nat × FpFlags) :
    Prop :=
  ∀ s a, s.acting = some a →
    ((∀ l ∈ a.lanes, fpEnabled (c a l) (f s a l (c a l)).2 = 0) →
      ∃ t, exec i s = .next t ∧ GangStep s t a.gid ∧
        Wrote t a (fun l => [(d.val, BitVec.ofNat 32 (f s a l (c a l)).1)])) ∧
    ((∀ l ∈ a.lanes, fpEnabled (c a l) (f s a l (c a l)).2 ≠ 0) → a.co.mask ≠ 0 →
      exec i s = .next (s.issue.trap a.co.mask
        { cause := 0x18, fpstat := a.lanes.map (fun l => (l, flagsNat (f s a l (c a l)).2)) }).finish)

/-- A floating-point word: each lane's own FPCR governs it. -/
def FpWord (i : Instr) (d : Fin 128) (f : State → Acting → Nat → Nat → Nat × FpFlags) : Prop :=
  FpWordBy (fun a l => (a.gang.lane l).fpcr) i d f

/-- A state is another one with a change made to the lanes of a mask in one gang. -/
def LanesChanged (u t : State) (gid : Nat) (m : Mask) (f : Nat → Lane → Lane) : Prop :=
  t = u.onGang gid (fun g => g.mapLanes m f)

/-- An operation on two or three FP32 elements in V(L,a), V(L,b) and the old V(L,d), under RM and FZ. -/
def fp32Op (a b d : Fin 128) (f : RMode → Bool → Nat → Nat → Nat → Nat × FpFlags) :
    State → Acting → Nat → Nat → Nat × FpFlags :=
  fun s x l c => f (fpcrRm c) (fpcrFz c) (V s x l a).toNat (V s x l b).toNat (V s x l d).toNat

/-- An operation on the 16-bit elements of both slots, with the union of their exceptions (07 R152). -/
def bothSlots (f : RMode → Nat → Nat → Nat → Nat × FpFlags) : RMode → Bool → Nat → Nat → Nat → Nat × FpFlags :=
  fun m _ x y z =>
    let lo := f m (bits x 15 0) (bits y 15 0) (bits z 15 0)
    let hi := f m (bits x 31 16) (bits y 31 16) (bits z 31 16)
    (hi.1 * 2 ^ 16 + lo.1, orFlags lo.2 hi.2)

/-- An exact result of operands, rounded once: invalid when an operand is a signalling NaN, and the exceptions of the
operation (07 R146). -/
def onceRounded (f : Fmt) (m : RMode) (fz : Bool) (vs : List FVal) (r : FVal × Bool) : Nat × FpFlags :=
  ((roundFz f m fz r.1).1, orFlags { invalid := vs.any isSignal || r.2 } (roundFz f m fz r.1).2)

/-! ### Where lanes stand -/

/-- Nothing of the machine changes but one gang, the supply of identifiers and the counters of tenants: no memory, no
buffer, no other gang and no special register of another one. -/
structure GangOnly (s t : State) (gid : Nat) : Prop where
  rest : { t with gangs := s.gangs, nextId := s.nextId, tenants := s.tenants } = s
  others : ∀ k, k ≠ gid → t.gang? k = s.gang? k
  tenants : ∀ k, { t.tenantOf k with counters := (s.tenantOf k).counters } = s.tenantOf k

/-- A gang of the machine after a step. -/
def Then (t : State) (gid : Nat) (p : Gang → Prop) : Prop := ∃ h, t.gang? gid = some h ∧ p h

/-- The lanes of the cohort stand at a counter each, and the other lanes of the gang where they stood. -/
def Stand (x : Acting) (h : Gang) (pc : Nat → Pc) : Prop :=
  ∀ l, l < x.gang.lanes.length → (h.lane l).pc = if l ∈ x.lanes then pc l else (x.gang.lane l).pc

/-- The acting cohort lies within its gang, and is not inside a repetition. -/
def Acting.plain (x : Acting) : Prop := (∀ l ∈ x.lanes, l < x.gang.lanes.length) ∧ x.co.rep = none

/-- A lane's general registers other than some are as they were. -/
def RegsKept (x y : Lane) (but : List Nat) : Prop := ∀ r, r ∉ but → assocGet? y.regs r = assocGet? x.regs r

/-- A word of the acting cohort issues and leaves no result outstanding of its own. -/
def NoResult (t : State) (x : Acting) : Prop := Wrote t x (fun _ => [])

/-- Lanes of the acting cohort have taken a trap as one sub-gang (17 R321 to R325): a frame of theirs saves the word's
counter, its repetition index and its bits, the cause with its registers, and the LEVEL they ran at; they stand at the
vector of the handler's level, at that level. -/
def TookTrap (s t : State) (x : Acting) (m : Mask) (cause tinfo taddr : Nat) : Prop :=
  let lvl := max (x.gang.lane (lowBit 64 m.toNat)).level (causeOwner cause tinfo)
  Then t x.gid (fun h => ∃ id f, (id, f) ∈ h.frames ∧ f.cause = cause ∧ f.tinfo = tinfo ∧ f.taddr = taddr ∧
    f.mask = m ∧ f.tpc = x.pc ∧ f.tword = x.co.word ∧ f.rep = x.co.repIdx ∧ f.sfr = false ∧ f.level = lvl ∧
    f.prev = (x.gang.lane (lowBit 64 m.toNat)).level ∧
    ∀ l, m.getLsbD l = true → l < x.gang.lanes.length →
      (h.lane l).frame = some id ∧ (h.lane l).level = lvl ∧ (h.lane l).pc = ⟨s.vector x.team lvl, 0⟩ ∧
      (h.lane l).rep = 0 ∧ (h.lane l).regs = (x.gang.lane l).regs)

/-- A frame is free for lanes outside every handler (17 R322, R324). -/
def Acting.mayTrap (x : Acting) : Prop := (∀ l ∈ x.lanes, (x.gang.lane l).frame = none) ∧ x.gang.frames.length < 8

/-! ### Memory words -/

/-- An effective address: a pair and a scaled signed immediate, modulo 2^64 (09 R193). -/
def addrOf (s : State) (x : Acting) (l : Nat) (a : Fin 128) (i : Fin 2048) (size : Nat) : Nat :=
  ((P s x l a + (BitVec.ofNat 11 i.val).toInt * size) % 2 ^ 64).toNat

/-- The number in n registers of a lane, the first lowest. -/
def regsNat (s : State) (x : Acting) (l d : Nat) : Nat → Nat
  | 0 => 0
  | n + 1 => (s.reg x.gang l d).toNat + 2 ^ 32 * regsNat s x l (d + 1) n

/-- What a load of some bytes gives its registers (09 R196). -/
def loaded (size : Nat) (signed : Bool) (d : Nat) (bs : List Byte) : List (Nat × Word) :=
  if size < 4 ∧ signed = true then [(d, BitVec.ofInt 32 (BitVec.ofNat (8 * size) (ofLeBytes bs)).toInt)]
  else (List.range ((size + 3) / 4)).map (fun j => (d + j, BitVec.ofNat 32 (ofLeBytes bs % 2 ^ (8 * size) / 2 ^ (32 * j))))

/-- An access of one lane has begun: on its way to its home, or waiting in its core (11 R263, R264). -/
def Begun (t : State) (x : Acting) (l : Nat) (y : Xlat) (phase : Phase) (p : Access → Prop) : Prop :=
  ∃ id acc, assocGet? t.accesses id = some acc ∧ acc.gang = x.gid ∧ acc.lane = l ∧ acc.core = x.gang.core ∧
    acc.ten = x.team.part ∧ acc.pa = y.pa ∧ acc.kind = 0 ∧ acc.mode = y.mode ∧ acc.phase = phase ∧ p acc

/-- A write of a core to bytes that an access is about to read is on its way to the home, so the bytes are pending
(11 R264). -/
def WritePending (u : State) (core pa size : Nat) : Prop :=
  ∃ q w, (q, w) ∈ u.accesses ∧ q < u.nextId ∧ w.op = .store ∧ w.kind = 0 ∧ w.core = core ∧ w.phase = .toHome ∧
    w.pa < pa + size ∧ pa < w.pa + w.size

/-- The cohort waits at its word for an access of one lane, whose registers are outstanding without a value. -/
def AwaitsAccess (t : State) (x : Acting) (l : Nat) (d n : Nat) (acc : Access) : Prop :=
  acc.precise = true ∧ acc.cohort = x.cid ∧ acc.dst.length = n ∧ Then t x.gid (fun h =>
    (∀ j, j < n → (acc.dst.getD j 0, (⟨l, d + j, x.gang.seq + 1, none, false, true, false, none⟩ : Pending)) ∈ h.results) ∧
    (∀ k, (h.lane k).regs = (x.gang.lane k).regs) ∧
    ∃ co, assocGet? h.cohorts x.cid = some co ∧ co.hold = true ∧ co.idx = x.co.idx ∧ co.mask = x.co.mask)

/-- The new value of an atomic by its number in the order of the table of 09 R206. -/
def atomicResult (fn : Nat) (o y c : Word) : Word :=
  match fn with
  | 0 => o + y
  | 1 => BitVec.ofInt 32 (min o.toInt y.toInt)
  | 2 => BitVec.ofInt 32 (max o.toInt y.toInt)
  | 3 => BitVec.ofNat 32 (min o.toNat y.toNat)
  | 4 => BitVec.ofNat 32 (max o.toNat y.toNat)
  | 5 => o &&& y
  | 6 => o ||| y
  | 7 => o ^^^ y
  | 8 => y
  | 9 => if o = c then y else o
  | _ => BitVec.ofNat 32 (fround .fp32 .rne false (addVal .rne (fdecode .fp32 o.toNat) (fdecode .fp32 y.toNat)).1).1

end Sys2Proof.Machine
end

