-- ==== Sys2Proof/Certificates/Slice0/Obligations.lean ====
section
/-! DEFINITION. The statements about the machine. The docstring of each names the rules of spec/ that it formalises. A
word of the ALU leaves its results outstanding, with their values fixed at issue; `GangSteps` says when they reach
their registers (06 R114). -/
section
open Sys2Proof Sys2Proof.Machine

/-! ### Integer words -/

/-- 07 R138, R139: the sixteen instructions of major 0x01, every lane of the cohort, every operand. -/
def Obligations.IntegerArithmetic : Prop :=
  ∀ d a b : Fin 128,
    GivesWord (.iadd d a b) d (fun s x l => BitVec.ofInt 32 ((V s x l a).toInt + (V s x l b).toInt)) ∧
    GivesWord (.isub d a b) d (fun s x l => BitVec.ofInt 32 ((V s x l a).toInt - (V s x l b).toInt)) ∧
    GivesWord (.imul d a b) d (fun s x l => BitVec.ofInt 32 ((V s x l a).toInt * (V s x l b).toInt)) ∧
    GivesWord (.imulh d a b) d (fun s x l => BitVec.ofInt 32 ((V s x l a).toInt * (V s x l b).toInt / 2 ^ 32)) ∧
    GivesWord (.umulh d a b) d (fun s x l => BitVec.ofNat 32 ((V s x l a).toNat * (V s x l b).toNat / 2 ^ 32)) ∧
    GivesWord (.imad d a b) d (fun s x l =>
      BitVec.ofInt 32 ((V s x l a).toInt * (V s x l b).toInt + (V s x l d).toInt)) ∧
    GivesWord (.imin d a b) d (fun s x l => BitVec.ofInt 32 (min (V s x l a).toInt (V s x l b).toInt)) ∧
    GivesWord (.imax d a b) d (fun s x l => BitVec.ofInt 32 (max (V s x l a).toInt (V s x l b).toInt)) ∧
    GivesWord (.umin d a b) d (fun s x l => BitVec.ofNat 32 (min (V s x l a).toNat (V s x l b).toNat)) ∧
    GivesWord (.umax d a b) d (fun s x l => BitVec.ofNat 32 (max (V s x l a).toNat (V s x l b).toNat)) ∧
    GivesWord (.iabs d a) d (fun s x l => BitVec.ofNat 32 (V s x l a).toInt.natAbs) ∧
    GivesWord (.ineg d a) d (fun s x l => BitVec.ofInt 32 (0 - (V s x l a).toInt)) ∧
    GivesWord (.idiv d a b) d (fun s x l => BitVec.ofInt 32 (quotRem true (V s x l a) (V s x l b)).1) ∧
    GivesWord (.udiv d a b) d (fun s x l => BitVec.ofInt 32 (quotRem false (V s x l a) (V s x l b)).1) ∧
    GivesWord (.irem d a b) d (fun s x l => BitVec.ofInt 32 (quotRem true (V s x l a) (V s x l b)).2) ∧
    GivesWord (.urem d a b) d (fun s x l => BitVec.ofInt 32 (quotRem false (V s x l a) (V s x l b)).2)

/-- 07 R140, R141: the sixteen instructions of major 0x02. -/
def Obligations.LogicAndShifts : Prop :=
  ∀ d a b : Fin 128,
    GivesWord (.andv d a b) d (fun s x l => V s x l a &&& V s x l b) ∧
    GivesWord (.orv d a b) d (fun s x l => V s x l a ||| V s x l b) ∧
    GivesWord (.xorv d a b) d (fun s x l => V s x l a ^^^ V s x l b) ∧
    GivesWord (.andn d a b) d (fun s x l => V s x l a &&& ~~~V s x l b) ∧
    GivesWord (.orn d a b) d (fun s x l => V s x l a ||| ~~~V s x l b) ∧
    GivesWord (.xnor d a b) d (fun s x l => ~~~(V s x l a ^^^ V s x l b)) ∧
    GivesWord (.shl d a b) d (fun s x l => BitVec.ofNat 32 ((V s x l a).toNat * 2 ^ (V s x l b).toNat)) ∧
    GivesWord (.shr d a b) d (fun s x l => BitVec.ofNat 32 ((V s x l a).toNat / 2 ^ (V s x l b).toNat)) ∧
    GivesWord (.sar d a b) d (fun s x l => BitVec.ofInt 32 ((V s x l a).toInt / 2 ^ (V s x l b).toNat)) ∧
    GivesWord (.rotl d a b) d (fun s x l =>
      V s x l a <<< ((V s x l b).toNat % 32) ||| V s x l a >>> (32 - (V s x l b).toNat % 32)) ∧
    GivesWord (.popc d a) d (fun s x l =>
      BitVec.ofNat 32 ((List.range 32).filter (fun i => (V s x l a).getLsbD i)).length) ∧
    GivesWord (.clz d a) d (fun s x l =>
      BitVec.ofNat 32 (((List.range 32).find? (fun i => (V s x l a).getLsbD (31 - i))).getD 32)) ∧
    GivesWord (.ctz d a) d (fun s x l =>
      BitVec.ofNat 32 (((List.range 32).find? (fun i => (V s x l a).getLsbD i)).getD 32)) ∧
    GivesWord (.brev d a) d (fun s x l => (V s x l a).reverse) ∧
    GivesWord (.sel d a b) d (fun s x l => if V s x l d ≠ 0 then V s x l a else V s x l b) ∧
    GivesWord (.mov d a) d (fun s x l => V s x l a)

/-- 07 R142, R145: what each condition code compares, for `icmp` and `icmpi`, a code above 9 being no word; and the bit
fields, as their pseudocode gives them. -/
def Obligations.ComparesAndBitFields : Prop :=
  ((∀ c : Fin 16, ∀ d a b : Fin 128,
    let holds : Word → Word → Prop := fun p q => match c.val with
      | 0 => p = q
      | 1 => p ≠ q
      | 2 => p.toInt < q.toInt
      | 3 => p.toInt ≤ q.toInt
      | 4 => p.toInt > q.toInt
      | 5 => p.toInt ≥ q.toInt
      | 6 => p.toNat < q.toNat
      | 7 => p.toNat ≤ q.toNat
      | 8 => p.toNat > q.toNat
      | _ => p.toNat ≥ q.toNat
    c.val ≤ 9 →
      (∃ f, GivesWord (.icmp c d a b) d f ∧ ∀ s x l,
        (holds (V s x l a) (V s x l b) → f s x l = 0xFFFFFFFF) ∧ (¬ holds (V s x l a) (V s x l b) → f s x l = 0)) ∧
      ∀ i : Fin 128, ∃ f, GivesWord (.icmpi d a c i) d f ∧ ∀ s x l,
        let q : Word := (BitVec.ofNat 7 i.val).signExtend 32
        (holds (V s x l a) q → f s x l = 0xFFFFFFFF) ∧ (¬ holds (V s x l a) q → f s x l = 0)) ∧
  ∀ c : Fin 16, 9 < c.val → ∀ d a b : Fin 128, (Instr.icmp c d a b).defect ≠ none ∧ (Instr.icmpi d a c b).defect ≠ none) ∧
  ∀ (d a : Fin 128) (u : Fin 2) (p n : Fin 32),
    let len := min (n.val + 1) (32 - p.val)
    let field : Word → Nat := fun v => v.toNat / 2 ^ p.val % 2 ^ len
    GivesWord (.bfx d a u p n) d (fun s x l =>
      if u = 1 ∧ 2 ^ (len - 1) ≤ field (V s x l a) then BitVec.ofInt 32 (field (V s x l a) - 2 ^ len)
      else BitVec.ofNat 32 (field (V s x l a))) ∧
    ∃ f, GivesWord (.bfi d a u p n) d f ∧ ∀ s x l i,
      (f s x l).getLsbD i =
        if p.val ≤ i ∧ i < p.val + len then (V s x l a).getLsbD (i - p.val)
        else if u = 1 then false else (V s x l d).getLsbD i

/-- 07 R143, R144: the address pairs, modulo 2^64, and the immediate forms. -/
def Obligations.AddressPairsAndImmediates : Prop :=
  (∀ d a b : Fin 128,
    GivesPair (.aadd d a b) d (fun s x l => P s x l a + (V s x l b).toInt) ∧
    GivesPair (.aaddz d a b) d (fun s x l => P s x l a + (V s x l b).toNat) ∧
    GivesPair (.asub d a b) d (fun s x l => (P s x l a : Int) - P s x l b) ∧
    GivesPair (.amov d a) d (fun s x l => P s x l a) ∧
    GivesWord (.acmpeq d a b) d (fun s x l => if P s x l a = P s x l b then 0xFFFFFFFF else 0) ∧
    GivesWord (.acmplt d a b) d (fun s x l => if P s x l a < P s x l b then 0xFFFFFFFF else 0) ∧
    GivesPair (.ashl d a b) d (fun s x l => P s x l a * 2 ^ (V s x l b).toNat) ∧
    GivesPair (.amul d a b) d (fun s x l => (V s x l a).toInt * (V s x l b).toInt) ∧
    ∀ i : Fin 2048, GivesPair (.aaddi d a i) d (fun s x l => P s x l a + (BitVec.ofNat 11 i.val).toInt)) ∧
  ∀ (d a : Fin 128) (i : Fin 2048),
    GivesWord (.iaddi d a i) d (fun s x l => V s x l a + (BitVec.ofNat 11 i.val).signExtend 32) ∧
    GivesWord (.andi d a i) d (fun s x l => V s x l a &&& (BitVec.ofNat 11 i.val).signExtend 32) ∧
    GivesWord (.ori d a i) d (fun s x l => V s x l a ||| (BitVec.ofNat 11 i.val).signExtend 32) ∧
    GivesWord (.xori d a i) d (fun s x l => V s x l a ^^^ (BitVec.ofNat 11 i.val).signExtend 32) ∧
    GivesWord (.shli d a i) d (fun s x l => BitVec.ofNat 32 ((V s x l a).toNat * 2 ^ i.val)) ∧
    GivesWord (.shri d a i) d (fun s x l => BitVec.ofNat 32 ((V s x l a).toNat / 2 ^ i.val)) ∧
    GivesWord (.sari d a i) d (fun s x l => BitVec.ofInt 32 ((V s x l a).toInt / 2 ^ i.val)) ∧
    GivesWord (.imuli d a i) d (fun s x l => V s x l a * (BitVec.ofNat 11 i.val).signExtend 32) ∧
    (∀ k : Fin 262144, GivesWord (.movi d k) d (fun _ _ _ => (BitVec.ofNat 18 k.val).signExtend 32)) ∧
    ∀ k : Fin 65536, GivesWord (.movh d k) d (fun s x l =>
      BitVec.ofNat 16 k.val ++ (V s x l d).extractLsb' 0 16)

/-- 07 R153, R158: the integer dot products, the narrowing of integers, and the conversion of a sum-range value. -/
def Obligations.DotsAndNarrowing : Prop :=
  (∀ d a b : Fin 128,
    GivesWord (.dp4i d a b) d (fun s x l =>
      let t := fun j => ((V s x l a).extractLsb' (8 * j) 8).toInt * ((V s x l b).extractLsb' (8 * j) 8).toInt
      BitVec.ofInt 32 ((V s x l d).toInt + t 0 + t 1 + t 2 + t 3)) ∧
    GivesWord (.dp4n d a b) d (fun s x l =>
      let t := fun j => (((V s x l a).extractLsb' (8 * j) 8).toNat : Int) * ((V s x l b).extractLsb' (8 * j) 8).toInt
      BitVec.ofInt 32 ((V s x l d).toInt + t 0 + t 1 + t 2 + t 3))) ∧
  ∀ d a : Fin 128,
    GivesWord (.sx8 d a) d (fun s x l => ((V s x l a).extractLsb' 0 8).signExtend 32) ∧
    GivesWord (.sx16 d a) d (fun s x l => ((V s x l a).extractLsb' 0 16).signExtend 32) ∧
    GivesWord (.sat8 d a) d (fun s x l => BitVec.ofInt 32 (max (-128) (min 127 (V s x l a).toInt))) ∧
    GivesWord (.satz8 d a) d (fun s x l => BitVec.ofInt 32 (max 0 (min 255 (V s x l a).toInt))) ∧
    GivesWord (.sat16 d a) d (fun s x l => BitVec.ofInt 32 (max (-32768) (min 32767 (V s x l a).toInt))) ∧
    GivesWord (.satz16 d a) d (fun s x l => BitVec.ofInt 32 (max 0 (min 65535 (V s x l a).toInt))) ∧
    ∀ q : Fin 64, FpWord (.fxf d a q) d (fun s x l c =>
      let v := (BitVec.ofNat 64 (P s x l a)).toInt
      roundFz .fp32 (fpcrRm c) (fpcrFz c) (.fin (v < 0) v.natAbs (-(q.val : Int))))

/-! ### Floating-point words -/

/-- 07 R146, R147, R156: the words that work on bit patterns raise nothing, whatever FPCR holds. `n2f` is exact. -/
def Obligations.BitPatternWords : Prop :=
  ∀ d a b : Fin 128,
    GivesWord (.fabs d a) d (fun s x l => BitVec.ofNat 32 ((V s x l a).toNat % 2 ^ 31)) ∧
    GivesWord (.fneg d a) d (fun s x l => BitVec.ofNat 32 ((V s x l a).toNat + 2 ^ 31)) ∧
    GivesWord (.fcpsgn d a b) d (fun s x l =>
      BitVec.ofNat 32 ((V s x l a).toNat % 2 ^ 31 + (V s x l b).toNat / 2 ^ 31 * 2 ^ 31)) ∧
    GivesWord (.fclass d a) d (fun s x l =>
      let v := (V s x l a).toNat
      let e := v / 2 ^ 23 % 2 ^ 8
      let m := v % 2 ^ 23
      let neg := v / 2 ^ 31 = 1
      BitVec.ofNat 32 (2 ^ (
        if e = 255 then (if m = 0 then (if neg then 0 else 7) else if m < 2 ^ 22 then 8 else 9)
        else if e = 0 then (if m = 0 then (if neg then 3 else 4) else (if neg then 2 else 5))
        else (if neg then 1 else 6)))) ∧
    ∀ (k : Fin 4) (j : Fin 32), (Instr.n2f d a k j).defect = none →
      GivesWord (.n2f d a k j) d (fun s x l =>
        let w := match k.val with
          | 0 => 8
          | 1 => 4
          | 2 => 2
          | _ => 1
        let v : Int := if k = 3 then 1 - 2 * ((V s x l a).toNat / 2 ^ j.val % 2 : Nat)
          else (BitVec.ofNat w ((V s x l a).toNat / 2 ^ (w * j.val))).toInt
        BitVec.ofNat 32 (fround .fp32 .rne false (.fin (v < 0) v.natAbs 0)).1)

/-- 07 R146: each exact result is rounded once, under FZ and RM; minimumNumber, maximumNumber and `fsat` choose an
operand. -/
def Obligations.FloatArithmetic : Prop :=
  ∀ d a b : Fin 128,
    FpWord (.fadd d a b) d (fp32Op a b d (fun m z x y _ =>
      let u := operand .fp32 z x
      let v := operand .fp32 z y
      onceRounded .fp32 m z [u, v] (addVal m u v))) ∧
    FpWord (.fsub d a b) d (fp32Op a b d (fun m z x y _ =>
      let u := operand .fp32 z x
      let v := operand .fp32 z y
      onceRounded .fp32 m z [u, v] (addVal m u (fneg v)))) ∧
    FpWord (.fmul d a b) d (fp32Op a b d (fun m z x y _ =>
      let u := operand .fp32 z x
      let v := operand .fp32 z y
      onceRounded .fp32 m z [u, v] (mulVal u v))) ∧
    FpWord (.fma d a b) d (fp32Op a b d (fun m z x y w =>
      let u := operand .fp32 z x
      let v := operand .fp32 z y
      let c := operand .fp32 z w
      let r := addVal m (mulVal u v).1 c
      onceRounded .fp32 m z [u, v, c] (r.1, (mulVal u v).2 || r.2))) ∧
    FpWord (.fms d a b) d (fp32Op a b d (fun m z x y w =>
      let u := operand .fp32 z x
      let v := operand .fp32 z y
      let c := operand .fp32 z w
      let r := addVal m (mulVal u v).1 (fneg c)
      onceRounded .fp32 m z [u, v, c] (r.1, (mulVal u v).2 || r.2))) ∧
    FpWord (.fnma d a b) d (fp32Op a b d (fun m z x y w =>
      let u := operand .fp32 z x
      let v := operand .fp32 z y
      let c := operand .fp32 z w
      let r := addVal m (fneg (mulVal u v).1) c
      onceRounded .fp32 m z [u, v, c] (r.1, (mulVal u v).2 || r.2))) ∧
    FpWord (.fmin d a b) d (fp32Op a b d (fun _ z x y _ => minMaxBits .fp32 false z x y)) ∧
    FpWord (.fmax d a b) d (fp32Op a b d (fun _ z x y _ => minMaxBits .fp32 true z x y)) ∧
    FpWord (.fdiv d a b) d (fp32Op a b d (fun m z x y _ =>
      let u := operand .fp32 z x
      let v := operand .fp32 z y
      let r := divVal u v
      let o := onceRounded .fp32 m z [u, v] (r.1, false)
      (o.1, orFlags r.2 o.2))) ∧
    FpWord (.fsqrt d a) d (fp32Op a a d (fun m z x _ _ =>
      let u := operand .fp32 z x
      let r := sqrtVal u
      let o := onceRounded .fp32 m z [u] (r.1, false)
      (o.1, orFlags r.2 o.2))) ∧
    FpWord (.fsat d a) d (fp32Op a a d (fun _ z x _ _ =>
      let u := operand .fp32 z x
      (match u with
        | .nan _ => 0
        | .inf neg => if neg then 0 else 0x3F800000
        | .fin neg m e => if neg then 0 else if cmpVal (.fin neg m e) (.fin false 1 0) ≥ 0 then 0x3F800000
          else flushOperand .fp32 z x % 2 ^ 31, { invalid := isSignal u })))

/-- 07 R148, R149, R155, R156: roundings to integers, compares and the conversions of integers. Of a NaN converted to BIN1 the
clause says what the model reads in R156: it raises invalid alone (log entry 99). -/
def Obligations.FloatConversions : Prop :=
  ∀ d a b : Fin 128,
    (∀ k : Fin 8, FpWord (.frnd d a k) d (fp32Op a a d (fun m z x _ _ =>
      let rm := match k.val with
        | 0 => RMode.rne
        | 1 => .rtz
        | 2 => .rdn
        | 3 => .rup
        | 4 => .rna
        | 6 => .rne
        | _ => m
      match operand .fp32 z x with
      | .nan g => (0x7FC00000, { invalid := g })
      | .inf neg => (if neg then 0xFF800000 else 0x7F800000, {})
      | .fin neg q e => ((fround .fp32 .rne false (.fin neg (roundGrid rm neg q e 0).1 0)).1,
          { inexact := decide (6 ≤ k.val) && (roundGrid rm neg q e 0).2 })))) ∧
    (∀ c : Fin 8, FpWord (.fcmp c d a b) d (fp32Op a b d (fun _ z x y _ =>
      let u := operand .fp32 z x
      let v := operand .fp32 z y
      let un := isNanV u || isNanV v
      let holds := match c.val with
        | 0 => !un && decide (cmpVal u v = 0)
        | 1 => un || decide (cmpVal u v ≠ 0)
        | 2 => !un && decide (cmpVal u v < 0)
        | 3 => !un && decide (cmpVal u v ≤ 0)
        | 4 => !un && decide (cmpVal u v > 0)
        | 5 => !un && decide (cmpVal u v ≥ 0)
        | 6 => un
        | _ => !un
      (if holds then 0xFFFFFFFF else 0,
        { invalid := isSignal u || isSignal v || (un && decide (2 ≤ c.val ∧ c.val ≤ 5)) })))) ∧
    (∀ k : Fin 2, FpWord (.i2f d a k) d (fun s x l c =>
      let v : Int := if k = 0 then (V s x l a).toInt else (V s x l a).toNat
      roundFz .fp32 (fpcrRm c) (fpcrFz c) (.fin (v < 0) v.natAbs 0))) ∧
    (∀ k : Fin 4, FpWord (.f2i d a k) d (fp32Op a a d (fun m z x _ _ =>
      let r := toIntRange (if k.val < 2 then m else .rtz) (if k.val % 2 = 0 then -2 ^ 31 else 0)
        (if k.val % 2 = 0 then 2 ^ 31 - 1 else 2 ^ 32 - 1) (operand .fp32 z x)
      ((r.1 % 2 ^ 32).toNat, r.2)))) ∧
    ∀ (k : Fin 4) (j : Fin 32), FpWord (.f2n d a k j) d (fp32Op a a d (fun m z x _ old =>
      let f := packClass k.val
      let w := fmtWidth f
      let r := toSlot f m (operand .fp32 z x)
      (old - bits old (w * j.val + w - 1) (w * j.val) * 2 ^ (w * j.val) + r.1 % 2 ^ w * 2 ^ (w * j.val), r.2)))

/-- 07 R150, R151: the transcendentals. Whatever RM holds, a NaN gives the default NaN, and the special operands that the
clauses name give the results and exceptions that R151 lists for them. Where a cohort's FPCRs enable no exception, every
operand completes, with a result that depends on FZ and the operand alone. Of the error of the other results nothing is
said here. -/
def Obligations.Transcendentals : Prop :=
  ∀ d a : Fin 128,
    let word : Nat → Instr := fun n => match n with
      | 0 => .frcp d a
      | 1 => .frsq d a
      | 2 => .fexp2 d a
      | 3 => .flog2 d a
      | 4 => .fsinpi d a
      | 5 => .fcospi d a
      | 6 => .ftanh d a
      | _ => .fsig d a
    ∀ n, n < 8 → ∃ f : Bool → Word → Nat × FpFlags,
      FpWord (word n) d (fun s x l c => f (fpcrFz c) (V s x l a)) ∧
      (∀ s x, s.acting = some x → (∀ l ∈ x.lanes, (x.gang.lane l).fpcr / 2 ^ 5 % 2 ^ 5 = 0) →
        ∃ t, exec (word n) s = .next t ∧ GangStep s t x.gid ∧ Wrote t x (fun l =>
          [(d.val, BitVec.ofNat 32 (f (fpcrFz (x.gang.lane l).fpcr) (V s x l a)).1)])) ∧
      (∀ z x, isNanV (fdecode .fp32 x.toNat) = true →
        f z x = (0x7FC00000, { invalid := isSignal (fdecode .fp32 x.toNat) })) ∧
      ∀ z, match n with
        | 0 => f z 0 = (0x7F800000, { divz := true }) ∧ f z 0x80000000 = (0xFF800000, { divz := true }) ∧
            f z 0x7F800000 = (0, {}) ∧ f z 0xFF800000 = (0x80000000, {})
        | 1 => f z 0 = (0x7F800000, { divz := true }) ∧ f z 0x80000000 = (0xFF800000, { divz := true }) ∧
            f z 0x7F800000 = (0, {}) ∧ f z 0xBF800000 = (0x7FC00000, { invalid := true })
        | 2 => f z 0xFF800000 = (0, {}) ∧ f z 0x7F800000 = (0x7F800000, {}) ∧
            f z 0x43000000 = (0x7F800000, { overflow := true }) ∧ f z 0x3F800000 = (0x40000000, {})
        | 3 => f z 0 = (0xFF800000, { divz := true }) ∧ f z 0xBF800000 = (0x7FC00000, { invalid := true }) ∧
            f z 0x7F800000 = (0x7F800000, {}) ∧ f z 0x40000000 = (0x3F800000, {})
        | 4 => f z 0x7F800000 = (0x7FC00000, { invalid := true }) ∧ f z 0x3F800000 = (0, {}) ∧
            f z 0xBF800000 = (0x80000000, {}) ∧ f z 0x3F000000 = (0x3F800000, {})
        | 5 => f z 0x7F800000 = (0x7FC00000, { invalid := true }) ∧ f z 0x3F000000 = (0, {}) ∧
            f z 0x3F800000 = (0xBF800000, {}) ∧ f z 0x40000000 = (0x3F800000, {})
        | 6 => f z 0 = (0, {}) ∧ f z 0x80000000 = (0x80000000, {}) ∧ f z 0x7F800000 = (0x3F800000, {}) ∧
            f z 0xFF800000 = (0xBF800000, {})
        | _ => f z 0xFF800000 = (0, {}) ∧ f z 0x7F800000 = (0x3F800000, {}) ∧ f z 0 = (0x3F000000, {}) ∧
            f z 0x80000000 = (0x3F000000, {})

/-- 07 R152, R154: packed 16-bit arithmetic on both slots, subnormals kept, and the floating-point dot products, one
rounding of the exact sum. -/
def Obligations.PackedArithmeticAndDots : Prop :=
  (let sum : Fmt → Bool → RMode → Nat → Nat → Nat → Nat × FpFlags := fun f neg m x y _ =>
    let u := fdecode f x
    let v := fdecode f y
    onceRounded f m false [u, v] (addVal m u (if neg then fneg v else v))
  let prod : Fmt → RMode → Nat → Nat → Nat → Nat × FpFlags := fun f m x y _ =>
    let u := fdecode f x
    let v := fdecode f y
    onceRounded f m false [u, v] (mulVal u v)
  let fused : Fmt → RMode → Nat → Nat → Nat → Nat × FpFlags := fun f m x y w =>
    let u := fdecode f x
    let v := fdecode f y
    let c := fdecode f w
    let r := addVal m (mulVal u v).1 c
    onceRounded f m false [u, v, c] (r.1, (mulVal u v).2 || r.2)
  let pick : Fmt → Bool → RMode → Nat → Nat → Nat → Nat × FpFlags := fun f top _ x y _ => minMaxBits f top false x y
  ∀ d a b : Fin 128,
    FpWord (.hadd2 d a b) d (fp32Op a b d (bothSlots (sum .fp16 false))) ∧
    FpWord (.hsub2 d a b) d (fp32Op a b d (bothSlots (sum .fp16 true))) ∧
    FpWord (.hmul2 d a b) d (fp32Op a b d (bothSlots (prod .fp16))) ∧
    FpWord (.hfma2 d a b) d (fp32Op a b d (bothSlots (fused .fp16))) ∧
    FpWord (.hmin2 d a b) d (fp32Op a b d (bothSlots (pick .fp16 false))) ∧
    FpWord (.hmax2 d a b) d (fp32Op a b d (bothSlots (pick .fp16 true))) ∧
    FpWord (.badd2 d a b) d (fp32Op a b d (bothSlots (sum .bf16 false))) ∧
    FpWord (.bsub2 d a b) d (fp32Op a b d (bothSlots (sum .bf16 true))) ∧
    FpWord (.bmul2 d a b) d (fp32Op a b d (bothSlots (prod .bf16))) ∧
    FpWord (.bfma2 d a b) d (fp32Op a b d (bothSlots (fused .bf16))) ∧
    FpWord (.bmin2 d a b) d (fp32Op a b d (bothSlots (pick .bf16 false))) ∧
    FpWord (.bmax2 d a b) d (fp32Op a b d (bothSlots (pick .bf16 true)))) ∧
  let dot : Fmt → Nat → RMode → Bool → Nat → Nat → Nat → Nat × FpFlags := fun f n m z x y w =>
    let el := fun (v j : Nat) => fdecode f (v / 2 ^ (32 / n * j) % 2 ^ (32 / n))
    let us := (List.range n).map (el x)
    let vs := (List.range n).map (el y)
    let ps := (us.zip vs).map (fun p => mulVal p.1 p.2)
    let c := operand .fp32 z w
    let r := sumTerms m (ps.map (·.1) ++ [c])
    onceRounded .fp32 m z (us ++ vs ++ [c]) (r.1, ps.any (·.2) || r.2)
  ∀ d a b : Fin 128,
    FpWord (.dp2h d a b) d (fp32Op a b d (dot .fp16 2)) ∧
    FpWord (.dp2b d a b) d (fp32Op a b d (dot .bf16 2)) ∧
    FpWord (.dp4e d a b) d (fp32Op a b d (dot .e4m3 4)) ∧
    FpWord (.dp4f d a b) d (fp32Op a b d (dot .e5m2 4))

/-- 07 R157, 02 R41: a pack rounds by RM, or by SR with the generator word stepped once, into slot j; the other slots
stay, and bits [31:30] of an FP6 word are zero. Each lane with SR set keeps the stepped word, and nothing else of it
changes. An unpack gives the exact value of slot j. -/
def Obligations.PacksAndUnpacks : Prop :=
  let step : Word → Word := fun x =>
    let x1 := x ^^^ (x <<< 13)
    let x2 := x1 ^^^ (x1 >>> 17)
    x2 ^^^ (x2 <<< 5)
  let packs : Instr → Fmt → Fin 128 → Fin 128 → Nat → Prop := fun i f d a j =>
    ∀ s x, s.acting = some x →
      let packed : Nat → Nat × FpFlags := fun l =>
        let c := (x.gang.lane l).fpcr
        let v := operand .fp32 (bit c 3) (V s x l a).toNat
        let r := if bit c 2 then froundSr f (bit c 4) (step (BitVec.ofNat 32 (x.gang.lane l).seed)) v
          else fround f (rmOf c) (bit c 4) v
        let old := (V s x l d).toNat
        let new := old - old / 2 ^ (fmtWidth f * j) % 2 ^ fmtWidth f * 2 ^ (fmtWidth f * j) +
          r.1 % 2 ^ fmtWidth f * 2 ^ (fmtWidth f * j)
        (if f = .fp6 then new % 2 ^ 30 else new, r.2)
      (∀ l ∈ x.lanes, fpEnabled (x.gang.lane l).fpcr (packed l).2 = 0) →
        ∃ u t, exec i s = .next t ∧ GangStep s u x.gid ∧
          Wrote u x (fun l => [(d.val, BitVec.ofNat 32 (packed l).1)]) ∧
          LanesChanged u t x.gid x.co.mask (fun _ y =>
            if bit y.fpcr 2 then { y with seed := (step (BitVec.ofNat 32 y.seed)).toNat } else y)
  let unpacks : Instr → Fmt → Fin 128 → Fin 128 → Nat → Prop := fun i f d a j =>
    FpWord i d (fun s x l c =>
      let v := operand f (bit c 3 && f == .bf16) ((V s x l a).toNat / 2 ^ (fmtWidth f * j) % 2 ^ fmtWidth f)
      ((fround .fp32 .rne false v).1, { invalid := isSignal v }))
  ∀ d a : Fin 128,
    (∀ j : Fin 2, packs (.pkh d a j) .fp16 d a j.val ∧ unpacks (.unh d a j) .fp16 d a j.val ∧
      packs (.pkb d a j) .bf16 d a j.val ∧ unpacks (.unb d a j) .bf16 d a j.val) ∧
    (∀ j : Fin 4, packs (.pk8e d a j) .e4m3 d a j.val ∧ unpacks (.un8e d a j) .e4m3 d a j.val ∧
      packs (.pk8f d a j) .e5m2 d a j.val ∧ unpacks (.un8f d a j) .e5m2 d a j.val) ∧
    ∀ j : Fin 8, packs (.pk6 d a j) .fp6 d a j.val ∧ unpacks (.un6 d a j) .fp6 d a j.val ∧
      packs (.pk4 d a j) .fp4 d a j.val ∧ unpacks (.un4 d a j) .fp4 d a j.val

/-- 02 R36: what each mode of rounding on a grid does, m x 2^e being the exact magnitude and n x 2^q the result. -/
def Obligations.RoundingModes : Prop :=
  ∀ (neg : Bool) (m : Nat) (e q : Int), e < q →
    let u := 2 ^ (q - e).toNat
    let r := fun mode => roundGrid mode neg m e q
    (∀ mode, (r mode).2 = decide (m % u ≠ 0) ∧ ((r mode).2 = false → (r mode).1 * u = m) ∧
      (r mode).1 * u < m + u ∧ m < (r mode).1 * u + u) ∧
    (2 * ((r .rne).1 * u) ≤ 2 * m + u ∧ 2 * m ≤ 2 * ((r .rne).1 * u) + u) ∧
    (2 * m + u = 2 * ((r .rne).1 * u) ∨ 2 * m = 2 * ((r .rne).1 * u) + u → (r .rne).1 % 2 = 0) ∧
    (r .rtz).1 * u ≤ m ∧
    (if neg then m ≤ (r .rdn).1 * u else (r .rdn).1 * u ≤ m) ∧
    (if neg then (r .rup).1 * u ≤ m else m ≤ (r .rup).1 * u)

/-! ### The cohort -/

/-- 07 R159 to R162: the collectives read the lanes of the issuing cohort and no others, and every lane of it gets its
result; those of floating point are governed by the FPCR of the leader lane, and each lane raises the same exceptions. -/
def Obligations.Collectives : Prop :=
  (∀ d a b : Fin 128, ∀ k : Fin 64,
    let xs : State → Acting → List Int := fun s x => x.lanes.map (fun m => (V s x m a).toInt)
    GivesWord (.laneid d) d (fun _ _ l => BitVec.ofNat 32 l) ∧
    GivesWord (.gwidth d) d (fun _ x _ => BitVec.ofNat 32 x.gang.width) ∧
    GivesPair (.cohort d) d (fun _ x _ => x.co.mask.toNat) ∧
    GivesWord (.vany d a) d (fun s x _ => if ∃ m ∈ x.lanes, V s x m a ≠ 0 then 0xFFFFFFFF else 0) ∧
    GivesWord (.vall d a) d (fun s x _ => if ∀ m ∈ x.lanes, V s x m a ≠ 0 then 0xFFFFFFFF else 0) ∧
    GivesPair (.ballot d a) d (fun s x _ => (maskOf (x.lanes.filter (fun m => V s x m a ≠ 0))).toNat) ∧
    GivesPair (.matchEq d a) d (fun s x l => (maskOf (x.lanes.filter (fun m => V s x m a = V s x l a))).toNat) ∧
    GivesWord (.shfl d a b) d (fun s x l => shuffled s x l a (V s x l b).toNat) ∧
    GivesWord (.shup d a k) d (fun s x l => shuffled s x l a ((l : Int) - k.val)) ∧
    GivesWord (.shdn d a k) d (fun s x l => shuffled s x l a ((l : Int) + k.val)) ∧
    GivesWord (.shxor d a k) d (fun s x l => shuffled s x l a (l ^^^ k.val : Nat)) ∧
    GivesWord (.redadd d a) d (fun s x _ => BitVec.ofInt 32 ((xs s x).foldl (· + ·) 0)) ∧
    GivesWord (.redmin d a) d (fun s x _ => BitVec.ofInt 32 (least (xs s x) (2 ^ 31 - 1))) ∧
    GivesWord (.redmax d a) d (fun s x _ => BitVec.ofInt 32 (greatest (xs s x) (-2 ^ 31))) ∧
    GivesWord (.bcast d a) d (fun s x _ => V s x (x.lanes.headD 0) a) ∧
    GivesWord (.redand d a) d (fun s x _ => (x.lanes.map (fun m => V s x m a)).foldl (· &&& ·) 0xFFFFFFFF) ∧
    GivesWord (.redor d a) d (fun s x _ => (x.lanes.map (fun m => V s x m a)).foldl (· ||| ·) 0) ∧
    GivesWord (.redxor d a) d (fun s x _ => (x.lanes.map (fun m => V s x m a)).foldl (· ^^^ ·) 0)) ∧
  ∀ d a : Fin 128,
    let leader : Acting → Nat → Nat := fun x _ => (x.gang.lane (x.lanes.headD 0)).fpcr
    let xs : State → Acting → List Nat := fun s x => x.lanes.map (fun m => (V s x m a).toNat)
    let pick : Bool → Bool → List Nat → Nat × FpFlags := fun top z ys => match ys with
      | [] => (0, {})
      | y :: ys => ys.foldl (fun r w => ((minMaxBits .fp32 top z r.1 w).1, orFlags r.2 (minMaxBits .fp32 top z r.1 w).2))
          (minMaxBits .fp32 top z y y)
    FpWordBy leader (.fredadd d a) d (fun s x _ c =>
      let vs := (xs s x).map (operand .fp32 (fpcrFz c))
      onceRounded .fp32 (fpcrRm c) (fpcrFz c) vs (sumTerms (fpcrRm c) vs)) ∧
    FpWordBy leader (.fredmin d a) d (fun s x _ c => pick false (fpcrFz c) (xs s x)) ∧
    FpWordBy leader (.fredmax d a) d (fun s x _ c => pick true (fpcrFz c) (xs s x))

/-- 07 R163 to R165: what `sreg` reads, the latch of CLKLO, and what `sregw` writes, at issue. -/
def Obligations.SpecialRegisters : Prop :=
  ∀ s x y, s.acting = some x → s.launch? x.team.launch = some y →
    (∀ (d : Fin 128) (i : Fin 2048), i.val < 24 → ∃ u t, exec (.sreg d i) s = .next t ∧ GangStep s u x.gid ∧
      Wrote u x (fun l => [(d.val, BitVec.ofNat 32 (match i.val with
        | 0 => l
        | 1 => x.gang.g
        | 2 => x.gang.g * x.gang.width + l
        | 3 => x.team.t % y.desc.gx
        | 4 => x.team.t / y.desc.gx % y.desc.gy
        | 5 => x.team.t / y.desc.gx / y.desc.gy
        | 6 => y.desc.gx
        | 7 => y.desc.gy
        | 8 => y.desc.gz
        | 9 => y.desc.gangs * x.gang.width
        | 10 => x.gang.width
        | 11 => x.gang.core
        | 12 => x.gang.core / 4
        | 13 => 12 * (x.gang.core / 4 / 96 / 8) + x.gang.core / 4 % 96 / 8
        | 14 => s.partWord x.team
        | 15 => s.clk x.team % 2 ^ 32
        | 16 => if (x.gang.lane l).latch = 0 then s.clk x.team / 2 ^ 32 else (x.gang.lane l).latch - 1
        | 17 => y.desc.frame % 2 ^ 32
        | 18 => y.desc.frame / 2 ^ 32
        | 19 => if x.team.paired = true ∧ x.gang.core ≠ x.team.core then 1 else 0
        | 20 => (s.lease? x.team.lease).elim 0 Lease.mapgen
        | 21 => (x.gang.lane l).fpcr
        | 22 => (x.gang.lane l).seed
        | _ => if y.desc.item = true then ((s.core x.gang.core).items.filter (fun p => p.1 == x.team.launch)).length
            else 0))]) ∧
      (i.val ≠ 15 → t = u) ∧
      (i.val = 15 → LanesChanged u t x.gid x.co.mask (fun _ z =>
        { z with latch := s.clk x.team / 2 ^ 32 % 2 ^ 32 + 1 }))) ∧
    ∀ (a : Fin 128) (i : Fin 2048), i.val = 21 ∨ i.val = 22 → ∃ u, exec (.sregw a i) s = .next u.finish ∧
      LanesChanged s.issue u x.gid x.co.mask (fun l z =>
        let v := (V s x l a).toNat
        if i.val = 21 then { z with fpcr := v % 2 ^ 10 } else { z with seed := if v = 0 then 0x9E3779B9 else v })

/-! ### Control words -/

/-- 06 R117: a branch moves each lane that takes it to the target clause, and leaves the others at the next word. -/
def Obligations.Branches : Prop :=
  ∀ (a : Fin 128) (o : Fin 262144) s x, s.acting = some x → x.plain →
    let goes : Instr → (Nat → Prop) → Prop := fun i take =>
      ∃ t, exec i s = .next t ∧ GangStep s t x.gid ∧ NoResult t x ∧ Then t x.gid (fun h =>
        ∀ l, l < x.gang.lanes.length →
          (l ∈ x.lanes → take l → (h.lane l).pc = ⟨((x.co.hdr + 4 * (BitVec.ofNat 18 o.val).toInt) % 2 ^ 48).toNat, 0⟩) ∧
          (l ∈ x.lanes → ¬ take l → (h.lane l).pc =
            if x.co.idx + 1 = x.co.count ∨ x.co.count ≤ x.co.idx then ⟨(x.co.hdr + 4 * (x.co.count + 1)) % 2 ^ 48, 0⟩
            else ⟨x.co.hdr, x.co.idx + 1⟩) ∧
          (l ∉ x.lanes → (h.lane l).pc = (x.gang.lane l).pc))
    goes (.br o) (fun _ => True) ∧ goes (.brnz a o) (fun l => V s x l a ≠ 0) ∧ goes (.brz a o) (fun l => V s x l a = 0)

/-- 06 R118, R119: `call` and `jmpl` write the link at once, and `jmp` and `jmpl` go to the pair's value; a target that
is not aligned, or lies beyond 48 bits, traps the lane with 0x04. -/
def Obligations.CallsAndJumps : Prop :=
  ∀ (d a : Fin 128) (o : Fin 262144) s x, s.acting = some x → x.plain → a.val + 1 < 8 * x.gang.nregs →
    d.val + 1 < 8 * x.gang.nregs →
    let n := (x.co.hdr + 4 * (x.co.count + 1)) % 2 ^ 48
    let linked : Fin 128 → State → Gang → Prop := fun r t h => ∀ l ∈ x.lanes,
      t.reg h l r.val = BitVec.ofNat 32 n ∧ t.reg h l (r.val + 1) = BitVec.ofNat 32 (n / 2 ^ 32) ∧
        RegsKept (x.gang.lane l) (h.lane l) [r.val, r.val + 1]
    let good := ∀ l ∈ x.lanes, P s x l a % 4 = 0 ∧ P s x l a < 2 ^ 48
    (∃ t, exec (.call a o) s = .next t ∧ GangOnly s t x.gid ∧ NoResult t x ∧ Then t x.gid (fun h => linked a t h ∧
      Stand x h (fun _ => ⟨((x.co.hdr + 4 * (BitVec.ofNat 18 o.val).toInt) % 2 ^ 48).toNat, 0⟩))) ∧
    (good → ∃ t, exec (.jmp a) s = .next t ∧ GangStep s t x.gid ∧ NoResult t x ∧
      Then t x.gid (fun h => Stand x h (fun l => ⟨P s x l a, 0⟩))) ∧
    (good → ∃ t, exec (.jmpl d a) s = .next t ∧ GangOnly s t x.gid ∧ NoResult t x ∧
      Then t x.gid (fun h => linked d t h ∧ Stand x h (fun l => ⟨P s x l a, 0⟩))) ∧
    ∀ l, x.lanes = [l] → ¬ (P s x l a % 4 = 0 ∧ P s x l a < 2 ^ 48) → x.mayTrap →
      ∃ t u, exec (.jmp a) s = .next t ∧ exec (.jmpl d a) s = .next u ∧
        TookTrap s t x (maskOf [l]) 0x04 0x20 (P s x l a) ∧ TookTrap s u x (maskOf [l]) 0x04 0x20 (P s x l a)

/-- 06 R120 to R126: the join stack, while its entries are held in hardware and none has a copy in its slot. -/
def Obligations.JoinStack : Prop :=
  ∀ s x, s.acting = some x → x.plain → x.co.switchBit = false →
    let eff : Mask × Mask → Mask := fun e => e.1 &&& ~~~x.gang.gone
    let waits : List (Mask × Mask) → Prop := fun st => ∀ e ∈ st.head?, eff e ≠ 0 ∧ e.2 ≠ eff e
    let next : Gang → Prop := fun h => Stand x h (fun _ => x.co.nextPc)
    (x.gang.stack.length < 3 → ∃ t, exec .jpush s = .next t ∧ GangOnly s t x.gid ∧ NoResult t x ∧
      Then t x.gid (fun h => h.stack = (x.co.mask, 0) :: x.gang.stack ∧ next h ∧
        ∀ l, (x.gang.lane l).sameBut (h.lane l))) ∧
    (∀ top rest, x.gang.stack = top :: rest → rest.length < 8 → x.gang.copied = 0 → x.co.mask &&& top.1 = x.co.mask →
      x.co.mask ≠ 0 →
      (eff top ≠ 0 ∧ top.2 ||| x.co.mask ≠ eff top →
        ∃ t, exec .jwait s = .next t ∧ GangOnly s t x.gid ∧ NoResult t x ∧ Then t x.gid (fun h =>
          h.stack = (top.1, top.2 ||| x.co.mask) :: rest ∧ next h ∧ ∀ l ∈ x.lanes, (h.lane l).parked = true)) ∧
      (eff top ≠ 0 ∧ top.2 ||| x.co.mask = eff top → waits rest →
        ∃ t, exec .jwait s = .next t ∧ GangOnly s t x.gid ∧ NoResult t x ∧ Then t x.gid (fun h =>
          h.stack = rest ∧ next h ∧ ∀ l, l < x.gang.lanes.length → (top.2 ||| x.co.mask).getLsbD l = true →
            (h.lane l).released = true ∧ (h.lane l).deferred = false ∧
            (l ∈ x.lanes ∨ (x.gang.lane l).sw = false → (h.lane l).parked = false)))) ∧
    (x.gang.stack = [] → ∃ t, exec .jwait s = .next t ∧ GangStep s t x.gid ∧ NoResult t x ∧ Then t x.gid next) ∧
    (∀ k : Fin 64, x.gang.stack.length ≤ 3 → x.gang.copied = 0 →
      let st := (x.gang.stack.take (k.val + 1)).map (fun e => (e.1 &&& ~~~x.co.mask, e.2)) ++ x.gang.stack.drop (k.val + 1)
      waits st → ∃ t, exec (.jdrop k) s = .next t ∧ GangOnly s t x.gid ∧ NoResult t x ∧
        Then t x.gid (fun h => h.stack = st ∧ next h ∧ ∀ l, (x.gang.lane l).sameBut (h.lane l))) ∧
    ∀ d : Fin 128, d.val < 8 * x.gang.nregs → ∃ t, exec (.jdepth d) s = .next t ∧ GangOnly s t x.gid ∧ NoResult t x ∧
      Then t x.gid (fun h => next h ∧ ∀ l ∈ x.lanes, t.reg h l d.val = BitVec.ofNat 32 x.gang.stack.length ∧
        RegsKept (x.gang.lane l) (h.lane l) [d.val])

/-- 06 R128, R130, R131: the team barrier, item refill and exit, of a cohort that has no access, no store-fault record and
no engine trap pending. -/
def Obligations.BarrierRefillExit : Prop :=
  ∀ s x, s.acting = some x → x.plain → x.co.mask ≠ 0 → x.gang.due = [] → (∀ sc, s.accessPending x.gid x.co.mask sc = false) →
    s.dueRecords x.gid x.co.mask true = [] → x.gang.stack.length ≤ 8 →
    let team := x.gang.team
    let waitsFor : Nat × Gang → Prop := fun g => ∃ l, l < g.2.lanes.length ∧ l < 64 ∧ (g.2.lane l).live = true ∧
      g.2.arrived.getLsbD l = false ∧ ¬ (g.1 = x.gid ∧ l ∈ x.lanes)
    let gone : State → Prop := fun t => Then t x.gid (fun h =>
      (∀ l ∈ x.lanes, (h.lane l).live = false ∧ h.gone.getLsbD l = true ∧ (h.lane l).regs = (x.gang.lane l).regs) ∧
      ∀ l, l < x.gang.lanes.length → l ∉ x.lanes → (h.lane l).live = (x.gang.lane l).live)
    ((∃ g ∈ s.gangsOf team, waitsFor g) → ∃ t, exec .bar s = .next t ∧ t.mem = s.mem ∧ NoResult t x ∧
      Then t x.gid (fun h => h.arrived = x.gang.arrived ||| x.co.mask ∧ Stand x h (fun _ => x.co.nextPc) ∧
        ∀ l ∈ x.lanes, (h.lane l).parked = true)) ∧
    (s.gangs = [(x.gid, x.gang)] → x.co.switchBit = false → ¬ waitsFor (x.gid, x.gang) →
      ∃ t, exec .bar s = .next t ∧ t.mem = s.mem ∧ Then t x.gid (fun h => h.arrived = 0 ∧
        Stand x h (fun _ => x.co.nextPc) ∧ ∀ l ∈ x.lanes, (h.lane l).parked = false ∧ (h.lane l).released = true)) ∧
    (∀ sc : Fin 4, x.gang.stack = [] → ∃ t, exec (.exitv sc) s = .next t ∧ gone t ∧ (sc = 0 → t.mem = s.mem)) ∧
    ∀ d : Fin 128, d.val < 8 * x.gang.nregs →
      let queued := (s.core x.gang.core).itemsOf x.team.launch
      (x.lanes.length ≤ queued.length → ∃ t, exec (.refill d) s = .next t ∧ t.mem = s.mem ∧ NoResult t x ∧
        Then t x.gid (fun h => Stand x h (fun _ => x.co.nextPc) ∧
          ∀ (j l : Nat), x.lanes[j]? = some l → queued[j]? = some (t.reg h l d.val) ∧
            RegsKept (x.gang.lane l) (h.lane l) [d.val])) ∧
      (queued = [] → s.valuesLeft x.team.launch = false → x.gang.stack = [] →
        ∃ t, exec (.refill d) s = .next t ∧ gone t ∧ t.mem = s.mem)

/-- 06 R132 to R134, 05 R95: `trap`, `yield`, `nop` and `rep`. -/
def Obligations.TrapYieldNopRep : Prop :=
  ∀ s x, s.acting = some x → x.plain →
    (∀ c : Fin 262144, x.mayTrap → x.co.mask ≠ 0 →
      ∃ t, exec (.trapv c) s = .next t ∧ TookTrap s t x x.co.mask 0x10 c.val 0 ∧ GangOnly s t x.gid) ∧
    (∃ t, exec .yield s = .next t ∧ GangOnly s t x.gid ∧ NoResult t x ∧ Then t x.gid (fun h =>
      Stand x h (fun _ => x.co.nextPc) ∧ ∀ l ∈ x.lanes, (h.lane l).deferred = true ∧
        (h.lane l).regs = (x.gang.lane l).regs)) ∧
    (∃ t, exec .nop s = .next t ∧ GangStep s t x.gid ∧ NoResult t x ∧
      Then t x.gid (fun h => Stand x h (fun _ => x.co.nextPc))) ∧
    ∀ (c : Fin 64) (u v w : Fin 4),
      (repeatOk (x.co.words.getD (x.co.idx + 1) 0) (c.val + 1) u.val v.val w.val = true →
        ∃ t, exec (.rep c u v w) s = .next t ∧ GangStep s t x.gid ∧ NoResult t x ∧ Then t x.gid (fun h =>
          Stand x h (fun _ => ⟨x.co.hdr, x.co.idx + 1⟩) ∧ ∃ co, assocGet? h.cohorts x.cid = some co ∧
            co.mask = x.co.mask ∧ co.idx = x.co.idx + 1 ∧ co.rep = some ⟨c.val + 1, 0, u.val, v.val, w.val⟩)) ∧
      (repeatOk (x.co.words.getD (x.co.idx + 1) 0) (c.val + 1) u.val v.val w.val = false → x.mayTrap → x.co.mask ≠ 0 →
        ∃ t, exec (.rep c u v w) s = .next t ∧ TookTrap s t x x.co.mask 0x02 0 x.co.hdr)

/-! ### System words -/

/-- 05 R100, 17 R331, R333: the privileged words trap with 0x03 at the levels that may not issue them, with nothing else
done. -/
def Obligations.PrivilegeTraps : Prop :=
  ∀ (d a b : Fin 128) s x, s.acting = some x → x.mayTrap → x.co.mask ≠ 0 →
    let traps : Instr → Prop := fun i =>
      ∃ t, exec i s = .next t ∧ TookTrap s t x x.co.mask 0x03 0 x.co.hdr ∧ GangOnly s t x.gid
    (x.level = 0 → ∀ i ∈ [Instr.sysr d a, .sysw a b, .cfgr d a, .cfgw a b, .tlbiVa d a, .tlbiTa d a, .tlbiAll d, .eret,
      .trlane d a b, .twlane d a b, .haltLaunch b, .haltTenant b, .haltOther a b], traps i) ∧
    (x.level = 1 → traps (.tlbiTa d a) ∧ traps (.haltOther a b)) ∧
    (x.level = 3 → ∀ n : Fin 128, n = 32 → traps (.sysw a n))

/-- 17 R326, R327: what `sysr` reads in a lane, in a frame or outside one. The records of a frame are those that it holds
for lanes still in it, which is the model's reading (log entry 29). -/
def Obligations.SystemRegisterReads : Prop :=
  ∀ (d n : Fin 128) s x, s.acting = some x → x.level ≠ 0 → n.val ≤ 32 →
    ∃ (t : State) (out : Nat → Word), exec (.sysr d n) s = .next t ∧ GangStep s t x.gid ∧ Wrote t x (fun l => [(d.val, out l)]) ∧
      ∀ l ∈ x.lanes,
        ((x.gang.lane l).frame = none → (n.val ≤ 9 ∨ n.val = 12 ∨ (13 ≤ n.val ∧ n.val ≤ 21) ∨ n.val = 24 ∨ n.val = 26 ∨
            (28 ≤ n.val ∧ n.val ≤ 31)) →
          out l = if n.val = 0 then BitVec.ofNat 32 (x.gang.lane l).level else 0) ∧
        (n.val = 10 → out l = BitVec.ofNat 32 (s.vector x.team (x.gang.lane l).level)) ∧
        (n.val = 11 → out l = BitVec.ofNat 32 (s.vector x.team (x.gang.lane l).level / 2 ^ 32)) ∧
        (n.val = 22 → out l = BitVec.ofNat 32 x.gang.spillBase) ∧
        (n.val = 23 → out l = BitVec.ofNat 32 (x.gang.spillBase / 2 ^ 32)) ∧
        (n.val = 25 → let ten := s.tenantOf x.team.part
          out l = BitVec.ofNat 32 (ten.drops * 2 ^ 16 + (if ten.moved then 8 else 0) + (if ten.seen then 2 else 0) +
            (if ten.incomplete then 1 else 0))) ∧
        (n.val = 27 → ∀ m, x.team.tenant = some m → out l = BitVec.ofNat 32 (s.tenantOf (tkey x.team.lease m)).haltcode) ∧
        (n.val = 32 → ∀ m, x.team.xten = some m → (x.gang.lane l).level = 1 →
          out l = BitVec.ofNat 32 (s.tenantOf (tkey x.team.lease m)).hostmask) ∧
        ∀ i f, (x.gang.lane l).frame = some i → assocGet? x.gang.frames i = some f →
          let recs := (s.core x.gang.core).sfq.filter (fun r => r.held == some i && f.mask.getLsbD r.lane)
          let counter := f.tpc.idx * 2 ^ 48 + f.tpc.addr
          let value : Option Nat := match n.val with
            | 0 => some (16 + 4 * f.prev + (x.gang.lane l).level)
            | 1 => some ((if f.sfr then 256 else 0) + f.cause)
            | 2 => some counter
            | 3 => some (counter / 2 ^ 32)
            | 4 => some f.tword
            | 5 => some f.mask.toNat
            | 6 => some (f.mask.toNat / 2 ^ 32)
            | 7 => some f.taddr
            | 8 => some (f.taddr / 2 ^ 32)
            | 9 => some f.tinfo
            | 12 => some recs.length
            | 13 => some ((recs.map (fun r => r.rep * 2 ^ 26 + r.widx * 2 ^ 22 + r.kind * 2 ^ 19 + r.slot * 2 ^ 14 +
                r.lane * 2 ^ 8 + r.cause)).headD 0)
            | 14 => some ((recs.map (fun r => r.size * 2 ^ 16 + r.synd)).headD 0)
            | 15 => some ((recs.map SfRec.clause).headD 0)
            | 16 => some ((recs.map (fun r => r.clause / 2 ^ 32)).headD 0)
            | 17 => some ((recs.map SfRec.addr).headD 0)
            | 18 => some ((recs.map (fun r => r.addr / 2 ^ 32)).headD 0)
            | 19 => some ((recs.map SfRec.value).headD 0)
            | 20 => some ((recs.map (fun r => r.value / 2 ^ 32)).headD 0)
            | 21 => some 0
            | 24 => some (if f.cause = 0x18 then assocGet 0 f.fpstat l else 0)
            | 26 => some (f.rep * 2 ^ 8 + (if f.skip then 1 else 0))
            | 28 => some (assocGet 0 f.kscr (4 * l)).toNat
            | 29 => some (assocGet 0 f.kscr (4 * l + 1)).toNat
            | 30 => some (assocGet 0 f.kscr (4 * l + 2)).toNat
            | 31 => some (assocGet 0 f.kscr (4 * l + 3)).toNat
            | _ => none
          ∀ v, value = some v → out l = BitVec.ofNat 32 v

/-- 17 R326, R327: what `sysw` changes, for a cohort of one lane that stands in a frame. KSCR is kept for each lane by
itself (log entry 29). -/
def Obligations.SystemRegisterWrites : Prop :=
  ∀ (a n : Fin 128) s x l i f, s.acting = some x → x.plain → x.lanes = [l] → x.level ≠ 0 → x.level < 3 →
    (x.gang.lane l).frame = some i → assocGet? x.gang.frames i = some f →
    let v := (V s x l a).toNat
    let lvl := (x.gang.lane l).level
    ∃ t, exec (.sysw a n) s = .next t ∧ t.mem = s.mem ∧ NoResult t x ∧
      Then t x.gid (fun h => Stand x h (fun _ => x.co.nextPc) ∧ (h.lane l).regs = (x.gang.lane l).regs ∧
        assocGet? h.frames i = some (match n.val with
          | 2 => { f with tpc := ⟨f.tpc.addr / 2 ^ 32 * 2 ^ 32 + v, f.tpc.idx⟩ }
          | 3 => { f with tpc := ⟨v % 2 ^ 16 * 2 ^ 32 + f.tpc.addr % 2 ^ 32, v / 2 ^ 16 % 16⟩ }
          | 26 => { f with rep := v / 2 ^ 8 % 2 ^ 6, skip := v % 2 == 1 }
          | 28 => { f with kscr := assocSet f.kscr (4 * l) (V s x l a) }
          | 29 => { f with kscr := assocSet f.kscr (4 * l + 1) (V s x l a) }
          | 30 => { f with kscr := assocSet f.kscr (4 * l + 2) (V s x l a) }
          | 31 => { f with kscr := assocSet f.kscr (4 * l + 3) (V s x l a) }
          | _ => f)) ∧
      (∀ k, lvl = 1 → x.team.xten = some k → (assocGet? s.tenants (tkey x.team.lease k)).isSome →
        let old := s.vector x.team 1
        (t.vector x.team 1 = match n.val with
          | 10 => old / 2 ^ 32 * 2 ^ 32 + v / 4 * 4
          | 11 => v % 2 ^ 16 * 2 ^ 32 + old % 2 ^ 32
          | _ => old) ∧
        (t.tenantOf (tkey x.team.lease k)).hostmask =
          if n.val = 32 then v % 2 ^ 15 else (s.tenantOf (tkey x.team.lease k)).hostmask) ∧
      (n.val = 25 →
        let old := s.tenantOf x.team.part
        let new := t.tenantOf x.team.part
        new.moved = (old.moved && !v.testBit 3) ∧ new.seen = (old.seen && !v.testBit 1) ∧
          new.incomplete = (old.incomplete && !v.testBit 0) ∧ new.drops = if v.testBit 0 then 0 else old.drops) ∧
      (t.core x.gang.core).sfq = if n.val = 21 then (s.core x.gang.core).sfq.eraseP (fun r =>
          r.held == some i && f.mask.getLsbD r.lane)
        else (s.core x.gang.core).sfq

/-- 17 R332: `cfgr` gives the doubleword that the space of the lane's level holds at the offset; `cfgw` writes it for lane
after lane, once every earlier access of its lanes has taken effect, and a write of APPEND is a release at partition scope
first (03 R55), with the clock of its lane (log entry 106); an offset that is no multiple of eight traps with 0x04. A tenant's
read that the table does not permit gives 0, a write that it does not permit changes nothing, and of the blocks by tenant it
reaches its own alone. The manual gives no contents of the space of LEVEL 3: a read there gives a free value and a write is
shown outside, which is the model's choice (log entry 81). -/
def Obligations.ConfigurationWords : Prop :=
  ∀ (d a b : Fin 128) s x, s.acting = some x → x.plain →
    let own : Option Nat := if x.level = 1 then some (x.team.xten.getD 16) else none
    let lvls := x.level = 1 ∨ x.level = 2
    let off : Nat → Nat := fun l => (V s x l a).toNat
    let ready : Nat → Prop := fun l => s.cfgWriteWaits x.team.lease own (off l) (P s x l b) = false
    (lvls → (∀ l ∈ x.lanes, off l % 8 = 0) → ∃ t, exec (.cfgr d a) s = .next t ∧ GangStep s t x.gid ∧
      Wrote t x (fun l => [(d.val, BitVec.ofNat 32 (s.cfgRead x.team.lease own (off l))),
        (d.val + 1, BitVec.ofNat 32 (s.cfgRead x.team.lease own (off l) / 2 ^ 32))])) ∧
    (lvls → s.accessPending x.gid x.co.mask 2 = false → (∀ l ∈ x.lanes, off l % 8 = 0 ∧ isAppend (off l) = false ∧ ready l) →
      exec (.cfgw a b) s = .next (x.lanes.foldl (fun t l =>
        t.cfgWrite x.team.lease own (off l) (P s x l b) []) s.issue).finish) ∧
    (lvls → ∀ l, x.lanes = [l] → isAppend (off l) = true → s.accessPending x.gid x.co.mask 2 = false → ready l →
      s.dueRecords x.gid x.co.mask true = [] →
      let vc := s.issue.leadClock x.gid (maskOf [l])
      exec (.cfgw a b) s = .next (((s.issue.releaseLanes x.gid (maskOf [l])).2.releasePins x.gang.team x.gang.core 2 vc).cfgWrite
        x.team.lease own (off l) (P s x l b) vc).finish) ∧
    (lvls → ∀ l, x.lanes = [l] → off l % 8 ≠ 0 → x.mayTrap → s.accessPending x.gid x.co.mask 2 = false → ready l →
      ∃ t u, exec (.cfgr d a) s = .next t ∧ exec (.cfgw a b) s = .next u ∧
        TookTrap s t x (maskOf [l]) 0x04 (spaceInfo 0 8) (off l) ∧
        TookTrap s u x (maskOf [l]) 0x04 (spaceInfo 0 8) (off l)) ∧
    (x.level = 3 → (∀ l ∈ x.lanes, off l % 8 = 0) →
      (∃ t, exec (.cfgr d a) s = .next t ∧ GangStep s t x.gid ∧
        Wrote t x (fun l => [(d.val, BitVec.ofNat 32 (s.ownerRead (off l))),
          (d.val + 1, BitVec.ofNat 32 (s.ownerRead (off l) / 2 ^ 32))])) ∧
      (s.accessPending x.gid x.co.mask 2 = false → exec (.cfgw a b) s = .next (State.finish { s.issue with
        outbox := s.outbox ++ x.lanes.map (fun l => .ownerWrite (off l) (P s x l b)) }))) ∧
    ∀ lease n o, n < 16 → (s.lease? lease).isSome →
      let k := s.tenantOf (tkey lease n)
      let another : Nat → Nat → Prop := fun base size => base ≤ o ∧ o < base + 16 * size ∧ (o - base) / size ≠ n
      ((0x1000 ≤ o ∧ o < 0x10000) ∨ another 0x10000 0x100 ∨ another 0x20000 0x40 ∨ another 0x30000 0x100 ∨
          another 0x50000 0x100 ∨ another 0x60000 0x2000 ∨ another 0x100000 0x10000 → s.cfgRead lease (some n) o = 0) ∧
      (∀ h i, s.lease? lease = some h → h.quadNo i ∉ s.tenantQuads lease n →
        (i < 0x2000 → s.cfgRead lease (some n) (0x40000 + 8 * i) = 0) ∧
        (i < 0x8000 → ∀ j, j < 2 → s.cfgRead lease (some n) (0x80000 + 16 * i + 8 * j) = 0)) ∧
      (o < 0x20000 ∨ another 0x20000 0x40 ∨ another 0x30000 0x100 ∨ (0x40000 ≤ o ∧ o < 0x60000) ∨ another 0x60000 0x2000 ∨
          (0x80000 ≤ o ∧ o < 0x100000) ∨ another 0x100000 0x10000 → ∀ v vc, s.cfgWrite lease (some n) o v vc = s) ∧
      (o < 0x2000 ∨ (0x4000 ≤ o ∧ o < 0x10000) ∨ (0x40000 ≤ o ∧ o < 0x60000) → ∀ v vc, s.cfgWrite lease none o v vc = s) ∧
      ∀ own ∈ [some n, none],
        (o < 0x100 → s.cfgRead lease own (0x10000 + 0x100 * n + o) = k.descRead o) ∧
        (o < 16 → s.cfgRead lease own (0x30000 + 0x100 * n + 8 * o) = assocGet 0 k.attrs o) ∧
        s.cfgRead lease own (0x30000 + 0x100 * n + 0x80) = k.s1root ∧
        (o < 8 → s.cfgRead lease own (0x50000 + 0x100 * n + 8 * o) = assocGet 0 k.counters o) ∧
        ∀ r, r < 64 → o < 16 → s.cfgRead lease own (0x60000 + 0x2000 * n + 0x80 * r + 8 * o) = (s.route lease n r).w o

/-- 17 R333: a form of `tlbi` first drops every covered translation of every core's TLB and of every walk-ahead TLB, and every
walk-cache entry of the tenants that its lanes name, and no other; then it waits, and once every access that was under way
then has taken effect, those of copies too, its lanes go on. -/
def Obligations.TranslationInvalidation : Prop :=
  ∀ (d a : Fin 128) s x, s.acting = some x → x.plain → x.level = 1 ∨ x.level = 2 →
    s.storesPending x.gid x.co.mask 2 = false →
    let target : Nat → Nat := fun l => if x.level = 1 then tkey x.team.lease (x.team.xten.getD 16)
      else tkey x.team.lease ((V s x l d).toNat % 16)
    let drops : Instr → (Nat → TlbEntry → Prop) → Prop := fun i covers =>
      (x.co.mark = 0 → ∃ t, exec i s = .next t ∧ t.mem = s.mem ∧
        (∀ c, ∀ e ∈ (t.core c).tlb, e ∈ (s.core c).tlb ∧ ¬ ∃ l ∈ x.lanes, e.ten = target l ∧ covers l e) ∧
        (∀ c, ∀ e ∈ (s.core c).tlb, (∀ l ∈ x.lanes, ¬ (e.ten = target l ∧ covers l e)) → e ∈ (t.core c).tlb) ∧
        (∀ q, ∀ e, e ∈ (t.quad q).walkAhead ↔ e ∈ (s.quad q).walkAhead ∧ ¬ ∃ l ∈ x.lanes, e.ten = target l ∧ covers l e) ∧
        (∀ q, ∀ e, e ∈ (t.quad q).walks ↔ e ∈ (s.quad q).walks ∧ ∀ l ∈ x.lanes, e.ten ≠ target l) ∧
        Then t x.gid (fun h => ∃ co, assocGet? h.cohorts x.cid = some co ∧ co.mark ≠ 0 ∧ co.idx = x.co.idx)) ∧
      (x.co.mark ≠ 0 → (∀ y ∈ s.accesses, x.co.mark ≤ y.1 + 1) →
        (∀ q ∈ s.quads, ∀ c ∈ q.2.copies, ∀ j ∈ c.2.writing, x.co.mark ≤ j + 1 ∨ s.access? j = none) → ∃ t, exec i s = .next t ∧ GangStep s t x.gid ∧ NoResult t x ∧
          Then t x.gid (fun h => Stand x h (fun _ => x.co.nextPc)))
    drops (.tlbiVa d a) (fun l e => P s x l a < 2 ^ 48 ∧
      e.vpage * 2 ^ 16 / 2 ^ e.leaves.pageLog = P s x l a / 2 ^ e.leaves.pageLog) ∧
    (x.level = 2 → drops (.tlbiTa d a) (fun l e =>
      e.leaves.ta / 2 ^ pageLog e.leaves.l2 = P s x l a / 2 ^ pageLog e.leaves.l2)) ∧
    drops (.tlbiAll d) (fun _ _ => True)

/-- 17 R329: `eret` leaves the frame: the level and the enclosing frame come back, and the lane goes on at TPC, or at a
header when the index is 15; a lane in no frame traps with 0x02. -/
def Obligations.TrapReturn : Prop :=
  ∀ s x, s.acting = some x → x.plain → x.level ≠ 0 →
    (∀ l i f, x.lanes = [l] → (x.gang.lane l).frame = some i → assocGet? x.gang.frames i = some f →
      f.sfr = true ∨ f.skip = false ∨ f.tpc.idx = 15 →
      ∃ t, exec .eret s = .next t ∧ GangOnly s t x.gid ∧ NoResult t x ∧ Then t x.gid (fun h =>
        (h.lane l).level = f.prev ∧ (h.lane l).frame = f.outer ∧ (h.lane l).rep = f.rep ∧
        (h.lane l).pc = (if f.tpc.idx = 15 then ⟨f.tpc.addr, 0⟩ else f.tpc) ∧ (h.lane l).regs = (x.gang.lane l).regs ∧
        (f.mask &&& ~~~maskOf [l] = 0 → assocGet? h.frames i = none) ∧
        (f.mask &&& ~~~maskOf [l] ≠ 0 → assocGet? h.frames i = some { f with mask := f.mask &&& ~~~maskOf [l] }))) ∧
    ∀ l, x.lanes = [l] → (x.gang.lane l).frame = none → x.mayTrap →
      ∃ t, exec .eret s = .next t ∧ TookTrap s t x (maskOf [l]) 0x02 0 x.co.hdr

/-- 17 R330: `trlane` and `twlane`, and the trap on a lane number at or above GWIDTH. -/
def Obligations.OtherLanes : Prop :=
  ∀ (d n b : Fin 128) s x, s.acting = some x → x.plain → x.level ≠ 0 →
    let target : Nat → Nat := fun l => (V s x l b).toNat
    ((∀ l ∈ x.lanes, target l < x.gang.width ∧ x.gang.unsettled (target l) n.val = false) →
      ∃ t, exec (.trlane d n b) s = .next t ∧ GangStep s t x.gid ∧
        Wrote t x (fun l => [(d.val, if (x.gang.lane (target l)).live then V s x (target l) n else 0)])) ∧
    (∀ l, x.lanes = [l] → target l < x.gang.width → target l < x.gang.lanes.length → target l < 64 →
      n.val < 8 * x.gang.nregs → (x.gang.lane (target l)).live = true →
      ∃ t, exec (.twlane n b d) s = .next t ∧ GangOnly s t x.gid ∧ NoResult t x ∧ Then t x.gid (fun h =>
        Stand x h (fun _ => x.co.nextPc) ∧ t.reg h (target l) n.val = V s x l d ∧
        RegsKept (x.gang.lane (target l)) (h.lane (target l)) [n.val] ∧
        ∀ k, k ≠ target l → (h.lane k).regs = (x.gang.lane k).regs)) ∧
    ∀ l, x.lanes = [l] → x.gang.width ≤ target l → x.mayTrap → x.gang.unsettled (target l) n.val = false →
      ∃ t u, exec (.trlane d n b) s = .next t ∧ exec (.twlane n b d) s = .next u ∧
        TookTrap s t x (maskOf [l]) 0x02 0 x.co.hdr ∧ TookTrap s u x (maskOf [l]) 0x02 0 x.co.hdr

/-- 17 R331: what each form of `halt` stops, HALTCODE of the tenant, and where the issuing lanes of `halt.other` stand. -/
def Obligations.Halts : Prop :=
  ∀ (a b : Fin 128) s x ten, s.acting = some x → x.plain → x.co.mask ≠ 0 → x.team.tenant = some ten →
    (assocGet? s.tenants (tkey x.team.lease ten)).isSome →
    let code := (V s x (x.lanes.headD 0) b).toNat % 2 ^ 31
    let stopped : State → Nat → Prop := fun t k => (∃ tm, t.team? k = some tm ∧ tm.halted = true) ∧
      ∀ gid g, s.gang? gid = some g → g.team = k → Then t gid (fun h => h.cohorts = [] ∧ h.waits = [] ∧ h.frames = [] ∧
        h.results = [] ∧ ∀ l, l < 64 → (h.lane l).live = false)
    let marked : State → Nat → Prop := fun t k => (t.tenantOf k).haltcode = code
    (∃ t, exec (.halt b) s = .next t ∧ stopped t x.gang.team ∧ marked t (tkey x.team.lease ten)) ∧
    (x.level ≠ 0 → ∃ t, exec (.haltLaunch b) s = .next t ∧ marked t (tkey x.team.lease ten) ∧
      ∀ k tm, s.team? k = some tm → tm.launch = x.team.launch → tm.halted = false → stopped t k) ∧
    (x.level ≠ 0 → ∃ t, exec (.haltTenant b) s = .next t ∧ marked t (tkey x.team.lease ten) ∧
      (∀ k tm, s.team? k = some tm → tm.lease = x.team.lease → tm.tenant = some ten → tm.halted = false → stopped t k) ∧
      ∀ k y, t.launch? k = some y → y.dom = .tenant x.team.lease ten → y.halted = true ∧ y.returned = []) ∧
    (x.level = 2 → ∀ n, n = (V s x (x.lanes.headD 0) a).toNat % 16 → n ≠ ten → 2 ≤ (s.tenantOf (tkey x.team.lease n)).state →
      ∃ t, exec (.haltOther a b) s = .next t ∧ marked t (tkey x.team.lease n) ∧
        (∀ k tm, s.team? k = some tm → tm.lease = x.team.lease → tm.tenant = some n → tm.halted = false → stopped t k) ∧
        Then t x.gid (fun h => Stand x h (fun _ => ⟨(x.co.hdr + 4 * (x.co.count + 1)) % 2 ^ 48, 0⟩) ∧
          ((∃ k tm, (k, tm) ∈ s.teams ∧ tm.lease = x.team.lease ∧ tm.tenant = some n ∧ tm.halted = false) →
            ∀ l ∈ x.lanes, (h.lane l).parked = true)))

/-! ### Memory words, for a cohort of one lane -/

/-- 09 R193, R195, R196, 11 R264: a load of ordinary memory. With a valid copy in the core's L1 and nothing of the core under
way its registers are outstanding with the bytes; without a copy its access is on its way to the home, and with a write of
the core to the bytes on its way there it waits in the core; in both cases the cohort waits at the word, which is how the
model shows a load that has not been decided (log entry 14). -/
def Obligations.LoadsBegin : Prop :=
  ∀ (d a : Fin 128) (i : Fin 2048) s x l u y, s.acting = some x → x.plain → x.lanes = [l] → x.level < 3 → x.co.hold = false →
    ∀ p ∈ [(Instr.ldB d a i, 1, false), (.ldBs d a i, 1, true), (.ldH d a i, 2, false), (.ldHs d a i, 2, true),
        (.ldW d a i, 4, false), (.ldD d a i, 8, false), (.ldQ d a i, 16, false)],
      let size : Nat := p.2.1
      let va := addrOf s x l a i size
      let quiet := ∀ q ∈ u.accesses, q.2.gang ≠ x.gid ∧ q.2.core ≠ x.gang.core
      let waits := fun (t : State) (ph : Phase) => Begun t x l y ph (fun acc => acc.op = .load ∧ acc.va = va ∧
        acc.size = size ∧ acc.signed = p.2.2 ∧ AwaitsAccess t x l d.val ((size + 3) / 4) acc)
      va % size = 0 → s.issue.xlate l x.ctx va 0 false = (u, .ok y) → y.kind = 0 → y.mode = 0 →
      u.pinOf (lineOf y.pa) = none → u.reads0 y = false →
      (assocGet? (u.core x.gang.core).l1 (lineOf y.pa) = none → quiet →
        ∃ t, exec p.1 s = .next t ∧ t.mem = u.mem ∧ waits t .toHome) ∧
      ∀ ln, assocGet? (u.core x.gang.core).l1 (lineOf y.pa) = some ln →
        (WritePending u x.gang.core y.pa size → ∃ t, exec p.1 s = .next t ∧ t.mem = u.mem ∧ waits t .atCore) ∧
        (quiet → (∀ q ∈ u.accesses, ∀ cs, q.2.phase = .updating cs → x.gang.core ∉ cs) → ln.leaving = false → u.marks = [] →
          ln.data.length = 64 → y.pa % size = 0 →
          ∃ t, exec p.1 s = .next t ∧ t.mem = u.mem ∧
            Wrote t x (fun _ => loaded size p.2.2 d.val ((ln.data.drop (y.pa % 64)).take size)) ∧
            Then t x.gid (fun h => Stand x h (fun _ => x.co.nextPc)))

/-- 09 R201, R202, 11 R264: a bounded load of a round region, with nothing of the core under way, is served by the core's copy
when its stamp lies within the bound of the core's view; without such a copy mode 0 sends it to the home with the view, and
mode 1 traps with 0x0E and the region. With a copy in the core and a write of the core to the bytes on its way, it waits in
the core (log entry 79). Its address is taken modulo 2^64 (log entry 100), and the cohort that stays at its word is the
model's (log entry 14). -/
def Obligations.BoundedLoads : Prop :=
  ∀ (d a : Fin 128) (b : Fin 16) (m : Fin 2) (o : Fin 64) s x l u y, s.acting = some x → x.plain → x.lanes = [l] →
    x.level < 3 → x.co.hold = false →
    ∀ p ∈ [(Instr.ldbW d a b m o, 4), (.ldbD d a b m o, 8), (.ldbQ d a b m o, 16)],
      let size : Nat := p.2
      let va := (P s x l a + o.val * size) % 2 ^ 64
      let view := (u.tenantOf x.team.part).view (viewKeyCore x.gang.core y.round)
      let fresh := fun (ln : L1Line) => assocGet? (u.core x.gang.core).l1 (lineOf y.pa) = some ln ∧ ln.leaving = false ∧
        view ≤ ln.stamp + b.val
      va % size = 0 → s.issue.xlate l x.ctx va 0 false = (u, .ok y) → y.kind = 0 → y.mode = 1 →
      u.pinOf (lineOf y.pa) = none → u.reads0 y = false → (∀ q ∈ u.accesses, q.2.gang = x.gid → q.2.phase ≠ .fill) →
      (∀ ln, fresh ln → (∀ q ∈ u.accesses, q.2.core ≠ x.gang.core) → ln.data.length = 64 → y.pa % size = 0 →
        ∃ t, exec p.1 s = .next t ∧ t.mem = u.mem ∧
          Wrote t x (fun _ => loaded size false d.val ((ln.data.drop (y.pa % 64)).take size)) ∧
          Then t x.gid (fun h => Stand x h (fun _ => x.co.nextPc))) ∧
      (∀ ln, assocGet? (u.core x.gang.core).l1 (lineOf y.pa) = some ln → WritePending u x.gang.core y.pa size →
        ∃ t, exec p.1 s = .next t ∧ t.mem = u.mem ∧ Begun t x l y .atCore (fun acc => acc.op = .bounded view ∧
          acc.size = size ∧ acc.bound = b.val ∧ (acc.trapMode = true ↔ m = 1) ∧ AwaitsAccess t x l d.val (size / 4) acc)) ∧
      ((¬ ∃ ln, fresh ln) → (∀ q ∈ u.accesses, q.2.core ≠ x.gang.core) →
        (m = 0 → ∃ t, exec p.1 s = .next t ∧ t.mem = u.mem ∧
          Begun t x l y .toHome (fun acc => acc.op = .bounded view ∧ acc.size = size ∧
            AwaitsAccess t x l d.val (size / 4) acc)) ∧
        (m = 1 → x.mayTrap → ∃ t, exec p.1 s = .next t ∧ t.mem = u.mem ∧
          TookTrap s t x (maskOf [l]) 0x0E y.round va))

/-- 09 R206, R208, 17 R335: an atomic is on its way to its home with its operands, order and scope, and the cohort waits for
it; one with release order does so once every earlier access of its lane has taken effect and no record is due. While the
value of an earlier atomic of the lane on the line is under way, it waits in the core. -/
def Obligations.AtomicsBegin : Prop :=
  ∀ (o sc : Fin 4) (d a b : Fin 128) s x l u y, s.acting = some x → x.plain → x.lanes = [l] → x.level < 3 →
    ∀ p ∈ [(Instr.atomAdd o sc d a b, 0), (.atomMin o sc d a b, 1), (.atomMax o sc d a b, 2), (.atomUmin o sc d a b, 3),
        (.atomUmax o sc d a b, 4), (.atomAnd o sc d a b, 5), (.atomOr o sc d a b, 6), (.atomXor o sc d a b, 7),
        (.atomXchg o sc d a b, 8), (.atomCas o sc d a b, 9), (.atomFadd o sc d a b, 10), (.atomAdd64 o sc d a b, 11)],
      let size : Nat := if p.2 = 11 then 8 else 4
      let va := P s x l a
      va % size = 0 → (if 2 ≤ o.val then s.beginWord else s).issue.xlate l x.ctx va 3 false = (u, .ok y) → y.kind = 0 →
      (2 ≤ o.val → s.accessPending x.gid x.co.mask sc.val = false ∧ s.dueRecords x.gid x.co.mask true = []) →
      let waits := fun (ph : Phase) => ∃ t, exec p.1 s = .next t ∧ t.mem = u.mem ∧ Begun t x l y ph (fun acc =>
        acc.op = .atomic p.2 ∧ acc.va = va ∧
        acc.size = size ∧ acc.ord = o.val ∧ acc.scope = sc.val ∧ acc.cmp = (V s x l d).toNat ∧
        acc.data.length = size ∧ ofLeBytes acc.data = (if p.2 = 11 then P s x l b else (V s x l b).toNat) ∧
        AwaitsAccess t x l d.val (size / 4) acc)
      ((∀ q ∈ u.accesses, q.2.gang = x.gid → lineOf q.2.pa ≠ lineOf y.pa) → waits .toHome) ∧
      ∀ q w k, (q, w) ∈ u.accesses → q < u.nextId → w.op = .atomic k → w.gang = x.gid → w.lane = l → w.core = x.gang.core →
        w.kind = 0 → w.phase = .toHome → lineOf w.pa = lineOf y.pa → waits .atCore

/-- 09 R196, R199, R200, R210: a store or a reduction issues when the store-fault queue has room for its record; it is on
its way to its home with its bytes, nothing is outstanding, and the cohort goes on. -/
def Obligations.StoresBegin : Prop :=
  ∀ (d a b : Fin 128) (i : Fin 2048) (o sc : Fin 4) s x l u y, s.acting = some x → x.plain → x.lanes = [l] →
    x.level < 3 → x.co.done = 0 → 1 ≤ s.sfqFree x.gang.core →
    let begun : Cohort → Cohort := fun c => { c with done := x.co.mask, num := x.gang.seq + 1 }
    (∀ p ∈ [(Instr.stB d a i, 1), (.stH d a i, 2), (.stW d a i, 4), (.stD d a i, 8), (.stQ d a i, 16)],
      let va := addrOf s x l a i p.2
      va % p.2 = 0 → (s.issue.onCohort begun).xlate l x.ctx va 1 false = (u, .ok y) →
      y.kind = 0 → ∃ t, exec p.1 s = .next t ∧ t.mem = u.mem ∧ NoResult t x ∧
        Begun t x l y .toHome (fun acc => acc.op = .store ∧ acc.va = va ∧ acc.size = p.2 ∧ acc.data.length = p.2 ∧
          ofLeBytes acc.data = regsNat s x l d.val ((p.2 + 3) / 4) % 2 ^ (8 * p.2)) ∧
        Then t x.gid (fun h => Stand x h (fun _ => x.co.nextPc) ∧ ∀ k, (x.gang.lane k).sameBut (h.lane k))) ∧
    ∀ p ∈ [(Instr.redAdd o sc a b, 0), (.redMin o sc a b, 1), (.redMax o sc a b, 2), (.redAnd o sc a b, 5),
        (.redOr o sc a b, 6), (.redXor o sc a b, 7), (.redFadd o sc a b, 10)],
      P s x l a % 4 = 0 →
      ((if 2 ≤ o.val then s.beginWord else s).issue.onCohort begun).xlate l x.ctx (P s x l a) 3 false = (u, .ok y) →
      y.kind = 0 →
      (2 ≤ o.val → s.accessPending x.gid x.co.mask sc.val = false ∧ s.dueRecords x.gid x.co.mask true = []) →
      ∃ t, exec p.1 s = .next t ∧ t.mem = u.mem ∧ NoResult t x ∧
        Begun t x l y .toHome (fun acc => acc.op = .red p.2 ∧ acc.size = 4 ∧ acc.ord = o.val ∧ acc.scope = sc.val ∧
          acc.data.length = 4 ∧ ofLeBytes acc.data = (V s x l b).toNat) ∧
        Then t x.gid (fun h => Stand x h (fun _ => x.co.nextPc) ∧ ∀ k, (h.lane k).regs = (x.gang.lane k).regs)

/-- 09 R212 to R214, 11 R275, 08 R190: `sacc` on a sum-range page adds an exact integer to the core's partial of the element
and makes the core a holder of the line, where its L1 has room; on a page that is discarded or being filled, or behind an
access of its lane to the element that has not been executed, it is on its way to the home; on a page of another mode it is a relaxed reduction at partition scope. -/
def Obligations.SumRangeWords : Prop :=
  ∀ (a b : Fin 128) s x l u y, s.acting = some x → x.plain → x.lanes = [l] → x.level < 3 → x.co.done = 0 →
    1 ≤ s.sfqFree x.gang.core → P s x l a % 8 = 0 →
    (s.issue.onCohort (fun c => { c with done := x.co.mask, num := x.gang.seq + 1 })).xlate l x.ctx (P s x l a) 3 false = (u, .ok y) →
    y.kind = 0 →
    ∀ p ∈ [(Instr.saccW a b, false), (.saccF a b, true)],
      let key := if y.mode = 2 then 2 * y.pa else 2 * y.pa + 1
      let n : Int := if p.2 then
          (if y.mode = 2 then enterSum 0 (-2 ^ 31) (2 ^ 31 - 1) (V s x l b).toNat
           else enterSum y.point (-2 ^ 63) (2 ^ 63 - 1) (V s x l b).toNat)
        else (V s x l b).toInt
      let late := u.reads0 y = true ∨ y.pa / 2 ^ 16 ∈ u.fills ∨
        u.wordUnder x.gid l y.pa (if y.mode = 3 then 8 else 4) = true
      let held := fun (v : State) (k : Nat) => assocGet? (v.core x.gang.core).partials k
      (y.mode = 2 ∨ y.mode = 3 → ¬ late → u.hasRoom x.gang.core (lineOf y.pa) = true →
        ∃ t, exec p.1 s = .next t ∧ t.mem = u.mem ∧ NoResult t x ∧
        held t key = some ⟨((held u key).map Partial.sum).getD 0 + n, x.team.part, y.aidx⟩ ∧
        (∀ k, k ≠ key → held t k = held u k) ∧
        x.gang.core ∈ assocGet [] t.holders (lineOf y.pa) ∧
        Then t x.gid (fun h => Stand x h (fun _ => x.co.nextPc) ∧ ∀ k, (x.gang.lane k).sameBut (h.lane k))) ∧
      (y.mode = 2 ∨ y.mode = 3 → late → ∃ t, exec p.1 s = .next t ∧ t.mem = u.mem ∧ NoResult t x ∧
        Begun t x l y .toHome (fun acc => acc.op = .sacc n)) ∧
      (y.mode ≠ 2 → y.mode ≠ 3 → ∃ t, exec p.1 s = .next t ∧ t.mem = u.mem ∧ NoResult t x ∧
        Begun t x l y .toHome (fun acc => acc.op = .red (if p.2 then 10 else 0) ∧ acc.ord = 0 ∧ acc.scope = 2))

/-- 09 R194, 17 R321, 18 R347: a misaligned address traps a load, a bounded load or an atomic, of any order and scope, with 0x04,
with the space and size in TINFO and the address in TADDR; a store, a reduction or a `sacc` records it and goes on. A word with
release order does so once every earlier access of its lanes has taken effect and no record is due (17 R335). The size that a
`sacc` records is log entry 88, and the address of a bounded load modulo 2^64 log entry 100. -/
def Obligations.MisalignedAccess : Prop :=
  ∀ (d a b : Fin 128) (i : Fin 2048) (o sc : Fin 4) (bd : Fin 16) (m : Fin 2) (k : Fin 64) s x l, s.acting = some x →
    x.plain → x.lanes = [l] → x.level < 3 →
    (2 ≤ o.val → s.accessPending x.gid x.co.mask sc.val = false ∧ s.dueRecords x.gid x.co.mask true = []) →
    let traps : Instr → Nat → Nat → Prop := fun w size va => va % size ≠ 0 →
      ∃ t, exec w s = .next t ∧ TookTrap s t x (maskOf [l]) 0x04 (16 * Nat.log2 size) va
    (x.mayTrap →
      (∀ p ∈ [(Instr.ldH d a i, 2), (.ldHs d a i, 2), (.ldW d a i, 4), (.ldD d a i, 8), (.ldQ d a i, 16)],
        traps p.1 p.2 (addrOf s x l a i p.2)) ∧
      (∀ p ∈ [(Instr.ldbW d a bd m k, 4), (.ldbD d a bd m k, 8), (.ldbQ d a bd m k, 16)],
        traps p.1 p.2 ((P s x l a + k.val * p.2) % 2 ^ 64)) ∧
      (∀ w ∈ [Instr.atomAdd o sc d a b, .atomMin o sc d a b, .atomMax o sc d a b, .atomUmin o sc d a b, .atomUmax o sc d a b,
          .atomAnd o sc d a b, .atomOr o sc d a b, .atomXor o sc d a b, .atomXchg o sc d a b, .atomCas o sc d a b,
          .atomFadd o sc d a b], traps w 4 (P s x l a)) ∧
      traps (.atomAdd64 o sc d a b) 8 (P s x l a)) ∧
    (x.co.done = 0 → 1 ≤ s.sfqFree x.gang.core →
      (∀ q ∈ (s.core x.gang.core).sfq, q.gang = x.gid → q.seq ≤ x.gang.seq) →
      let records : Instr → Nat → Nat → Nat → Nat → Prop := fun w size va kind synd => va % size ≠ 0 →
        ∃ t, exec w s = .next t ∧ t.mem = s.mem ∧ t.accesses = s.accesses ∧ NoResult t x ∧
          ∃ r, (t.core x.gang.core).sfq = (s.core x.gang.core).sfq ++ [r] ∧ r.gang = x.gid ∧ r.lane = l ∧ r.cause = 0x04 ∧
            r.size = size ∧ r.addr = va ∧ r.clause = x.co.hdr ∧ r.widx = x.co.idx ∧ r.kind = kind ∧ r.synd = synd
      (∀ p ∈ [(Instr.stH d a i, 2), (.stW d a i, 4), (.stD d a i, 8), (.stQ d a i, 16)],
        records p.1 p.2 (addrOf s x l a i p.2) 0 0x40) ∧
      (∀ w ∈ [Instr.redAdd o sc a b, .redMin o sc a b, .redMax o sc a b, .redAnd o sc a b, .redOr o sc a b, .redXor o sc a b,
          .redFadd o sc a b], records w 4 (P s x l a) 1 0xC0) ∧
      ∀ w ∈ [Instr.saccW a b, .saccF a b], records w 4 (P s x l a) 2 0xC0)

/-- 08 R172, R173, 09 R203, R204, 17 R322: a scratch load of a team's own windows, by lanes that every write of the buffer
comes before and that have no A-buffer atomic in flight, gives the little-endian words at its offset; where a write of
another gang is not ordered before it, the bytes may be older ones (log entry 90). An offset outside the windows traps with
0x05, a negative one shown modulo 2^64 (log entry 22), and a double-bit error there halts the team. -/
def Obligations.ScratchLoads : Prop :=
  ∀ (d a : Fin 128) (i : Fin 2048) s x, s.acting = some x → x.plain → x.team.paired = false → x.gang.core = x.team.core →
    (∀ y ∈ s.accesses, y.2.scratchOf x.gid x.co.mask = false) →
    (∀ e ∈ (s.core x.gang.core).olds, ∀ l ∈ x.lanes, e.before x.gid (x.gang.lane l).vc = true) →
    ∀ p ∈ [(Instr.ldaH d a i, 2, false), (.ldaW d a i, 4, false), (.ldaQ d a i, 16, false), (.ldwQ d a i, 16, true)],
      let size : Nat := p.2.1
      let off : Nat → Int := fun l => (V s x l a).toNat + (BitVec.ofNat 11 i.val).toInt * size
      let base := if p.2.2 then x.team.wbase else x.team.abase
      let window := if p.2.2 then x.team.wsize else x.team.asize
      let buf := if p.2.2 then (s.core x.gang.core).wbuf else (s.core x.gang.core).abuf
      let bad := if p.2.2 then (s.core x.gang.core).wBad else (s.core x.gang.core).aBad
      let errs := if p.2.2 then (s.core x.gang.core).wErr else (s.core x.gang.core).aErr
      let within : Nat → Prop := fun l => off l % size = 0 ∧ 0 ≤ off l ∧ off l < window
      ((∀ l ∈ x.lanes, within l ∧ (base + (off l).toNat) / 64 ∉ bad ∧ errIn errs (base + (off l).toNat) size = false) →
        ∃ t, exec p.1 s = .next t ∧ GangStep s t x.gid ∧
          Wrote t x (fun l => loaded size false d.val (memRead buf (base + (off l).toNat) size))) ∧
      ((∃ l ∈ x.lanes, within l ∧ errIn errs (base + (off l).toNat) size = true) →
        ∃ t tm, exec p.1 s = .next t ∧ t.team? x.gang.team = some tm ∧ tm.halted = true) ∧
      ∀ l, x.lanes = [l] → x.mayTrap → off l % size = 0 → ¬ (0 ≤ off l ∧ off l < window) →
        ∃ t, exec p.1 s = .next t ∧ TookTrap s t x (maskOf [l]) 0x05
          ((if p.2.2 then 2 else 1) + 16 * Nat.log2 size) ((off l) % 2 ^ 64).toNat

/-- 08 R172, 09 R203 to R205: a scratch store of one lane, which every write of the buffer comes before and which has no
A-buffer atomic in flight, writes its bytes at its offset, and every other byte of the buffers, of DRAM and of the other
cores stays. (Of two writes that nothing orders either may come out as the later: log entry 90.) -/
def Obligations.ScratchStores : Prop :=
  ∀ (d a : Fin 128) (i : Fin 2048) s x l, s.acting = some x → x.plain → x.team.paired = false →
    x.gang.core = x.team.core → x.lanes = [l] → x.co.done = 0 → 1 ≤ s.sfqFree x.gang.core →
    (∀ y ∈ s.accesses, y.2.scratchOf x.gid x.co.mask = false) →
    (∀ e ∈ (s.core x.gang.core).olds, e.before x.gid (x.gang.lane l).vc = true) →
    ∀ p ∈ [(Instr.staH d a i, 2, false), (.staW d a i, 4, false), (.staQ d a i, 16, false), (.stwQ d a i, 16, true)],
      let size : Nat := p.2.1
      let off : Int := (V s x l a).toNat + (BitVec.ofNat 11 i.val).toInt * size
      let base := if p.2.2 then x.team.wbase else x.team.abase
      let window := if p.2.2 then x.team.wsize else x.team.asize
      let value := regsNat s x l d.val ((size + 3) / 4)
      memCanon (if p.2.2 then (s.core x.gang.core).wbuf else (s.core x.gang.core).abuf) = true →
      off % size = 0 → 0 ≤ off → off < window →
        ∃ t, exec p.1 s = .next t ∧ t.mem = s.mem ∧ t.host = s.host ∧ NoResult t x ∧
          (∀ c, c ≠ x.gang.core → t.core c = s.core c) ∧
          (∀ k, memByte (if p.2.2 then (t.core x.gang.core).wbuf else (t.core x.gang.core).abuf) k =
            if base + off.toNat ≤ k ∧ k < base + off.toNat + size then
              BitVec.ofNat 8 (value / 2 ^ (8 * (k - (base + off.toNat))))
            else memByte (if p.2.2 then (s.core x.gang.core).wbuf else (s.core x.gang.core).abuf) k) ∧
          (if p.2.2 then (t.core x.gang.core).abuf = (s.core x.gang.core).abuf
            else (t.core x.gang.core).wbuf = (s.core x.gang.core).wbuf) ∧
          Then t x.gid (fun h => Stand x h (fun _ => x.co.nextPc) ∧ ∀ k, (x.gang.lane k).sameBut (h.lane k))

/-- 09 R211, 15 R316: an A-buffer atomic of one lane that has none in flight goes on its way with its operands, its result
outstanding, and nothing else has changed; when it is applied, its result is the old word and the new one is stored, and every
other byte stays. That it is in flight until some agent's step applies it is the model's reading (log entry 109). -/
def Obligations.ScratchAtomics : Prop :=
  ∀ (d a b : Fin 128) s x l, s.acting = some x → x.plain → x.team.paired = false → x.gang.core = x.team.core →
    x.lanes = [l] → (V s x l a).toNat % 4 = 0 → (V s x l a).toNat < x.team.asize →
    x.team.abase + x.team.asize ≤ 2 ^ 20 → memCanon (s.core x.gang.core).abuf = true →
    errIn (s.core x.gang.core).aErr (x.team.abase + (V s x l a).toNat) 4 = false →
    (∀ y ∈ s.accesses, y.2.scratchOf x.gid x.co.mask = false) →
    let at_ := x.team.abase + (V s x l a).toNat
    let old := BitVec.ofNat 32 (memNat (s.core x.gang.core).abuf at_ 4)
    ∀ p ∈ [(Instr.scaAdd d a b, 0), (.scaMin d a b, 1), (.scaMax d a b, 2), (.scaUmin d a b, 3), (.scaUmax d a b, 4),
        (.scaAnd d a b, 5), (.scaOr d a b, 6), (.scaXor d a b, 7), (.scaXchg d a b, 8), (.scaCas d a b, 9),
        (.scaFadd d a b, 10)],
      ∃ t id acc, exec p.1 s = .next t ∧ t.mem = s.mem ∧ t.host = s.host ∧ t.cores = s.cores ∧
        assocGet? t.accesses id = some acc ∧ acc.phase = .scratch ∧ acc.op = .atomic p.2 ∧ acc.gang = x.gid ∧ acc.lane = l ∧
        acc.dst = [s.nextId] ∧
        Then t x.gid (fun h => Stand x h (fun _ => x.co.nextPc) ∧ (∀ k, (x.gang.lane k).sameBut (h.lane k)) ∧
          (s.nextId, (⟨l, d.val, x.gang.seq + 1, none, false, true, false, none⟩ : Pending)) ∈ h.results) ∧
        let u := t.scratchApply id
        assocGet? u.accesses id = none ∧ u.mem = s.mem ∧ u.host = s.host ∧ u.due x.gid l d.val (x.gang.seq + 1) old ∧
        (∀ c, c ≠ x.gang.core → u.core c = s.core c) ∧ (u.core x.gang.core).wbuf = (s.core x.gang.core).wbuf ∧
        ∀ k, memByte (u.core x.gang.core).abuf k =
          if at_ ≤ k ∧ k < at_ + 4 then
            BitVec.ofNat 8 ((atomicResult p.2 old (V s x l b) (V s x l d)).toNat / 2 ^ (8 * (k - at_)))
          else memByte (s.core x.gang.core).abuf k

/-! ### Synchronisation words -/

/-- 12 R286, R287, 09 R217, 11 R268: a fence whose accesses have taken effect, and `sdrain` whose stores have, go on at
once. A fence with a release side and a scope above the team publishes the pins of the team; the other waits park. -/
def Obligations.FencesAndDrains : Prop :=
  ∀ (sc : Fin 4) s x, s.acting = some x → x.plain → x.co.mask ≠ 0 →
    let loaded := ∀ r ∈ x.gang.results, r.2.isLoad = true → r.2.lane ∉ x.lanes
    let quiet := s.dueRecords x.gid x.co.mask true = []
    let pins := (s.core x.team.core).pins
    let goesOn : Instr → (State → Prop) → Prop := fun i p => ∃ t, exec i s = .next t ∧ NoResult t x ∧ t.host = s.host ∧
      p t ∧ Then t x.gid (fun h => Stand x h (fun _ => x.co.nextPc) ∧ ∀ l, (h.lane l).regs = (x.gang.lane l).regs)
    let same : State → Prop := fun t => t.mem = s.mem
    let parks : Instr → Prop := fun i => ∃ t, exec i s = .next t ∧ same t ∧ Then t x.gid (fun h =>
      Stand x h (fun _ => x.pc) ∧ ∀ l ∈ x.lanes, (h.lane l).parked = true ∧ (h.lane l).regs = (x.gang.lane l).regs)
    (loaded → goesOn (.fence sc 1) same) ∧ (¬ loaded → parks (.fence sc 1)) ∧
    (quiet → s.accessPending x.gid x.co.mask sc.val = false → sc = 0 ∨ (∀ p ∈ pins, p.2.team ≠ x.gang.team) →
      goesOn (.fence sc 2) same ∧ (loaded → goesOn (.fence sc 3) same)) ∧
    (quiet → s.accessPending x.gid x.co.mask sc.val = false → sc ≠ 0 → memCanon s.mem = true →
      ∀ line p, pins = [(line, p)] → p.team = x.gang.team → p.data.length = 64 →
        goesOn (.fence sc 2) (fun t => (t.core x.team.core).pins = [] ∧
          ∀ k, memByte t.mem k = if k / 64 = line then p.data.getD (k % 64) 0 else memByte s.mem k)) ∧
    (s.accessPending x.gid x.co.mask sc.val = true → parks (.fence sc 2) ∧ parks (.fence sc 3)) ∧
    (quiet → s.storesPending x.gid x.co.mask 2 = false → goesOn .sdrain same) ∧
    (s.storesPending x.gid x.co.mask 2 = true → parks .sdrain)

/-- 12 R288 to R290, 11 R282: `radv` counts the round of its region up and publishes it, `racq` obtains it or parks,
`rview` and `rviewCnt` read. -/
def Obligations.RoundWords : Prop :=
  ∀ (d va : Fin 128) (k : Fin 32),
    GivesWord (.rview d k) d (fun s x _ =>
      BitVec.ofNat 32 ((s.tenantOf x.team.part).view (viewKeyCore x.gang.core k.val))) ∧
    GivesWord (.rviewCnt d k) d (fun s x _ => BitVec.ofNat 32 (assocGet 0 (s.tenantOf x.team.part).cnt k.val)) ∧
    ∀ s x, s.acting = some x → x.plain → x.co.mask ≠ 0 →
      let part := x.team.part
      let old := assocGet 0 (s.tenantOf part).cnt k.val
      let mine := viewKeyCore x.gang.core k.val
      let got : State → Nat → Prop := fun t c =>
        Wrote t x (fun _ => [(d.val, BitVec.ofNat 32 c)]) ∧ assocGet 0 (t.tenantOf part).cnt k.val = c ∧
        (t.tenantOf part).view mine = max ((s.tenantOf part).view mine) c ∧
        (∀ j, j ≠ mine → (t.tenantOf part).view j = (s.tenantOf part).view j) ∧
        (∀ j, j ≠ k.val → assocGet 0 (t.tenantOf part).cnt j = assocGet 0 (s.tenantOf part).cnt j) ∧
        Then t x.gid (fun h => Stand x h (fun _ => x.co.nextPc) ∧ (∀ l, (h.lane l).regs = (x.gang.lane l).regs) ∧
          assocGet 0 h.floors k.val = max (assocGet 0 x.gang.floors k.val) c)
      let settled := s.accessPending x.gid x.co.mask 2 = false ∧ s.dueRecords x.gid x.co.mask true = []
      (settled → old ≠ 0xFFFFFFFF → ∃ t, exec (.radv d k) s = .next t ∧ got t (old + 1) ∧
        ∀ j ∈ s.viewKeys x.team k.val, j ≠ mine → (j, old + 1, s.now) ∈ (t.tenantOf part).bcasts) ∧
      (settled → old = 0xFFFFFFFF → x.mayTrap → ∃ t, exec (.radv d k) s = .next t ∧
        TookTrap s t x x.co.mask 0x16 (2 ^ 31 + k.val) 0) ∧
      ((∀ l ∈ x.lanes, (V s x l va).toNat ≤ old) → ∃ t, exec (.racq d va k) s = .next t ∧ t.mem = s.mem ∧ got t old) ∧
      ((∃ l ∈ x.lanes, old < (V s x l va).toNat) → ∃ t, exec (.racq d va k) s = .next t ∧ t.mem = s.mem ∧
        Then t x.gid (fun h => Stand x h (fun _ => x.pc) ∧ ∀ l ∈ x.lanes, (h.lane l).parked = true))

/-- 12 R291 to R293: `mon` arms the lane's monitor and registers it, `munarm` ends it, and `mwait` gives 2 without a
monitor, 0 when it has fired or lapsed, 1 at a deadline of zero, and parks otherwise. While another team pins the line, `mon`
is refused: it tries again 64 enabled cycles later, and traps at the 16,384th refusal (11 R267). -/
def Obligations.MonitorWords : Prop :=
  ∀ (d b va : Fin 128) s x, s.acting = some x → x.plain →
    (∀ l u y, x.lanes = [l] → x.level < 3 → x.co.done = 0 → x.co.nextTry ≤ s.enabled x.gang.core →
      s.xlate l x.ctx (P s x l va) 0 false = (u, .ok y) → y.kind ≠ 1 →
      (s.pinOf (lineOf y.pa) = none → u.monRegs.length < 4096 →
        ∃ t, exec (.mon va) s = .next t ∧ t.mem = u.mem ∧ NoResult t x ∧
          (∃ r ∈ t.monRegs, r.line = lineOf y.pa ∧ r.gang = x.gid ∧ r.lane = l) ∧
          Then t x.gid (fun h => Stand x h (fun _ => x.co.nextPc) ∧
            (h.lane l).monitor = some { line := lineOf y.pa, va := P s x l va } ∧
            ∀ k, (h.lane k).regs = (x.gang.lane k).regs)) ∧
      ∀ c p, s.pinOf (lineOf y.pa) = some (c, p) → p.team ≠ x.gang.team →
        (x.co.mark + 1 < 16384 → ∃ t, exec (.mon va) s = .next t ∧ t.mem = u.mem ∧ t.monRegs = u.monRegs ∧
          Then t x.gid (fun h => h.lanes = x.gang.lanes ∧ ∃ co, assocGet? h.cohorts x.cid = some co ∧
            co.mark = x.co.mark + 1 ∧ co.nextTry = s.enabled x.gang.core + 64 ∧ co.idx = x.co.idx ∧ co.mask = x.co.mask)) ∧
        (x.co.mark + 1 = 16384 → x.mayTrap → ∃ t, exec (.mon va) s = .next t ∧ t.monRegs = u.monRegs ∧
          TookTrap s t x (maskOf [l]) 0x0D 0 (P s x l va))) ∧
    (∃ t, exec .munarm s = .next t ∧ t.mem = s.mem ∧ NoResult t x ∧
      (∀ r ∈ t.monRegs, r ∈ s.monRegs ∧ ¬ (r.gang = x.gid ∧ r.lane ∈ x.lanes)) ∧
      Then t x.gid (fun h => Stand x h (fun _ => x.co.nextPc) ∧ (∀ l ∈ x.lanes, (h.lane l).monitor = none) ∧
        ∀ k, (h.lane k).regs = (x.gang.lane k).regs)) ∧
    ∀ l, x.lanes = [l] →
      let ends : Instr → Nat → Prop := fun i st => ∃ t, exec i s = .next t ∧ GangOnly s t x.gid ∧
        Wrote t x (fun _ => [(d.val, BitVec.ofNat 32 st)]) ∧ Then t x.gid (fun h => Stand x h (fun _ => x.co.nextPc) ∧
          ∀ m, (h.lane l).monitor = some m → st = 0 → m.fired = false)
      ((x.gang.lane l).monitor = none → ends (.mwait d b) 2 ∧ ends (.mwaitTrap d b) 2) ∧
      ∀ m, (x.gang.lane l).monitor = some m →
        (m.fired = true ∨ m.lapsed = true → ends (.mwait d b) 0 ∧ ends (.mwaitTrap d b) 0) ∧
        (m.fired = false → m.lapsed = false → V s x l b = 0 → ends (.mwait d b) 1 ∧
          (x.mayTrap → ∃ t, exec (.mwaitTrap d b) s = .next t ∧
            TookTrap s t x (maskOf [l]) 0x0F 0 (m.va / 64 * 64))) ∧
        (m.fired = false → m.lapsed = false → V s x l b ≠ 0 → ∀ i ∈ [Instr.mwait d b, .mwaitTrap d b],
          ∃ t, exec i s = .next t ∧ GangOnly s t x.gid ∧ Then t x.gid (fun h => Stand x h (fun _ => x.pc) ∧
            (h.lane l).parked = true ∧ (h.lane l).regs = (x.gang.lane l).regs))

/-- 09 R215, R216: `cinv`, `pfetch` and `pfl2` of one lane whose address translates to DRAM, and the status of `pdisc`. -/
def Obligations.CacheWords : Prop :=
  ∀ (d va : Fin 128) s x l, s.acting = some x → x.plain → x.lanes = [l] →
    let on : State → Prop := fun t => NoResult t x ∧ Then t x.gid (fun h => Stand x h (fun _ => x.co.nextPc))
    (∀ u y, s.issue.xlate l x.ctx (P s x l va) 0 false = (u, .ok y) → y.kind = 0 → y.pa < 84 * 2 ^ 35 →
      (∃ t, exec (.cinv va) s = .next t ∧ on t ∧ assocGet? (t.core x.gang.core).l1 (lineOf y.pa) = none ∧
        x.gang.core ∉ assocGet [] t.sharers (lineOf y.pa) ∧ x.gang.core ∉ assocGet [] t.holders (lineOf y.pa) ∧
        (∀ c, c ≠ x.gang.core → t.core c = u.core c) ∧
        (x.gang.core ∉ assocGet [] u.holders (lineOf y.pa) → t.mem = u.mem)) ∧
      (y.mode = 0 ∨ y.mode = 1 ∨ y.mode = 5 → u.reads0 y = false → u.pinOf (lineOf y.pa) = none →
        ∃ t, exec (.pfetch va) s = .next t ∧ on t ∧ t.mem = u.mem ∧
          Begun t x l y .toHome (fun acc => acc.op = .prefetch ∧ acc.dst = [])) ∧
      (u.reads0 y = false → ∃ t, exec (.pfl2 va) s = .next t ∧ on t ∧ t.mem = u.mem ∧
        (u.inL2 (lineOf y.pa) = true → t.accesses = u.accesses) ∧
        (u.inL2 (lineOf y.pa) = false → Begun t x l y .toHome (fun acc => acc.op = .fillL2 ∧ acc.dst = [])))) ∧
    (s.storesPending x.gid x.co.mask 2 = false →
      let ends : Nat → (State → Prop) → Prop := fun st p => ∃ t, exec (.pdisc d va) s = .next t ∧
        Wrote t x (fun _ => [(d.val, BitVec.ofNat 32 st)]) ∧ p t ∧ Then t x.gid (fun h => Stand x h (fun _ => x.co.nextPc))
      (P s x l va % 2 ^ 16 ≠ 0 → x.mayTrap → ∃ t n, exec (.pdisc d va) s = .next t ∧
        TookTrap s t x (maskOf [l]) 0x04 (16 * n) (P s x l va)) ∧
      (P s x l va % 2 ^ 16 = 0 → ∀ y, s.issue.translate x.ctx (P s x l va) 1 false = .ok y → y.kind ≠ 1 →
        (x.level = 3 → ends 3 (fun t => t.mem = s.mem)) ∧
        (x.level < 2 → y.tabled = true → y.leaves.l1 ≠ 3 → ends 2 (fun _ => True)) ∧
        (x.level < 2 → y.tabled = true → y.leaves.l1 = 3 → y.leaves.e1.testBit 10 = true → ends 1 (fun _ => True)) ∧
        (x.level < 2 → y.tabled = true → y.leaves.l1 = 3 → y.leaves.e1.testBit 10 = false →
          (∀ c ∈ s.cores, c.2.pins = []) →
          ends 0 (fun t => y.kind = 0 → ∀ c, ∀ p ∈ (t.core c).l1, p.1 / 1024 ≠ y.pa / 2 ^ 16))))

/-- 10 R224 to R227: the semaphore words, without an engine trap due, on the set that the team's partition has on the
core. -/
def Obligations.SemaphoreWords : Prop :=
  ∀ (d n b : Fin 128) (w : Fin 16) s x, s.acting = some x → x.plain → x.co.mask ≠ 0 → x.gang.due = [] →
    let own := x.gang.core
    let partner := if own = x.team.core then x.team.core + 1 else x.team.core
    let v := (V s x x.leader b).toNat
    (64 ≤ n.val → x.team.paired = false → x.mayTrap →
      ∀ i ∈ [Instr.sinc n b, .swait n b, .sset n b, .sget d n w, .sdec n b],
        ∃ t, exec i s = .next t ∧ TookTrap s t x x.co.mask 0x15 5 0) ∧
    let set := 64 * x.team.part
    ∀ p, (n.val < 64 ∧ p = (own, set + n.val)) ∨
        (64 ≤ n.val ∧ x.team.paired = true ∧ p = (partner, set + (n.val - 64))) →
      let y := s.sem p
      let others : State → Prop := fun t => ∀ q, q ≠ p → t.sem q = s.sem q
      let on : State → Prop := fun t => NoResult t x ∧ others t ∧ Then t x.gid (fun h =>
        Stand x h (fun _ => x.co.nextPc) ∧ ∀ l, (h.lane l).regs = (x.gang.lane l).regs)
      let settled := s.accessPending x.gid x.co.mask 2 = false ∧ s.dueRecords x.gid x.co.mask true = []
      (y.value + v < 2 ^ 32 → settled → ∃ t, exec (.sinc n b) s = .next t ∧ on t ∧ (t.sem p).value = y.value + v ∧
        (t.sem p).err = y.err ∧ (t.sem p).faults = y.faults ∧ (t.sem p).record = y.record) ∧
      (2 ^ 32 ≤ y.value + v → x.mayTrap → ∃ t, exec (.sinc n b) s = .next t ∧ others t ∧ t.sem p = y ∧
        TookTrap s t x x.co.mask 0x16 n.val 0) ∧
      (y.err = false → v ≤ y.value → (∃ t, exec (.swait n b) s = .next t ∧ on t ∧ t.sem p = y ∧ t.mem = s.mem) ∧
        ∃ t, exec (.sdec n b) s = .next t ∧ on t ∧ (t.sem p).value = y.value - v ∧ t.mem = s.mem) ∧
      (y.err = false → y.value < v → ∀ i ∈ [Instr.swait n b, .sdec n b], ∃ t, exec i s = .next t ∧ t.mem = s.mem ∧
        others t ∧ t.sem p = y ∧ Then t x.gid (fun h => Stand x h (fun _ => x.pc) ∧
          ∀ l ∈ x.lanes, (h.lane l).parked = true)) ∧
      (y.err = true → x.mayTrap → ∀ i ∈ [Instr.swait n b, .sdec n b], ∃ t, exec i s = .next t ∧ t.sem p = y ∧
        TookTrap s t x x.co.mask 0x1A n.val 0) ∧
      (∃ t, exec (.sset n b) s = .next t ∧ on t ∧ t.mem = s.mem ∧ (t.sem p).value = v ∧ (t.sem p).err = false ∧
        (t.sem p).faults = 0 ∧ (t.sem p).record = []) ∧
      ∃ t, exec (.sget d n w) s = .next t ∧ GangStep s t x.gid ∧ Wrote t x (fun _ => [(d.val, BitVec.ofNat 32 (match w.val with
        | 0 => y.value
        | 1 => y.faults * 2 ^ 16 + (if y.err then 1 else 0)
        | j => y.record.getD (j - 2) 0))])

/-! ### Routes, work and engines -/

/-- 12 R296 to R301: the words of static routes at a station of an entry, and the entry's own steps. Which fields a write
that clears EN stores is log entry 75. -/
def Obligations.StaticRoutes : Prop :=
  (∀ (d va : Fin 128) (rt : Fin 64) (n : Fin 8) s x i ten, s.acting = some x → x.plain → x.co.mask ≠ 0 →
    x.gang.due = [] → x.team.tenant = some ten → s.stationIn x.team.lease ten rt.val x.gang.core = some i →
    let r := s.route x.team.lease ten rt.val
    let after : State → Route := fun t => t.route x.team.lease ten rt.val
    let fifo := assocGet [] r.fifos i
    let ahead := assocGet [] r.flight (i + 1)
    let room : Nat → Prop := fun k => k + (assocGet [] r.fifos (i + 1)).length + ahead.length ≤ 256
    let words : Nat → List Nat := fun k =>
      x.lanes.flatMap (fun l => (List.range k).map (fun j => (s.reg x.gang l (va.val + j)).toNat))
    let mayPut := r.en = true ∧ r.broken = false ∧ i < r.last
    let mayTake := r.en = true ∧ r.broken = false ∧ 0 < i
    let on : State → Prop := fun t => t.mem = s.mem ∧ Then t x.gid (fun h => Stand x h (fun _ => x.co.nextPc) ∧
      ∀ l, (h.lane l).regs = (x.gang.lane l).regs)
    let parks : Instr → Prop := fun j => ∃ t, exec j s = .next t ∧ t.mem = s.mem ∧ after t = r ∧ Then t x.gid (fun h =>
      Stand x h (fun _ => x.pc) ∧ ∀ l ∈ x.lanes, (h.lane l).parked = true)
    let put : State → List Nat → Prop := fun t ws => assocGet [] (after t).flight (i + 1) = ahead ++ ws ∧
      (after t).fifos = r.fifos ∧ ∀ j, j ≠ i + 1 → assocGet [] (after t).flight j = assocGet [] r.flight j
    let took : State → Nat → Prop := fun t k => assocGet [] (after t).fifos i = fifo.drop k ∧ (after t).flight = r.flight ∧
      ∀ j, j ≠ i → assocGet [] (after t).fifos j = assocGet [] r.fifos j
    let got : Nat → Nat → List (Nat × Word) := fun k l => (List.range k).map (fun j =>
      (d.val + j, BitVec.ofNat 32 (fifo.getD (k * x.lanes.idxOf l + j) 0)))
    let q := x.lanes.length * (n.val + 1)
    (mayPut → q ≤ 256 → room q → ∃ t, exec (.rtsend rt va n) s = .next t ∧ on t ∧ NoResult t x ∧ put t (words (n.val + 1))) ∧
    (mayPut → q ≤ 256 → ¬ room q → parks (.rtsend rt va n)) ∧
    (mayTake → q ≤ 256 → q ≤ fifo.length → ∃ t, exec (.rtrecv d rt n) s = .next t ∧ on t ∧ Wrote t x (got (n.val + 1)) ∧
      took t q) ∧
    (mayTake → q ≤ 256 → fifo.length < q → parks (.rtrecv d rt n)) ∧
    (mayPut → (room x.lanes.length → ∃ t, exec (.rtsendq d va rt) s = .next t ∧ on t ∧
        Wrote t x (fun _ => [(d.val, 0xFFFFFFFF)]) ∧ put t (words 1)) ∧
      (¬ room x.lanes.length → ∃ t, exec (.rtsendq d va rt) s = .next t ∧ on t ∧ Wrote t x (fun _ => [(d.val, 0)]) ∧
        after t = r)) ∧
    (mayTake → (x.lanes.length ≤ fifo.length → ∃ t, exec (.rtrecvq d rt) s = .next t ∧ on t ∧
        Wrote t x (fun l => got 1 l ++ [(d.val + 1, 0xFFFFFFFF)]) ∧ took t x.lanes.length) ∧
      (fifo.length < x.lanes.length → ∃ t, exec (.rtrecvq d rt) s = .next t ∧ on t ∧
        Wrote t x (fun _ => [(d.val + 1, 0)]) ∧ after t = r)) ∧
    (r.en = false → x.mayTrap → ∀ j ∈ [Instr.rtsend rt va n, .rtrecv d rt n, .rtsendq d va rt, .rtrecvq d rt],
      ∃ t, exec j s = .next t ∧ TookTrap s t x x.co.mask 0x17 (2 ^ 10 + i * 2 ^ 6 + rt.val) 0) ∧
    (r.en = true → x.mayTrap → (r.last ≤ i → ∀ j ∈ [Instr.rtsend rt va n, .rtsendq d va rt],
        ∃ t, exec j s = .next t ∧ TookTrap s t x x.co.mask 0x17 (2 * 2 ^ 10 + i * 2 ^ 6 + rt.val) 0) ∧
      (i = 0 → ∀ j ∈ [Instr.rtrecv d rt n, .rtrecvq d rt],
        ∃ t, exec j s = .next t ∧ TookTrap s t x x.co.mask 0x17 (2 * 2 ^ 10 + i * 2 ^ 6 + rt.val) 0)) ∧
    (r.en = true → r.broken = false → x.mayTrap → 256 < q →
      (i < r.last → ∃ t, exec (.rtsend rt va n) s = .next t ∧
        TookTrap s t x x.co.mask 0x17 (3 * 2 ^ 10 + i * 2 ^ 6 + rt.val) 0) ∧
      (0 < i → ∃ t, exec (.rtrecv d rt n) s = .next t ∧
        TookTrap s t x x.co.mask 0x17 (3 * 2 ^ 10 + i * 2 ^ 6 + rt.val) 0)) ∧
    (r.en = true → r.broken = true → x.mayTrap →
      (i < r.last → ∀ j ∈ [Instr.rtsend rt va n, .rtsendq d va rt], q ≤ 256 ∨ j = .rtsendq d va rt →
        ∃ t, exec j s = .next t ∧ TookTrap s t x x.co.mask 0x17 (i * 2 ^ 6 + rt.val) (assocGet 0 r.lost (i + 1))) ∧
      (0 < i → q ≤ 256 → (fifo.length < q → ∃ t, exec (.rtrecv d rt n) s = .next t ∧
          TookTrap s t x x.co.mask 0x17 (i * 2 ^ 6 + rt.val) (assocGet 0 r.lost i)) ∧
        (q ≤ fifo.length → ∃ t, exec (.rtrecv d rt n) s = .next t ∧ on t ∧ Wrote t x (got (n.val + 1)) ∧ took t q))) ∧
    ∃ t, exec (.rtstat d rt) s = .next t ∧ GangStep s t x.gid ∧ Wrote t x (fun _ => [(d.val, BitVec.ofNat 32
      ((if r.en then 2 ^ 31 else 0) + (if r.broken then 2 ^ 30 else 0) + (if 0 < i then 2 ^ 29 else 0) +
       (if i < r.last then 2 ^ 28 else 0) + (if 0 < i then min 1023 (assocGet 0 r.lost i) else 0) * 2 ^ 18 +
       (if i < r.last then 256 - (assocGet [] r.fifos (i + 1)).length - ahead.length else 0) * 2 ^ 9 +
       (if 0 < i then fifo.length else 0)))])) ∧
  ∀ (s : State) lease ten rt seg value, (assocGet? s.tenants (tkey lease ten)).isSome →
    let r := s.route lease ten rt
    let steps : Instr → (Route → Prop) → Prop := fun j p => ∃ t, exec j s = .next t ∧ t.mem = s.mem ∧ t.gangs = s.gangs ∧
      p (t.route lease ten rt) ∧ (∀ k, k ≠ rt → t.route lease ten k = s.route lease ten k) ∧
      ∀ k, k ≠ tkey lease ten → t.tenantOf k = s.tenantOf k
    (∀ w rest, assocGet [] r.flight seg = w :: rest → steps (.routeWordArrive lease ten rt seg) (fun u =>
      assocGet [] u.fifos seg = assocGet [] r.fifos seg ++ [w] ∧ assocGet [] u.flight seg = rest ∧ u.words = r.words)) ∧
    (r.en = true → steps (.routeBreak lease ten rt seg) (fun u => u.broken = true ∧ u.words = r.words ∧
      assocGet 0 u.lost seg = assocGet 0 r.lost seg + (assocGet [] r.flight seg).length ∧
      assocGet [] u.flight seg = [] ∧ u.fifos = r.fifos)) ∧
    ((s.lease? lease).isSome → ten < 16 → rt < 64 →
      let w := value % 2 ^ 64
      let fields := (w / 2 ^ 40 % 2 ^ 8) * 2 ^ 40 + (w / 2 ^ 32 % 2 ^ 4) * 2 ^ 32 + w % 2 ^ 16
      (r.en = false → ∀ code, code = s.routeCheck lease ten rt
          { r with words := assocSet r.words 0 (fields + (r.w 0 / 2 ^ 48 % 2 ^ 8) * 2 ^ 48) } (w ||| 2 ^ 63) →
        steps (.routeEnable lease ten rt value) (fun u =>
          (code = 0 → u.w 0 = 2 ^ 63 + fields ∧ u.broken = false ∧ u.lost = [] ∧ u.fifos = [] ∧ u.flight = []) ∧
          (code ≠ 0 → u.w 0 = fields + code * 2 ^ 48 ∧ u.fifos = r.fifos))) ∧
      (r.en = true → (∀ p ∈ r.flight, p.2 = []) → (∀ g ∈ s.gangs, g.2.waits = []) →
        steps (.routeDisable lease ten rt value) (fun u => u.en = false ∧ u.w 0 % 2 ^ 48 = fields ∧ u.fifos = r.fifos)) ∧
      (r.en = true → (∃ p ∈ r.flight, p.2 ≠ []) → exec (.routeDisable lease ten rt value) s = .next s))

/-- 12 R303 to R305, 03 R55, 10 R253, R254: the work and shape-record words. `wpush` publishes and appends: 3 for a queue
that its tenant lacks, 2 for one that takes no appends, 5 for an address that names no record, else the code of the
append. The cohort of `wjoin` waits at its word for the count (log entry 14), which comes as that of a load does (log entry 57);
its release, that of `wpush` and the clock of the pins that dissolve are those of log entry 106. -/
def Obligations.WorkWords : Prop :=
  ∀ (d va b : Fin 128) s x, s.acting = some x → x.plain → x.co.mask ≠ 0 → x.gang.due = [] →
    let stands : State → Prop := fun t => Then t x.gid (fun h => Stand x h (fun _ => x.co.nextPc) ∧
      ∀ k, (h.lane k).regs = (x.gang.lane k).regs)
    let settled := s.accessPending x.gid x.co.mask 2 = false ∧ s.dueRecords x.gid x.co.mask true = []
    (∀ l ten, x.lanes = [l] → x.team.tenant = some ten → settled →
      let u := (s.issue.releaseLanes x.gid x.co.mask).2.releasePins x.gang.team x.gang.core 2 (s.leadClock x.gid x.co.mask)
      let dom : Dom := .tenant x.team.lease ten
      let addr := P s x l va
      let q := (V s x l b).toNat
      let ends : State → Nat → Prop := fun w code => ∃ t, exec (.wpush d va b) s = .next t ∧ stands t ∧
        Wrote t x (fun _ => [(d.val, BitVec.ofNat 32 code)]) ∧
        (code = 0 → (t.queueOf dom q).tail = ((w.queueOf dom q).tail + 1) % 2 ^ 32) ∧
        (code = 3 → t.queueOf dom q = w.queueOf dom q) ∧
        (code ≠ 0 → code ≠ 3 → t.queueOf dom q =
          { w.queueOf dom q with drops := min 0xFFFF ((w.queueOf dom q).drops + 1) })
      (u.queueCount dom ≤ q → ends u 3) ∧
      (q < u.queueCount dom → (u.queueOf dom q).en = false ∨ u.domAccepts dom = false → ends u 2) ∧
      (q < u.queueCount dom → (u.queueOf dom q).en = true → u.domAccepts dom = true →
        (addr % 64 ≠ 0 ∨ 2 ^ 48 ≤ addr → ends u 5) ∧
        ∀ w code, u.appendCode dom q addr = (w, code, none) → ends w code)) ∧
    (∀ l u y, x.lanes = [l] → x.level < 3 → settled → P s x l va % 64 = 0 →
      s.beginWord.issue.xlate l x.ctx ((P s x l va + 0x10) % 2 ^ 64) 3 false = (u, .ok y) → y.kind = 0 →
      (∀ q ∈ u.accesses, q.2.gang = x.gid → lineOf q.2.pa ≠ lineOf y.pa) →
      ∃ t, exec (.wjoin d va) s = .next t ∧ t.mem = u.mem ∧ Begun t x l y .toHome (fun acc => acc.op = .atomic 12 ∧
        acc.va = (P s x l va + 0x10) % 2 ^ 64 ∧ acc.size = 4 ∧ acc.ord = 2 ∧ acc.scope = 2 ∧
        AwaitsAccess t x l d.val 1 acc)) ∧
    (∀ l, x.lanes = [l] → x.level < 3 → settled → P s x l va % 64 ≠ 0 → x.mayTrap →
      ∃ t, exec (.wjoin d va) s = .next t ∧ TookTrap s t x (maskOf [l]) 0x04 0x60 (P s x l va)) ∧
    (∀ l y, x.lanes = [l] → s.launch? x.team.launch = some y →
      let items := (s.core x.gang.core).items
      let ends : Nat → List (Nat × Word) → Prop := fun st now => ∃ t, exec (.ipush d va) s = .next t ∧ t.mem = s.mem ∧
        stands t ∧ Wrote t x (fun _ => [(d.val, BitVec.ofNat 32 st)]) ∧ (t.core x.gang.core).items = now
      (y.desc.item = false → ends 2 items) ∧
      (y.desc.item = true → 4096 ≤ items.length → ends 1 items) ∧
      (y.desc.item = true → items.length < 4096 → ends 0 (items ++ [(x.team.launch, V s x l va)]))) ∧
    (let slot := (V s x x.leader b).toNat
     let ctx := x.team.shapeCtx x.gang.core false
     let at_ := s.shapeAddr x.team slot
     (s.shapeSlots x.team ≤ slot → x.mayTrap → ∃ t k, exec (.shset d va b) s = .next t ∧
       TookTrap s t x x.co.mask 0x15 k 0) ∧
     (slot < s.shapeSlots x.team → ∀ u bs, s.issue.hwLoad ctx at_ 64 3 (.atomic 13) = (u, .ok bs) →
       let g := ofLeBytes ((bs.drop 60).take 4) % 2 ^ 12
       let bytes := (List.range 15).flatMap (fun j => leBytes 4 (s.reg x.gang x.leader (va.val + j)).toNat) ++
         leBytes 4 (2 ^ 31 + (g + 1))
       let dropped : State → Prop := fun t => ∀ q, ∀ e ∈ (t.quad q).shapes,
         ¬ (e.ten = tkey x.team.lease (x.team.xten.getD 16) ∧ e.slot = slot)
       (g = 4095 → ∃ t, exec (.shset d va b) s = .next t ∧ t.mem = u.mem ∧ stands t ∧ Wrote t x (fun _ => [(d.val, 0)]) ∧
         dropped t) ∧
       (g ≠ 4095 → ∀ w v, u.hwStore ctx at_ bytes 3 = (w, .ok v) → ∃ t, exec (.shset d va b) s = .next t ∧ t.mem = w.mem ∧
         stands t ∧ Wrote t x (fun _ => [(d.val, BitVec.ofNat 32 (slot * 2 ^ 12 + (g + 1)))]) ∧ dropped t))) ∧
    (s.storesPending x.gid x.co.mask 2 = false → ∃ t, exec (.shinv va) s = .next t ∧ t.mem = s.mem ∧ stands t ∧
      NoResult t x ∧ ∀ q, ∀ e ∈ (t.quad q).shapes, ¬ (e.ten = tkey x.team.lease (x.team.xten.getD 16) ∧
        e.slot = (V s x x.leader va).toNat / 2 ^ 12))

/-- 10 R219 to R222, R231 to R244: a command whose engine has room is checked, and accepted with the operands of the
leader lane and the records that its handles name, or refused with the trap of the check; without room its cohort waits
at the word. A matrix command is accepted so while no command of its core waits at its word. `mfence` marks the writes that the commands
accepted from then on must see (log entry 90), once the A-buffer atomics of its gang are applied. -/
def Obligations.EngineCommands : Prop :=
  ∀ (d a : Fin 128) s x, s.acting = some x → x.plain → x.co.mask ≠ 0 → x.gang.due = [] →
    let core := x.gang.core
    let args : Nat → Option (Fin 128) → List Nat := fun n r =>
      (List.range n).map (fun j => (s.reg x.gang x.leader (d.val + j)).toNat) ++ (match r with
        | some r => [(V s x x.leader r).toNat]
        | none => [])
    let stands : State → Prop := fun t => NoResult t x ∧ Then t x.gid (fun h => Stand x h (fun _ => x.co.nextPc) ∧
      ∀ k, (h.lane k).regs = (x.gang.lane k).regs)
    let holds : Instr → Prop := fun i => ∃ t, exec i s = .next t ∧ t.mem = s.mem ∧ t.quads = s.quads ∧
      Then t x.gid (fun h => (∀ k, h.lane k = x.gang.lane k) ∧ ∃ co, assocGet? h.cohorts x.cid = some co ∧
        co.hold = true ∧ co.idx = x.co.idx ∧ co.mask = x.co.mask)
    let refuses : Instr → State → TrapInfo → Prop := fun i u e => x.mayTrap → u.pageRequestTo x.team x.level e = none →
      ∃ t, exec i s = .next t ∧ TookTrap s t x x.co.mask e.cause e.tinfo e.taddr
    (x.level < 3 → s.accessPending x.gid x.co.mask 2 = false → s.dueRecords x.gid x.co.mask true = [] →
      ∀ p ∈ [(Instr.cpy d, 0, none), (.cpg d a, 1, some a), (.cps d a, 2, some a), (.cpxw d, 3, none), (.cpxr d, 4, none),
          (.cpf d, 5, none)],
        let vs := args 4 p.2.2
        let room := ((s.quad (quadOfCore core)).copies.filter (fun c => c.2.core == core)).length < 16
        let w := ((s.onCohort (fun c => { c with mark := 1 })).issue).fresh.2
        (room → ∀ z u recs, w.acting = some z → w.checkCopy z p.2.1 (fun j => vs.getD j 0) = (u, .ok recs) →
          ∃ t, exec p.1 s = .next t ∧ stands t ∧ ∃ uid c, t.copy? (quadOfCore core) uid = some c ∧ c.op = p.2.1 ∧
            c.recs = recs ∧ c.args = vs ∧ c.pos = 0 ∧ c.stopped = none ∧ c.gang = x.gid ∧ c.mask = x.co.mask ∧
            c.team = x.gang.team ∧ c.core = core) ∧
        (room → ∀ z u e, w.acting = some z → w.checkCopy z p.2.1 (fun j => vs.getD j 0) = (u, .error e) →
          refuses p.1 u e) ∧
        (¬ room → holds p.1)) ∧
    (∀ p ∈ [(Instr.mmul d, 0, 4), (.mmulw d, 1, 4), (.mmsp d, 2, 4), (.mzero d, 3, 2), (.mepi d, 4, 4)],
      let vs := args p.2.2 none
      let mine := core % 4 / 2
      let arrays := if p.2.1 = 1 then [0, 1] else if p.2.1 ≤ 2 then [mine] else [(mine + vs.getD 0 0 / 4) % 2]
      let eng := s.engineOf (quadOfCore core)
      let room := ∀ k ∈ arrays, (s.cmdQueue eng k (eng != quadOfCore core)).length < 16
      let first := ∀ g ∈ s.gangs, g.2.core = core → ∀ c ∈ g.2.cohorts, c.2.hold = false
      let w := s.issue.fresh.2
      (room → first → ∀ z u recs, w.acting = some z → w.checkMatrix z p.2.1 (fun j => vs.getD j 0) = (u, .ok recs) →
        ∃ t, exec p.1 s = .next t ∧ stands t ∧ t.mem = u.mem ∧ ∃ c : MCmd, c.op = p.2.1 ∧ c.recs = recs ∧
          c.args.take p.2.2 = vs ∧ c.step = 0 ∧ c.done = false ∧ c.gang = x.gid ∧ c.mask = x.co.mask ∧
          c.core = core ∧ ∀ k ∈ arrays, (t.array (quadOfCore core) k).queue = (u.array (quadOfCore core) k).queue ++ [c]) ∧
      (room → first → ∀ z u e, w.acting = some z → w.checkMatrix z p.2.1 (fun j => vs.getD j 0) = (u, .error e) →
        refuses p.1 u e) ∧
      (¬ room → holds p.1)) ∧
    ((∀ y ∈ s.accesses, y.2.scratchOf x.gid (-1) = false) → ∃ t, exec .mfence s = .next t ∧ stands t ∧
      ((∀ k, (s.core k).olds = []) → (∀ k, (s.array (quadOfCore core) k).olds = []) → GangStep s t x.gid) ∧
      let marked : List OldUnit → List OldUnit := fun es => es.map (fun e =>
        if (x.lanes.map (fun l => (x.gang.lane l).vc)).any (e.before x.gid) then
          { e with fenced := (core, s.nextId) :: e.fenced } else e)
      (x.team.paired = false → (t.core core).olds = marked (s.core core).olds) ∧
      ∀ k, k < 2 → (t.array (quadOfCore core) k).olds = marked (s.array (quadOfCore core) k).olds)

/-- 10 R245, R246, 08 R173, 17 R322: `acrd`, `acwr` and `acst` work on what the team's partition has in the C-store; a
double-bit error there halts the team. While a command that writes the tile is outstanding, `acrd` gives the word as it stands
or one that the tile held before a step of it (log entry 90). -/
def Obligations.AccumulatorWords : Prop :=
  ∀ (d va : Fin 128) (k : Fin 2) (w : Fin 64) s x, s.acting = some x → x.plain → x.gang.due = [] →
    let q := quadOfCore x.gang.core
    let pick : Nat → Nat := fun other => (x.gang.core % 4 / 2 + other) % 2
    let y := (s.array q (pick k.val)).tiles x.team.part
    let z := (s.array q (pick (w.val / 4 % 2))).tiles x.team.part
    let off : Nat → Nat := fun l => (V s x l va).toNat
    let good : Nat → Prop := fun o => o % 4 = 0 ∧ o ≤ 0x3FFFC
    let clean : Nat → Prop := fun o => 128 * (o / 0x10000) + o % 0x10000 / 512 ∉ y.poison
    let whole : Nat → Prop := fun o => errIn y.cErr o 4 = false
    ((∀ l ∈ x.lanes, good (off l) ∧ clean (off l) ∧ whole (off l)) → ∃ t, exec (.acrd d va k) s = .next t ∧ t.mem = s.mem ∧
      ∃ out : Nat → Nat, Wrote t x (fun l => [(d.val, BitVec.ofNat 32 (out l))]) ∧ ∀ l ∈ x.lanes,
        out l = memNat y.cstore (off l) 4 ∨ ((s.array q (pick k.val)).part = some x.team.part ∧
          ∃ w ∈ (s.array q (pick k.val)).was, w.2.1 = off l / 0x10000 ∧ out l = memNat w.2.2 (off l) 4)) ∧
    ((∃ l ∈ x.lanes, good (off l) ∧ ¬ whole (off l)) →
      ∃ t tm, exec (.acrd d va k) s = .next t ∧ t.team? x.gang.team = some tm ∧ tm.halted = true) ∧
    (∀ l, x.lanes = [l] → x.mayTrap →
      (off l % 4 ≠ 0 → ∃ t u, exec (.acrd d va k) s = .next t ∧ exec (.acwr d va k) s = .next u ∧
        TookTrap s t x (maskOf [l]) 0x04 0x23 (off l) ∧ TookTrap s u x (maskOf [l]) 0x04 0x23 (off l)) ∧
      (off l % 4 = 0 → 0x3FFFC < off l → ∃ t u, exec (.acrd d va k) s = .next t ∧ exec (.acwr d va k) s = .next u ∧
        TookTrap s t x (maskOf [l]) 0x05 0x23 (off l) ∧ TookTrap s u x (maskOf [l]) 0x05 0x23 (off l)) ∧
      (good (off l) → ¬ clean (off l) → whole (off l) → ∃ t, exec (.acrd d va k) s = .next t ∧
        TookTrap s t x (maskOf [l]) 0x12 0 (off l)) ∧
      (good (off l) → memCanon y.cstore = true → ∃ t, exec (.acwr d va k) s = .next t ∧ t.mem = s.mem ∧ NoResult t x ∧
        ∀ j, memByte (t.array q (pick k.val)).cstore j =
          if off l ≤ j ∧ j < off l + 4 then BitVec.ofNat 8 ((V s x l d).toNat / 2 ^ (8 * (j - off l)))
          else memByte y.cstore j)) ∧
    ∃ t, exec (.acst d w) s = .next t ∧ t.mem = s.mem ∧
      Wrote t x (fun _ => [(d.val, BitVec.ofNat 32 (((List.range 32).map (fun j =>
        if 128 * (w.val % 4) + 32 * (w.val / 8 % 4) + j ∈ (if w.val / 32 = 1 then z.poison else z.ovf) then
          2 ^ j else 0)).sum))])

/-- 10 R219, R222, R223, R230, R234, R240, R243, R244, 02 R47: the steps of the engines. A waiting copy is accepted once
there is room, checked then (log entry 66); a block of `cpf` or of an element copy into a buffer writes its positions; the end
of a copy or matrix command increments its semaphore, or sets the error and counts it in FAULTS (log entry 80), on the set of
the partition (log entry 95). A step of `mzero` clears its tile and leaves the flags, which change at its end (log entry 90);
a step of a multiplying command puts a whole tile on each of its arrays, and `mepi` converts the rows that are not
poisoned. The buffers are those in which every other write comes before the copy (log entry 90). -/
def Obligations.EngineSteps : Prop :=
  (∀ (s : State) gid cid x op (vs : List Word) u recs, State.acting { s with cur := (gid, cid) } = some x →
    x.plain → x.co.hold = true → x.co.args = op :: vs → op.toNat < 16 →
    ((s.quad (quadOfCore x.gang.core)).copies.filter (fun c => c.2.core == x.gang.core)).length < 16 →
    (State.onCohort { s with cur := (gid, cid) } (fun c => { c with hold := false, args := [] })).checkCopy x op.toNat
      (fun j => (vs.map BitVec.toNat).getD j 0) = (u, .ok recs) →
    ∃ t, exec (.engineAccept gid cid) s = .next t ∧ t.cur = s.cur ∧ Then t gid (fun h =>
        Stand x h (fun _ => x.co.nextPc)) ∧
      ∃ uid c, t.copy? (quadOfCore x.gang.core) uid = some c ∧ c.op = op.toNat ∧ c.recs = recs ∧
        c.args = vs.map BitVec.toNat ∧ c.pos = 0) ∧
  (∀ (s : State) quad uid c, s.copy? quad uid = some c → s.copyRuns c = true →
    (c.op = 5 → c.dst.kind = 1 ∨ c.dst.kind = 2 → c.stopped = none → c.asked = none → c.pos < c.total →
      c.nextTry ≤ s.enabled c.core →
      let row := c.dst.bx 0
      let n := min (min (row - c.pos % row) (max 1 (32768 / c.dst.w))) (c.total - c.pos)
      ∃ t, exec (.copyBlock quad uid) s = .next t ∧ t.mem = s.mem ∧ t.host = s.host ∧ t.gangs = s.gangs ∧
        (∃ e, t.copy? quad uid = some e ∧ e.pos = c.pos + n ∧ e.stopped = none ∧ e.recs = c.recs ∧ e.args = c.args) ∧
        ∀ tm, s.team? c.team = some tm → tm.core = c.core → c.dst.kind = 1 → c.dst.w ∈ [8, 16, 32] →
          memCanon (s.core c.core).abuf = true → (∀ e ∈ (s.core c.core).olds, e.before (copyGang uid) c.vc = true) →
          let to_ : Nat → List Nat := fun j => c.place c.dst (c.index j)
          let at_ : Nat → Nat → Nat := fun j i => tm.abase + c.dst.elemBit (to_ j) / 8 + i
          let put : Nat → Nat → Prop := fun j i => c.pos ≤ j ∧ j < c.pos + n ∧ c.dst.inside (to_ j) = true ∧ i < c.dst.w / 8
          (∀ j i, put j i → at_ j i < tm.abase + tm.asize) →
          (∀ j i, put j i → memByte (t.core c.core).abuf (at_ j i) = BitVec.ofNat 8 (c.arg 1 / 2 ^ (8 * i))) ∧
          ∀ a, (∀ j i, put j i → a ≠ at_ j i) → memByte (t.core c.core).abuf a = memByte (s.core c.core).abuf a) ∧
    (c.op = 0 → c.src.kind = 1 → c.dst.kind = 2 → elementRow c.src c.dst = true → c.src.scaled = false →
      c.src.w ∈ [8, 16, 32] → c.stopped = none → c.asked = none → c.pos < c.total → c.nextTry ≤ s.enabled c.core →
      ∀ tm, s.team? c.team = some tm → tm.core = c.core → memCanon (s.core c.core).wbuf = true →
      (s.core c.core).aErr = [] → (s.core c.core).aBad = [] →
      (∀ e ∈ (s.core c.core).olds, e.before (copyGang uid) c.vc = true) →
      let row := c.src.bx 0
      let n := min (min (row - c.pos % row) (max 1 (32768 / c.src.w))) (c.total - c.pos)
      let from_ : Nat → List Nat := fun j => c.place c.src (c.index j)
      let to_ : Nat → List Nat := fun j => c.place c.dst (c.index j)
      let at_ : Nat → Nat → Nat := fun j i => tm.wbase + c.dst.elemBit (to_ j) / 8 + i
      let put : Nat → Nat → Prop := fun j i => c.pos ≤ j ∧ j < c.pos + n ∧ c.dst.inside (to_ j) = true ∧ i < c.dst.w / 8
      (∀ j i, put j i → at_ j i < tm.wbase + tm.wsize ∧
        (c.src.inside (from_ j) = true → c.src.elemBit (from_ j) / 8 + i < tm.asize)) →
      (∀ j k i, put j i → put k i → at_ j i = at_ k i → j = k) →
      ∃ t, exec (.copyBlock quad uid) s = .next t ∧ t.mem = s.mem ∧
        (∃ e, t.copy? quad uid = some e ∧ e.pos = c.pos + n ∧ e.stopped = none) ∧
        (∀ j i, put j i → memByte (t.core c.core).wbuf (at_ j i) = if c.src.inside (from_ j) = true then
          memByte (s.core c.core).abuf (tm.abase + c.src.elemBit (from_ j) / 8 + i) else 0) ∧
        ∀ a, (∀ j i, put j i → a ≠ at_ j i) → memByte (t.core c.core).wbuf a = memByte (s.core c.core).wbuf a) ∧
    (∀ tm, s.team? c.team = some tm → (∀ i ∈ c.writing, s.access? i = none) →
      let word := c.arg 3
      let p := (c.core, 64 * tm.part + word % 128)
      word.testBit 24 = false → word % 128 < 64 →
      (c.stopped = none → c.poisoned = none → c.op ≠ 3 → c.total ≤ c.pos → (s.sem p).value + word / 2 ^ 8 % 2 ^ 16 < 2 ^ 32 →
        ∃ t, exec (.copyComplete quad uid) s = .next t ∧ t.mem = s.mem ∧ t.copy? quad uid = none ∧
          (t.sem p).value = (s.sem p).value + word / 2 ^ 8 % 2 ^ 16 ∧ (t.sem p).err = (s.sem p).err) ∧
      (∀ addr pos, c.stopped = none → c.poisoned = some (addr, pos) → c.op ≠ 3 → c.total ≤ c.pos →
        s.liveLanes c.gang c.mask ≠ 0 →
        ∃ t, exec (.copyComplete quad uid) s = .next t ∧ t.mem = s.mem ∧ t.copy? quad uid = none ∧
          (t.sem p).value = (s.sem p).value ∧ (t.sem p).err = true ∧
          (t.sem p).faults = min 0xFFFF ((s.sem p).faults + 1) ∧
          ((s.sem p).faults = 0 → (t.sem p).record.getD 1 0 = pos % 2 ^ 32)) ∧
      (∀ e, c.stopped = some e → ∃ t, exec (.copyComplete quad uid) s = .next t ∧ t.mem = s.mem ∧
        t.copy? quad uid = none ∧ (t.sem p).value = (s.sem p).value ∧ (t.sem p).err = true ∧
        (t.sem p).faults = min 0xFFFF ((s.sem p).faults + 1)))) ∧
  (∀ (s : State) quad k c, s.stepOf quad k = some c → quad = c.home → c.arraysOf = [k] →
    let u := s.claimArray quad k c.ten
    let e : MCmd := { c with guest := false }
    (c.op = 3 → ∃ t, exec (.churnStep quad k) s = .next t ∧ t.mem = s.mem ∧
      (t.array quad k).ovf = ((s.array quad k).tiles c.ten).ovf ∧
      (t.array quad k).poison = ((s.array quad k).tiles c.ten).poison ∧
      ∀ j, memByte (t.array quad k).cstore j = if c.tile * 0x10000 ≤ j ∧ j < (c.tile + 1) * 0x10000 then 0
        else memByte ((s.array quad k).tiles c.ten).cstore j) ∧
    (c.op = 0 ∨ c.op = 2 → (s.array quad k).faulty = false → (s.array quad k).upset = false → u.stepMeets e k = false →
      ∀ ws ovf poison, u.groupStep e k = .tile ws ovf poison →
      ∃ t, exec (.churnStep quad k) s = .next t ∧ t.mem = s.mem ∧
        (∀ m n, m < 128 → n < 128 → tileWord (t.array quad k).cstore c.tile m n = ws.getD (128 * m + n) 0 % 2 ^ 32 ∧
          ws.getD (128 * m + n) 0 = (groupElement ((c.shape 0).code == 3 && decide ((c.shape 1).code ≤ 3))
            ((u.rowOfA e c.step m).2.1 || (u.columnOfW e c.step n).2)
            (if c.step = 0 ∧ c.acc = false then 0 else u.tileSeen e k m n)
            (products (u.rowOfA e c.step m).1 (u.columnOfW e c.step n).1)).1) ∧
        ∀ j, ¬ (c.tile * 0x10000 ≤ j ∧ j < (c.tile + 1) * 0x10000) →
          memByte (t.array quad k).cstore j = memByte ((s.array quad k).tiles c.ten).cstore j) ∧
    (c.op = 4 → tileErrs (u.array quad k) c.tile = [] → ∀ tm, s.team? c.team = some tm → tm.core = c.core →
      memCanon (s.core c.core).abuf = true → (c.shape 0).w ∈ [8, 16, 32] → 128 ≤ (c.shape 0).st 1 → (c.shape 0).st 0 = 1 →
      (c.shape 0).kind = 1 →
      let bad : Nat → Prop := fun m => 128 * c.tile + m ∈ (u.flagsNow quad k).2
      let at_ : Nat → Nat → Nat → Nat := fun m n i => tm.abase + (c.shape 0).elemBit [n, m] / 8 + i
      let put : Nat → Nat → Nat → Prop := fun m n i => m < 128 ∧ n < 128 ∧ i < (c.shape 0).w / 8
      (∀ m n i, put m n i → at_ m n i < tm.abase + tm.asize) →
      ∃ t, exec (.churnStep quad k) s = .next t ∧ t.mem = s.mem ∧
        (∀ m n i, put m n i → ¬ bad m → memByte (t.core c.core).abuf (at_ m n i) = BitVec.ofNat 8
          (epilogueElement (c.shape 0).fmt (c.ctl.testBit 8) (c.ctl / 2 ^ 4 % 2 ^ 4 == 1) (c.arg 2) (u.tileSeen e k m n) /
            2 ^ (8 * i))) ∧
        (∀ a, (∀ m n i, put m n i → ¬ bad m → a ≠ at_ m n i) →
          memByte (t.core c.core).abuf a = memByte (s.core c.core).abuf a) ∧
        (∀ d ∈ t.cmdsOf quad, d.uid = c.uid → d.done = true) ∧
        ((∃ m, m < 128 ∧ bad m) → ∀ d ∈ t.cmdsOf quad, d.uid = c.uid → d.stopped = some 0x12) ∧
        ((∀ m, m < 128 → ¬ bad m) → ∀ d ∈ t.cmdsOf quad, d.uid = c.uid → d.stopped = none))) ∧
  (∀ (s : State) quad c, s.stepOf quad 0 = some c → quad = c.home → c.op = 1 →
    let u := (s.claimArray quad 0 c.ten).claimArray quad 1 c.ten
    let e : MCmd := { c with guest := false }
    (∀ k, k < 2 → (s.array quad k).faulty = false ∧ (s.array quad k).upset = false ∧ u.stepMeets e k = false) →
    ∀ ws : Nat → List Nat, (∀ k, k < 2 → ∃ ovf poison, u.groupStep e k = .tile (ws k) ovf poison) →
    ∃ t, exec (.churnStep quad 0) s = .next t ∧ t.mem = s.mem ∧ ∀ k, k < 2 →
      (∀ m n, m < 128 → n < 128 → tileWord (t.array quad k).cstore c.tile m n = (ws k).getD (128 * m + n) 0 % 2 ^ 32 ∧
        (ws k).getD (128 * m + n) 0 = (groupElement ((c.shape 0).code == 3 && decide ((c.shape 1).code ≤ 3))
          ((u.rowOfA e c.step m).2.1 || (u.columnOfW e c.step (128 * k + n)).2)
          (if c.step = 0 ∧ c.acc = false then 0 else u.tileSeen e k m n)
          (products (u.rowOfA e c.step m).1 (u.columnOfW e c.step (128 * k + n)).1)).1) ∧
      ∀ j, ¬ (c.tile * 0x10000 ≤ j ∧ j < (c.tile + 1) * 0x10000) →
        memByte (t.array quad k).cstore j = memByte ((s.array quad k).tiles c.ten).cstore j) ∧
  ∀ (s : State) quad uid c tm, (s.cmdsOf quad).find? (fun e => e.uid == uid) = some c → s.mayRetire quad c = true →
    s.team? c.team = some tm →
    let p := (c.core, 64 * tm.part + c.completion % 128)
    let amount := c.completion / 2 ^ 8 % 2 ^ 16
    let live := s.liveLanes c.gang c.mask
    let gone : State → Prop := fun t => t.mem = s.mem ∧ (∀ e ∈ t.cmdsOf quad, e.uid ≠ uid) ∧
      ∀ k, c.arraysOf = [k] → quad = c.home → (s.array quad k).part = some c.ten → c.settled = false →
        (s.array quad k).queue.filter (fun d => d.uid == uid) = [c] →
        (∀ d ∈ (s.array quad k).queue, d.uid ≠ uid → d.done = true → d.settled = true) →
        let after : List Nat → List Nat → List Nat → Prop := fun old rows new =>
          if c.op = 4 then new = old
          else ∀ r, r ∈ new ↔ (r ∈ old ∧ (r / 128 ≠ c.tile ∨ (c.op ≠ 3 ∧ c.acc = true))) ∨ (r < 1024 ∧ 1024 * k + r ∈ rows)
        after (s.array quad k).ovf c.ovfRows (t.array quad k).ovf ∧
        after (s.array quad k).poison c.poisoned (t.array quad k).poison
    c.completion.testBit 24 = false → c.completion % 128 < 64 →
    (c.stopped = none → (s.sem p).value + amount < 2 ^ 32 → ∃ t, exec (.matrixComplete quad uid) s = .next t ∧ gone t ∧
      (t.sem p).value = (s.sem p).value + amount ∧ (t.sem p).err = (s.sem p).err) ∧
    ∀ cause, c.stopped = some cause → live ≠ 0 ∨ (cause ≠ 0x12 ∧ c.engerr = false) → ∃ t, exec (.matrixComplete quad uid) s = .next t ∧ gone t ∧
      (t.sem p).value = (s.sem p).value ∧ (t.sem p).err = true ∧ (t.sem p).faults = min 0xFFFF ((s.sem p).faults + 1) ∧
      ∀ g, s.gang? c.gang = some g → ∃ h, t.gang? c.gang = some h ∧
        h.due = if cause = 0x12 ∨ c.engerr = true then g.due ++ [⟨live, cause, 2 ^ 31 + c.completion % 128⟩]
          else g.due

/-! ### Steps that no lane issues -/

/-- 04 R75, R76, 05 R85, R86, 06 R109, R110, R114, 17 R335, R336: the steps of a gang, each where it may happen. Free slices
at one head share a cohort; those that are not converged meet or not, as a free choice, while another gang of the core has a
cohort (log entry 108). -/
def Obligations.GangSteps : Prop :=
  ∀ (s : State) gid g, s.gang? gid = some g →
    let one : Instr → (State → Gang → Prop) → Prop := fun i p => ∃ t, exec i s = .next t ∧ t.mem = s.mem ∧
      ∃ h, t.gang? gid = some h ∧ p t h
    let regs : Gang → Prop := fun h => ∀ l, (h.lane l).regs = (g.lane l).regs
    (∀ k h ls u hd ws tm, s.maySelect g k = true → g.headOf k = some (h, ls) → s.team? g.team = some tm →
      let pc := (g.lane (ls.headD 0)).pc
      let idx := if pc.idx = 15 then 0 else pc.idx
      let ks := s.meeting g k h
      let m := maskOf (ks.flatMap (fun j => match g.headOf j with
        | some p => p.2
        | none => []))
      let l := lowBit 64 m.toNat
      s.fetchOutside (g.lane (ls.headD 0)).level pc.addr = false →
      State.fetchClause ((s.setGang gid (g.clearDeferred ks)).beginTeam g.team) g.team l
        (tm.ctx ((g.clearDeferred ks).lane l).level g.core) pc.addr = (u, some (.ok (hd, ws))) →
      idx < hd % 16 → idx ≠ 0 ∨ hd / 2 ^ 22 % 2 ^ 4 = 0 →
      ∃ t, exec (.cohortForm gid k) s = .next t ∧ t.mem = u.mem ∧ ∃ h', t.gang? gid = some h' ∧ regs h' ∧
        ∃ cid co, assocGet? h'.cohorts cid = some co ∧ co.mask = m ∧ co.hdr = pc.addr ∧ co.count = hd % 16 ∧
          co.words = ws ∧ co.idx = idx ∧ co.hold = false ∧ co.span = m) ∧
    (∀ k h ls, s.maySelect g k = true → g.headOf k = some (h, ls) → k ∈ s.meeting g k h ∧
      (∀ j ∈ s.meeting g k h, g.sliceFree j = true ∧ ∃ ms, g.headOf j = some (h, ms)) ∧
      ∀ j ms, j < g.width / 8 → g.sliceFree j = true → g.headOf j = some (h, ms) →
        (ls = g.sliceLanes k ∧ ms = g.sliceLanes j) ∨
          (∀ p ∈ s.gangs, p.2.core = g.core → p.2.cohorts ≠ [] → p.2.team = g.team ∧ p.2.g = g.g) → j ∈ s.meeting g k h) ∧
    (∀ k h ls, g.headOf k = some (h, ls) → (∀ l ∈ g.sliceLanes k, (g.lane l).released = false) →
      (∃ l ∈ g.sliceLanes k, (g.lane l).deferred = false) → ∀ l ∈ ls, l ∈ g.sliceLanes k ∧
        ∀ j ∈ g.sliceLanes k, (g.lane j).deferred = false → (g.lane l).counter ≤ (g.lane j).counter) ∧
    (∀ w x, assocGet? g.waits w = some x →
      let ends : Gang → Prop := fun h => assocGet? h.waits w = none ∧ regs h ∧ ∀ l, l < g.lanes.length →
        (h.lane l).pc = (g.lane l).pc ∧ (h.lane l).parked = if x.mask.getLsbD l then false else (g.lane l).parked
      (∀ b, x.kind = .prewait b → s.prewaitMet gid g b = true → one (.prewaitRelease gid w) (fun _ h => ends h)) ∧
      (x.kind = .switchPark → g.results = [] → s.dueRecords gid x.mask false = [] →
        one (.switchParkEnd gid w) (fun _ h => ends h))) ∧
    (∀ r p v, assocGet? g.results r = some p → p.val = some v → p.lane < g.lanes.length → p.lane < 64 →
      (g.lane p.lane).live = true → p.reg < 8 * g.nregs →
      let old := g.lane p.lane
      (g.pairMate r p = none → assocGet 0 old.wseq p.reg ≤ p.seq → one (.resultWrite gid r) (fun t h =>
        t.reg h p.lane p.reg = v ∧ RegsKept old (h.lane p.lane) [p.reg] ∧ (∀ l, l ≠ p.lane → h.lane l = g.lane l) ∧
        assocGet? h.results r = none)) ∧
      (∀ j q w, g.pairMate r p = some (j, q) → q.val = some w → q.reg ≠ p.reg → q.reg < 8 * g.nregs →
        assocGet 0 old.wseq p.reg ≤ p.seq → assocGet 0 old.wseq q.reg ≤ q.seq → one (.resultWrite gid r) (fun t h =>
          t.reg h p.lane p.reg = v ∧ t.reg h p.lane q.reg = w ∧ RegsKept old (h.lane p.lane) [p.reg, q.reg] ∧
          (∀ l, l ≠ p.lane → h.lane l = g.lane l) ∧ assocGet? h.results r = none ∧ assocGet? h.results j = none)) ∧
      (g.pairMate r p = none → p.seq < assocGet 0 old.wseq p.reg → one (.resultWrite gid r) (fun _ h =>
        (∀ l, h.lane l = g.lane l) ∧ assocGet? h.results r = none))) ∧
    (∀ i acc cause synd, s.access? i = some acc → acc.gang = gid → acc.phase = .faulted cause synd →
      (g.lane acc.lane).live = true → one (.storeFaultReport i) (fun t _ => t.access? i = none ∧
        let higher : SfRec → Prop := fun y => y.gang = gid ∧ y.seq = acc.wseq ∧ acc.lane < y.lane
        ∃ r as bs, (s.core g.core).sfq = as ++ bs ∧ (t.core g.core).sfq = as ++ r :: bs ∧ (∀ y ∈ as, ¬ higher y) ∧
          (∀ y, bs.head? = some y → higher y) ∧ r.gang = gid ∧ r.lane = acc.lane ∧ r.cause = cause ∧
          r.synd = synd ∧ r.addr = acc.va ∧ r.size = acc.size ∧ r.clause = acc.pc.addr ∧ r.widx = acc.pc.idx ∧
          r.seq = acc.wseq ∧ r.kind = (if acc.op = .store then 0 else if acc.signed = true then 2 else 1))) ∧
    (∀ cid x l r rs, State.acting { s with cur := (gid, cid) } = some x → x.plain → x.lanes = [l] → x.co.hold = false →
      s.skidDue gid g x.co.mask = true → s.skidWaits gid g x.co.mask = false → s.dueRecords gid x.co.mask false = r :: rs →
      x.co.done = 0 → x.mayTrap → r.cause ≠ 0x11 →
      let lvl := max (g.lane l).level (if r.cause = 0x08 then 2 else if r.cause = 0x09 then 3 else 1)
      one (.skidCountDeliver gid cid) (fun _ h => ∃ id f, (id, f) ∈ h.frames ∧ f.sfr = true ∧ f.cause = r.cause ∧
        f.taddr = r.addr ∧ f.tpc = x.pc ∧ f.tword = x.co.word ∧ f.level = lvl ∧ (h.lane l).frame = some id ∧
        (h.lane l).pc = ⟨s.vector x.team lvl, 0⟩ ∧ (h.lane l).level = lvl ∧ regs h)) ∧
    ((s.team? g.team).isSome →
      (s.mayLeave gid g = true → one (.swapOutEligible gid) (fun _ h => h = { g with swapped := true, readySince := s.enabled g.core })) ∧
      (s.mustLeave gid g = true → one (.swapOutForced gid) (fun _ h => h = { g with swapped := true, readySince := s.enabled g.core })) ∧
      (s.mayEnter gid g = true → one (.swapIn gid) (fun _ h => h = { g with swapped := false })))

/-- 08 R170, R188, R190, R191, 09 R206 to R210, 11 R263 to R265, R278 to R281, 12 R292: the steps of the memory system
for accesses of DRAM whose line is in L2 and not pinned, on a page that is not discarded. -/
def Obligations.MemorySteps : Prop :=
  (∀ (s : State) i x, s.access? i = some x →
    let line := lineOf x.pa
    let arrives := s.mayArrive i x = true ∧ s.reaches x.ten x.core x.home = true ∧ line ∉ s.badLines ∧
      s.pinOf line = none ∧ x.pa / 2 ^ 16 ∉ s.fills ∧ x.disc = false ∧ s.inL2 line = true ∧ s.marks = [] ∧ x.kind = 0 ∧
      x.hidden = false ∧ s.outranked x = false
    let applied : State → Nat → Prop := fun t v => ∀ k, memByte t.mem k =
      if x.pa ≤ k ∧ k < x.pa + x.size then BitVec.ofNat 8 (v / 2 ^ (8 * (k - x.pa))) else memByte s.mem k
    let gives : State → List Byte → Prop := fun t bs => ∀ g, s.gang? x.gang = some g → ∃ h, t.gang? x.gang = some h ∧
      ∀ (j id : Nat) v, x.dst[j]? = some id → ((loaded x.size x.signed 0 bs).map (·.2))[j]? = some v →
        ∀ p, (id, p) ∈ g.results → (id, { p with val := some v }) ∈ h.results
    let filled : State → Prop := fun t => t.mem = s.mem ∧ ∃ y, t.access? i = some y ∧ y.phase = .fill ∧
      y.data = memRead s.mem x.pa x.size ∧ y.dst = x.dst
    (arrives → x.op = .load → x.refusals = 0 → x.mode = 0 → ∃ t, exec (.homeReadMiss i) s = .next t ∧ filled t ∧
      x.core ∈ assocGet [] t.sharers line) ∧
    (∀ v, arrives → x.op = .bounded v → x.mode = 1 →
      let view := (s.tenantOf x.ten).view (viewKeyHome x.home (x.attr / 2 ^ 4 % 2 ^ 5))
      v ≤ view → ∃ t, exec (.roundRefetch i) s = .next t ∧ filled t ∧
        ∃ y, t.access? i = some y ∧ y.stamp = view) ∧
    (arrives → x.op = .store → x.refusals = 0 → x.mode = 0 → x.ord < 2 → x.data.length = x.size → memCanon s.mem = true →
      ∃ t, exec (.homeStoreApply i) s = .next t ∧ applied t (ofLeBytes x.data) ∧ ∃ y, t.access? i = some y ∧
        y.phase = (match assocGet [] s.sharers line with
          | [] => .acked
          | cs => .updating cs)) ∧
    (arrives → x.refusals = 0 → x.mode = 0 → x.ord < 2 → x.scope ≠ 0 → memCanon s.mem = true → x.dst.Nodup →
      let old := BitVec.ofNat 32 (memNat s.mem x.pa 4)
      let new : Nat → Nat := fun fn => (atomicResult fn old (BitVec.ofNat 32 (ofLeBytes x.data)) (BitVec.ofNat 32 x.cmp)).toNat
      (∀ fn, x.op = .atomic fn → fn ≤ 10 → x.size = 4 → x.cmp < 2 ^ 32 →
        ∃ t, exec (.homeAtomic i) s = .next t ∧ applied t (new fn) ∧ gives t (memRead s.mem x.pa 4)) ∧
      (x.op = .atomic 11 → x.size = 8 → ∃ t, exec (.homeAtomic i) s = .next t ∧
        applied t ((memNat s.mem x.pa 8 + ofLeBytes x.data) % 2 ^ 64) ∧ gives t (memRead s.mem x.pa 8)) ∧
      (∀ fn, x.op = .red fn → fn ∈ [0, 1, 2, 5, 6, 7, 10] → x.size = 4 →
        ∃ t, exec (.homeAtomic i) s = .next t ∧ applied t (new fn))) ∧
    (∀ c p, s.mayArrive i x = true → s.reaches x.ten x.core x.home = true → s.pinOf line = some (c, p) →
      p.team ≠ x.team → x.op ≠ .atomic 12 → x.refusals ≠ 0 → x.refusals + 1 < 16384 →
      ∃ t, exec (.pinRefusalRetry i) s = .next t ∧ t.mem = s.mem ∧ t.gangs = s.gangs ∧
        t.access? i = some { x with refusals := x.refusals + 1, nextTry := s.enabled x.core + 64 }) ∧
    (x.phase = .fill → s.orderedAt x.core line x.applied = true → x.size ∈ [1, 2, 4, 8, 16] → x.dst.Nodup →
      s.hasRoom x.core line = true → ∃ t, exec (.l1Fill i) s = .next t ∧ t.mem = s.mem ∧ t.access? i = none ∧
        gives t x.data ∧ ((x.mode = 0 ∧ x.core ∈ assocGet [] s.sharers line) ∨ x.mode = 1 →
          ∃ y, assocGet? (t.core x.core).l1 line = some y ∧ y.data = x.old ∧ y.stamp = x.stamp)) ∧
    (∀ c cs y, x.phase = .updating (c :: cs) → s.orderedAt c line x.applied = true →
      assocGet? (s.core c).l1 line = some y → ∃ t, exec (.sharerUpdate i) s = .next t ∧ t.mem = s.mem ∧
        (∃ z, assocGet? (t.core c).l1 line = some z ∧ z.stamp = y.stamp ∧ z.data =
          y.data.take (x.pa % 64) ++ x.data ++ y.data.drop (x.pa % 64 + x.data.length)) ∧
        (∀ k, k ≠ c → t.core k = s.core k) ∧
        ∃ z, t.access? i = some z ∧ z.phase = (if cs = [] then .acked else .updating cs)) ∧
    (x.phase = .acked → s.mayAck x = true → ∃ t, exec (.storeAck i) s = .next t ∧ t.mem = s.mem ∧ t.host = s.host ∧ t.access? i = none) ∧
    (s.mayPost i x = true → x.hidden = false → memCanon s.host = true → ∃ t, exec (.storeAck i) s = .next t ∧ t.mem = s.mem ∧
      t.access? i = none ∧ memRead t.host x.pa x.data.length = x.data) ∧
    (x.phase = .host → x.op = .load → s.laneWaits i x = false → x.size ∈ [1, 2, 4, 8, 16] → x.dst.Nodup → x.ord < 2 →
      ∃ t, exec (.hostCompletion i true) s = .next t ∧ t.mem = s.mem ∧ t.host = s.host ∧ t.access? i = none ∧
        gives t (memRead s.host x.pa x.size)) ∧
    (x.phase = .host → x.op = .load → s.laneWaits i x = false → x.issued + 42500 ≤ s.now → ∃ t, exec (.hostTimeout i) s = .next t ∧
      t.access? i = none ∧ ∀ h, t.gang? x.gang = some h → ∀ r ∈ h.results, r.1 ∉ x.dst)) ∧
  ∀ s : State,
    (∀ core line y, assocGet? (s.core core).l1 line = some y → y.leaving = true → ∃ t,
      exec (.listSplice core line) s = .next t ∧ t.mem = s.mem ∧ assocGet? (t.core core).l1 line = none ∧
        core ∉ assocGet [] t.sharers line ∧ ∀ k, k ≠ core → t.core k = s.core k) ∧
    (∀ line y, assocGet? s.l2 line = some y → s.pinOf line = none →
      let leaves : State → Prop := fun t => t.mem = s.mem ∧ t.inL2 line = false ∧ assocGet [] t.sharers line = [] ∧
        ∀ c, assocGet? (t.core c).l1 line = none
      (y.dirty = false ∨ s.bucketAt (64 * line) = none →
        ∃ t, exec (.l2Evict line) s = .next t ∧ leaves t ∧ t.buckets = s.buckets) ∧
      ∀ key b, y.dirty = true → s.bucketAt (64 * line) = some (key, b) → b.owed = 0 → 0 < b.tokens →
        ∃ t, exec (.l2Evict line) s = .next t ∧ leaves t ∧
          assocGet? t.buckets key = some { b with tokens := b.tokens - 1 }) ∧
    (∀ page, page ∈ s.fills → s.bucketAt (page * 2 ^ 16) = none → ∃ t,
      exec (.pageFillDone page) s = .next t ∧ page ∉ t.fills ∧
        (∀ k, memByte t.mem k = if k / 2 ^ 16 = page then 0 else memByte s.mem k) ∧
        ∀ i x, s.access? i = some x → x.phase = .reviving → x.pa / 2 ^ 16 = page →
          t.access? i = some { x with phase := .toHome, disc := false }) ∧
    (s.refillAt ≤ s.now → ∃ t, exec .tokenRefill s = .next t ∧ t.mem = s.mem ∧
      let n := (s.now - s.refillAt) / 850 + 1
      t.refillAt = s.refillAt + 850 * n ∧ ∀ b, b ∈ t.buckets ↔ ∃ c ∈ s.buckets, b.1 = c.1 ∧
        let k := s.tenantOf (c.1 / 1024)
        let paid := min c.2.owed (n * k.refill)
        (k.refill = 0 → b.2 = c.2) ∧ (k.refill ≠ 0 →
          b.2.owed = c.2.owed - paid ∧ b.2.tokens = min (c.2.tokens + (n * k.refill - paid)) (max k.depth k.refill) ∧
            (b.2.owed ≠ 0 ∨ b.2.tokens < max k.depth k.refill))) ∧
    (∀ lease n idx y key c at_ rest, assocGet? s.tenants (tkey lease (min n 16)) = some y →
      y.bcasts.drop idx = (key, c, at_) :: rest → ∃ t, exec (.viewBroadcast lease n idx) s = .next t ∧ t.mem = s.mem ∧
        let z := t.tenantOf (tkey lease (min n 16))
        z.view key = max (y.view key) c ∧ (∀ k, k ≠ key → z.view k = y.view k) ∧ z.bcasts = y.bcasts.take idx ++ rest) ∧
    (∀ gid g w l d deadline m x, s.gang? gid = some g → assocGet? g.waits w = some x → x.mask = maskOf [l] → l < 64 →
      x.kind = .monitor d false deadline → deadline ≤ s.now → (g.lane l).monitor = some m → m.lapsed = false →
      m.fired = false ∨ deadline ≤ m.since → ∃ t, exec (.mwaitDeadline gid w) s = .next t ∧ t.mem = s.mem ∧
        t.due gid l d g.seq 1 ∧ ∃ h, t.gang? gid = some h ∧ assocGet? h.waits w = none) ∧
    ∀ quad uid c n y, s.copy? quad uid = some c → c.xten = some n → c.level < 3 → c.unitwise = false →
      let x := if s.pick 1 2 = 0 then c.src else c.dst
      let pos := c.pos + s.pick 2 (max 1 (c.total - c.pos))
      let va := x.elemBit (c.place x (c.index pos)) / 8
      x.kind = 0 → s.translate c.ctx va 0 false = .ok y → ∃ t, exec (.walkaheadTranslate quad uid) s = .next t ∧
        t.gangs = s.gangs ∧ t.host = s.host ∧
        (∀ k, { t.core k with l1 := (s.core k).l1, pins := (s.core k).pins } = s.core k) ∧ ∃ e ∈ (t.quad quad).walkAhead,
          e.ten = tkey c.lease n ∧ e.level = c.level ∧ e.vpage = va / 2 ^ 16 ∧ e.leaves.a1 = y.leaves.a1 ∧
          e.leaves.a2 = y.leaves.a2

/-- 01 R17 to R21, 03 R53 to R62, 04 R71 to R75, 06 R108, R129, R131: the steps of queues and dispatchers, each where it
may happen. That a write through a function that takes no MMIO changes nothing is the model's reading (log entry 102). -/
def Obligations.DispatchSteps : Prop :=
  (∀ (s : State) dom q, q < s.queueCount dom → (∀ l, dom = .lsq l → (s.lease? l).isSome) →
    let x := s.queueOf dom q
    let becomes : Instr → Queue → Prop := fun i y => ∃ t, exec i s = .next t ∧ t.mem = s.mem ∧ t.queueOf dom q = y
    let reach := s.hostReaches dom
    (∀ addr n v, reach = false → ∀ i ∈ [Instr.queueAppend dom q addr n, .queueEnable dom q v, .queueDisable dom q v,
      .queueClr dom q], exec i s = .next s) ∧
    (∀ addr w code f, reach = true → s.appendCode dom q (addr % 2 ^ 64) = (w, code, f) → code ≠ 3 →
      ∃ t, exec (.queueAppend dom q addr 8) s = .next t ∧ (t.queueOf dom q).last = code ∧
        (code = 0 → (t.queueOf dom q).tail = ((w.queueOf dom q).tail + 1) % 2 ^ 32) ∧
        (code ≠ 0 → (t.queueOf dom q).drops = min 0xFFFF ((w.queueOf dom q).drops + 1) ∧
          (t.queueOf dom q).tail = (w.queueOf dom q).tail)) ∧
    (∀ addr n, reach = true → n ≠ 8 → becomes (.queueAppend dom q addr n) { x with badw := true }) ∧
    (∀ v, reach = true → x.en = false → 4 ≤ v % 2 ^ 5 → v % 2 ^ 5 ≤ 20 → v % 2 ^ 64 / 2 ^ 32 = 0 → v / 2 ^ 14 % 2 ^ 17 = 0 →
      v / 2 ^ 5 % 2 ^ 3 = 0 → x.qbase / 2 ^ 48 % 2 ^ 16 = 0 → x.qbase % 64 = 0 →
      becomes (.queueEnable dom q v) { x with
        en := true, head := 0, tail := 0, held := [], stalled := false, waiting := [], dead := [], vcs := [],
        wm1 := v / 2 ^ 10 % 2 ^ 4, prio := v / 2 ^ 8 % 2 ^ 2, logsz := v % 2 ^ 5 }) ∧
    (∀ v, reach = true → x.en = true → becomes (.queueDisable dom q v) { x with en := false }) ∧
    (reach = true → becomes (.queueClr dom q) { x with drops := 0, badw := false }) ∧
    (∀ u bs w rs, s.mayTake dom q = true → x.head ∉ x.dead →
      s.hwLoad (domCtx dom) (x.slotAddr x.head) 8 0 = (u, .ok bs) → u.hwLoad (domCtx dom) (ofLeBytes bs) 64 0 = (w, .ok rs) →
      recordOk (dwords rs) = true → w.neverFits dom (recOf (dwords rs)) = false → (recOf (dwords rs)).spill = 0 →
      ∃ t, exec (.dispatchTake dom q) s = .next t ∧ t.mem = w.mem ∧ (t.queueOf dom q).head = (x.head + 1) % 2 ^ 32 ∧
        ∃ id y, t.launch? id = some y ∧ y.dom = dom ∧ y.queue = q ∧ y.addr = ofLeBytes bs ∧ y.desc = recOf (dwords rs) ∧
          y.nextTeam = 0 ∧ y.exited = 0 ∧ y.halted = false) ∧
    (∀ a vc, x.held = [(a, vc)] → x.full = false → x.en = true →
      ∃ t, exec (.holdListDrain dom q) s = .next t ∧ (t.queueOf dom q).held = [] ∧
        (t.queueOf dom q).tail = (x.tail + 1) % 2 ^ 32) ∧
    ∀ id y spot, s.dispatches dom = true → s.unplaced dom = [] → s.launchesOf dom = [(id, y)] → y.queue = q →
      s.launch? id = some y → y.desc.coop = false → y.blocking = false → y.pending = true → x.prio < 4 →
      s.spotFor y = some spot →
      ∃ t, exec (.teamRelease dom) s = .next t ∧ t.mem = s.mem ∧
        (∃ z, t.launch? id = some z ∧ z.nextTeam = y.nextTeam + 1) ∧
        (∃ tm, t.team? s.nextId = some tm ∧ tm.launch = id ∧ tm.t = y.nextTeam ∧ tm.core = spot.core ∧ tm.placed = true ∧
          tm.abase = spot.win.1 ∧ tm.asize = 4096 * y.desc.abuf ∧ tm.wbase = spot.win.2 ∧ tm.wsize = 4096 * y.desc.wbuf) ∧
        ∀ i, i < y.desc.gangs → ∃ g, t.gang? (s.nextId + 1 + i) = some g ∧ g.team = s.nextId ∧ g.g = i ∧
          g.lanes.length = y.desc.width ∧ g.nregs = y.desc.regs ∧ g.stack = [] ∧ ∀ l, l < y.desc.width →
            (g.lane l).pc = ⟨y.desc.entry, 0⟩ ∧ (g.lane l).live = true ∧ (g.lane l).frame = none ∧ (g.lane l).fpcr = 0 ∧
            (g.lane l).seed = 0x9E3779B9 ∧ (g.lane l).level = match dom with
              | .tenant _ _ => 0
              | .lsq _ => 2) ∧
  ∀ s : State,
    (∀ dom id y, s.coopWaiter dom = some (id, y) → s.dispatches dom = true → y.takenAt + 85000 ≤ s.now →
      ∃ t, exec (.coopBlock dom) s = .next t ∧ t.mem = s.mem ∧ t.launch? id = some { y with blocking := true }) ∧
    (∀ core id y, s.launch? id = some y → y.returned = [] →
      let n := s.chunkSize core id y
      n ≠ 0 → ∃ t, exec (.itemChunkDeal core id) s = .next t ∧ t.mem = s.mem ∧
        t.launch? id = some { y with nextItem := y.nextItem + n } ∧
        (t.core core).items = (s.core core).items ++
          (List.range n).map (fun i => (id, BitVec.ofNat 32 (y.desc.ibase + y.nextItem + i)))) ∧
    (∀ id tm, s.team? id = some tm → s.mayExit id tm = true → ∃ t, exec (.teamExit id) s = .next t ∧ t.team? id = none ∧
      (∀ g ∈ t.gangs, g.2.team ≠ id) ∧ ∀ y, s.launch? tm.launch = some y → ∃ z, t.launch? tm.launch = some z ∧
        z.exited = y.exited + 1) ∧
    ∀ id y, s.launch? id = some y → s.launchOver id y = true →
      let gone : State → Prop := fun t => t.launch? id = none ∧ ∀ c, ∀ p ∈ (t.core c).items, p.1 ≠ id
      (y.halted = true ∨ y.desc.succ = 0 → ∃ t, exec (.successorJoin id) s = .next t ∧ t.mem = s.mem ∧ gone t) ∧
      (y.halted = false → y.desc.succ ≠ 0 → ∀ u old w,
        s.decrementWait (domCtx y.dom) y.desc.succ [⟨y.exitVc, 2, 0, 0, (match y.dom with
          | .tenant l _ => l
          | .lsq l => l), (match y.dom with
          | .tenant l n => tkey l n
          | .lsq l => tkey l 16)⟩] = (u, .ok (old, w)) → old ≠ 1 →
        ∃ t, exec (.successorJoin id) s = .next t ∧ t.mem = u.mem ∧ t.tenants = u.tenants ∧ gone t)

/-- 04 R64, R66, R79, R81, 10 R250, 19 R360, R361: the steps of quads and of the maps of fields. A failed quad waits while the
tenants that its retirement touches are stopped at once by a ladder of the owner's, and the change is made when that quiesce
ends; the order of its parts is the model's (log entry 26). -/
def Obligations.QuadSteps : Prop :=
  (∀ (s : State) quad n,
    let becomes : Instr → Quad → Prop := fun i y => ∃ t, exec i s = .next t ∧ t.mem = s.mem ∧ t.quad quad = y ∧
      ∀ k, k ≠ quad → t.quad k = s.quad k
    let q := s.quad quad
    (q.pwr = 1 → becomes (.powerWaitExpire quad) { q with pwr := 2 }) ∧
    (q.pwr = 2 → becomes (.quadPowerReady quad) { q with pwr := 3 }) ∧
    (q.pwr = 3 → (∀ t ∈ s.teams, t.2.core / 4 ≠ quad) → (∀ t ∈ s.tenants, assocGet? t.2.saved quad = none) →
      q.idleSince + 850000 ≤ s.now → becomes (.quadGate quad) { q with pwr := 0 }) ∧
    becomes (.trimFailure quad n) { q with
      trim := true, cap := max 1 (n % 4), capBase := s.enabled (4 * quad), capSince := s.now } ∧
    becomes (.capRaise quad n) { q with
      cap := max q.cap (n % 4), capBase := s.enabled (4 * quad), capSince := s.now } ∧
    becomes (.vminReset quad) { q with vmin := 0xFFFF, vtime := 0, vten := 0, noten := true } ∧
    (n < 2 ^ 16 → ∃ t, exec (.voltageSample quad n) s = .next t ∧ (t.quad quad).vmin = min n q.vmin ∧
      (q.vmin ≤ n → t.quad quad = q)) ∧
    let near := if quad % 96 = 95 then quad - 1 else quad + 1
    let u : State := (s.onQuad quad (fun q => { q with eng := if quad % 96 = 95 then 2 else 1 })).onQuad near
      (fun q => { q with guest := true })
    let orphan : Nat × Quad → Prop := fun p => p.2.eng ≠ 0 ∧ u.voidQuad p.1 = false ∧
      ((u.quad (u.engineOf p.1)).eng ≠ 0 ∨ u.voidQuad (u.engineOf p.1) = true)
    ((∀ p ∈ u.quads, ¬ orphan p) → ∃ t, exec (.engineDead quad) s = .next t ∧ t.mem = s.mem ∧
      t.quad quad = { q with eng := if quad % 96 = 95 then 2 else 1 } ∧ t.quad near = { s.quad near with guest := true }) ∧
    ∀ p, orphan (quad, u.quad quad) → (∀ z ∈ u.quads, orphan z → z.1 = quad) → quad < 5376 →
      let x : Field := assocGet {} s.fields (fieldOfQuad quad)
      p ∉ x.defects → p ∉ x.voided → (∀ i : Nat, x.map[i]? = some (p + 1) ↔ i = quad / 96 % 8 * 8 + quad % 96 % 8) →
      ∃ t, exec (.engineDead quad) s = .next t ∧ t.mem = s.mem ∧ t.fields = s.fields ∧
        81 * fieldOfQuad quad + p ∈ t.failing) ∧
  (∀ (s : State) ds, s.booted = false → ∃ t, exec (.boot ds) s = .next t ∧ t.mem = s.mem ∧ t.booted = true ∧
    ∀ f i, f < 84 → i < 64 →
      let v := (assocGet {} t.fields f).map.getD i 0
      let bad : Nat → Nat → Bool := fun r c => ds.contains (81 * f + 9 * r + c)
      let rowGood : Nat → Bool := fun r => decide (((List.range 9).filter (bad r)).length < 2)
      v ≠ 0 → rowGood ((v - 1) / 9) = true ∧ bad ((v - 1) / 9) ((v - 1) % 9) = false ∧
        ((List.range ((v - 1) / 9)).filter rowGood).length = i / 8 ∧
        ((List.range ((v - 1) % 9)).filter (fun c => !bad ((v - 1) / 9) c)).length = i % 8) ∧
  ∀ (s : State) f prow pcol,
    let p := 9 * prow + pcol
    let x : Field := assocGet {} s.fields f
    f < 84 → prow < 9 → pcol < 9 → p ∉ x.defects → p ∉ x.voided →
    (∀ i j : Nat, x.map[i]? = some (p + 1) → x.map[j]? = some (p + 1) → i = j) →
    let quiesces : Instr → Prop := fun i => ∃ t, exec i s = .next t ∧ t.mem = s.mem ∧ t.fields = s.fields ∧
      81 * f + p ∈ t.failing ∧
      let u : State := { s with failing := addIn s.failing (81 * f + p) }
      (∀ y ∈ u.touched, (s.tenantOf (tkey y.1 y.2)).state = 3 → (t.tenantOf (tkey y.1 y.2)).state = 4 ∧
        ∃ w, (t.tenantOf (tkey y.1 y.2)).ladder = some w ∧ w.owner = true ∧ w.hard = some s.now ∧ w.acks = []) ∧
      ∀ k, (∀ y ∈ u.touched, tkey y.1 y.2 ≠ k) → t.tenantOf k = s.tenantOf k
    quiesces (.quadFailure f prow pcol) ∧
    (∀ quad, fieldOfQuad quad = f → quad < 5376 → x.map[quad / 96 % 8 * 8 + quad % 96 % 8]? = some (p + 1) →
      quiesces (.bypassFailure quad)) ∧
    (s.failing = [81 * f + p] → ∃ t, s.perform .quiesceEnd = .next t ∧
      let y : Field := assocGet {} t.fields f
      (p ∈ y.defects ∨ p ∈ y.voided) ∧ p + 1 ∉ y.map)

/-- 04 R70, 10 R235, 19 R359 to R374: the steps of leases, links, attestation and measurements. Which packet a replay sends
again is the model's reading (log entry 103). -/
def Obligations.PlatformSteps : Prop :=
  ∀ s : State,
    (∀ lease spec, ¬ (spec.extents.length ≤ 16 ∧ ∀ e ∈ spec.extents, e.1 % 2 ^ 16 = 0 ∧ e.1 + e.2 * 2 ^ 16 ≤ 84 * 2 ^ 35) →
      exec (.leaseCreation lease spec) s = .next s) ∧
    (∀ lease spec, lease < 16 → s.lease? lease = none → spec.extents.length ≤ 16 →
      (∀ e ∈ spec.extents, e.1 % 2 ^ 16 = 0 ∧ e.1 + e.2 * 2 ^ 16 ≤ 84 * 2 ^ 35) → ∃ t l, exec (.leaseCreation lease spec) s = .next t ∧
      t.mem = s.mem ∧ t.lease? lease = some l ∧ l.rows = spec.rows ∧ l.cols = spec.cols ∧ l.row0 = spec.row0 ∧
      l.col0 = spec.col0 ∧ l.extents = spec.extents ∧ l.save = spec.save ∧ l.latmat = spec.latmat ∧ l.mapgen = 1 ∧
      ∀ k, k ≠ lease → t.lease? k = s.lease? k) ∧
    (∀ lease l, s.lease? lease = some l →
      (∀ ns, ∃ t z, exec (.latmatSweep lease ns) s = .next t ∧ t.lease? lease = some z ∧ z.latGen = l.mapgen) ∧
      ∃ t z, exec (.packetTagDrop lease) s = .next t ∧ t.mem = s.mem ∧ t.lease? lease = some z ∧
        assocGet 0 z.health 4 = (assocGet 0 l.health 4 + 1) % 2 ^ 64) ∧
    (∀ w c, ∃ t, exec (.powerSample w c) s = .next t ∧ t.mem = s.mem ∧ ∀ k l, t.lease? k = some l →
      assocGet 0 l.health 6 = w ∧ assocGet 0 l.health 7 = c) ∧
    (∀ link p, s.linkDead link = false →
      let x : Link := assocGet {} s.links link
      (∃ t, exec (.flitAck link p) s = .next t ∧ t.mem = s.mem ∧ ∃ y, assocGet? t.links link = some y ∧
        y.fails = 0 ∧ y.sent = x.sent.filter (· != p) ∧ y.dead = x.dead) ∧
      (x.fails + 1 < 8 → ∃ t, exec (.flitReplay link) s = .next t ∧ t.mem = s.mem ∧ t.linkDead link = false ∧
        Output.replay link (x.sent.headD s.nextId) ∈ t.outbox ∧ ∃ y, assocGet? t.links link = some y ∧
          y.fails = x.fails + 1 ∧ y.sent = x.sent.headD s.nextId :: x.sent.tail) ∧
      (8 ≤ x.fails + 1 → ∃ t, exec (.flitReplay link) s = .next t ∧ t.mem = s.mem ∧ t.linkDead link = true) ∧
      ∃ t, exec (.lossOfLock link) s = .next t ∧ t.mem = s.mem ∧ t.linkDead link = true) ∧
    (∀ link, ∃ t, exec (.peerLinkLost link) s = .next t ∧ t.mem = s.mem ∧ ∃ y, assocGet? t.peerLinks link = some y ∧
      y.down = true) ∧
    (∀ link write addr data,
      (s.peerXlat link addr data.length write = none → ∃ t, exec (.peerAccessReceive link write addr data) s = .next t ∧
        t = { s with outbox := s.outbox ++ [.peerRefused link] }) ∧
      ∀ c, s.peerXlat link addr data.length write = some c →
        (write = true → ∀ u r, s.hwStore c addr (data.map (BitVec.ofNat 8)) 1 = (u, r) →
          exec (.peerAccessReceive link write addr data) s = .next u) ∧
        (write = false → ∀ u bs, s.hwLoad c addr data.length 0 = (u, .ok bs) →
          exec (.peerAccessReceive link write addr data) s =
            .next { u with outbox := u.outbox ++ [.peer link false addr bs 0] })) ∧
    (∀ port vfn i, 1 ≤ i → i ≤ 3 → ∃ t ws, exec (.spdmGetMeasurements port vfn i) s = .next t ∧
      t = { s with outbox := s.outbox ++ [.spdm port vfn ws (s.signature port)] } ∧ ws.length = 16) ∧
    (∀ port vfn l n, s.functionOf port vfn = some (.tenant l n) → (s.lease? l).isSome → ∃ t ws,
      exec (.spdmGetMeasurements port vfn 0x40) s = .next t ∧ t = { s with outbox := s.outbox ++ [.spdm port vfn ws (s.signature port)] } ∧
      ws.getD 0 0 = 1 ∧ ws.getD 2 0 = (s.tenantOf (tkey l n)).pgen) ∧
    (∀ port vfn i, i = 0 ∨ (3 < i ∧ i ≠ 0x40) → exec (.spdmGetMeasurements port vfn i) s = .next s) ∧
    ∀ port vfn,
      let ends : Instr → Bool → Nat → Prop := fun i ok st => ∃ t, exec i s = .next t ∧ t.mem = s.mem ∧
        t.outbox = s.outbox ++ [.tdisp port vfn ok] ∧ t.tdispOf port vfn = st
      let now := s.tdispOf port vfn
      (∀ l n, s.functionOf port vfn = some (.tenant l n) → 2 ≤ (s.tenantOf (tkey l n)).state →
        (s.tenantOf (tkey l n)).state ≤ 5 → (now = 0 → ends (.tdispLockInterface port vfn) true 1) ∧
        (now ≠ 0 → ends (.tdispLockInterface port vfn) false now)) ∧
      (now = 1 → ends (.tdispStartInterface port vfn) true 2) ∧
      (now ≠ 1 → ends (.tdispStartInterface port vfn) false now)

/-- 01 R26, R27, 03 R52, 08 R179, 17 R332, R337, R339, R346: the writes of registers from outside the lanes. Which function
reaches the owner's block is the model's choice (log entry 110). -/
def Obligations.RegisterSteps : Prop :=
  ∀ (s : State) lease n, (s.lease? lease).isSome → n < 16 →
    let k := tkey lease n
    let x := s.tenantOf k
    let others : State → Prop := fun t => ∀ j, j ≠ k → t.tenantOf j = s.tenantOf j
    (∀ fb v, fb = .owner ∨ fb = .lease lease ∨ (fb = .tenant lease n ∧ (assocGet? s.tenants k).isSome) →
      let f := s.getFb fb
      let reach := s.fbReaches fb
      (reach = false → ∀ i ∈ [Instr.faultResponse fb v, .fbheadWrite fb v, .clrovfWrite fb v], exec i s = .next s) ∧
      (reach = true →
      let drops := ∃ t, exec (.faultResponse fb v) s = .next t ∧ t.mem = s.mem ∧ t.gangs = s.gangs ∧
        (t.getFb fb).dropresp = min 0xFFFF (f.dropresp + 1) ∧ (t.getFb fb).reqs = f.reqs
      let req := v / 2 ^ 16 % 2 ^ 16
      (assocGet? f.reqs req = none → drops) ∧
      (∀ gen r, assocGet? f.reqs req = some (gen, r) → fb = .tenant lease n → v / 2 ^ 32 % 2 ^ 32 ≠ x.pgen → drops) ∧
      (∀ gen gid w cause synd va g y, assocGet? f.reqs req = some (gen, .page gid w cause synd va) →
        v / 2 ^ 32 % 2 ^ 32 = (if fb = .tenant lease n then x.pgen else gen) → v % 4 = 0 → s.gang? gid = some g →
        assocGet? g.waits w = some y → (∀ m, s.team? g.team = some m → m.placed = true) →
        ∃ t, exec (.faultResponse fb v) s = .next t ∧ t.mem = s.mem ∧ assocGet? (t.getFb fb).reqs req = none ∧
          Then t gid (fun h => assocGet? h.waits w = none ∧ ∀ l, l < g.lanes.length → y.mask.getLsbD l = true →
            (h.lane l).parked = false ∧ (h.lane l).pc = (g.lane l).pc)) ∧
      (f.held = [] → ∃ t, exec (.fbheadWrite fb v) s = .next t ∧ t.mem = s.mem ∧
        (t.getFb fb).head = v % 2 ^ 32 ∧ (t.getFb fb).tail = f.tail) ∧
      ∃ t, exec (.clrovfWrite fb v) s = .next t ∧ t.mem = s.mem ∧ (t.getFb fb).entie = v.testBit 0 ∧
        (t.getFb fb).ovfie = v.testBit 1 ∧
        (t.getFb fb).ovf = if v.testBit 31 = true ∧ f.held = [] then false else f.ovf)) ∧
    ((assocGet? s.tenants k).isSome →
      (∀ i v, i < 16 →
        let waits := s.attrWriteWaits k i
        (waits = true → exec (.attrEntryWrite lease n i v) s = .next s) ∧
        (waits = false → s.attrOk lease n (v % 2 ^ 64) = true → ∃ t, exec (.attrEntryWrite lease n i v) s = .next t ∧
          (∀ j, j ≠ k → { t.tenantOf j with
            incomplete := (s.tenantOf j).incomplete, drops := (s.tenantOf j).drops, counters := (s.tenantOf j).counters } =
              s.tenantOf j) ∧
          assocGet 0 (t.tenantOf k).attrs i = v % 2 ^ 64 ∧
          ∀ j, j ≠ i → assocGet 0 (t.tenantOf k).attrs j = assocGet 0 x.attrs j) ∧
        (waits = false → s.attrOk lease n (v % 2 ^ 64) = false → ∃ t, exec (.attrEntryWrite lease n i v) s = .next t ∧ t.mem = s.mem ∧
          others t ∧ t.tenantOf k = { x with status := 1 })) ∧
      (∀ v, v % 2 ^ 64 = v → v / 2 ^ 48 = 0 → v / 2 % 2 ^ 15 = 0 →
        let ends : Instr → Tenant → Prop := fun i y => ∃ t, exec i s = .next t ∧ t.mem = s.mem ∧ others t ∧
          t.tenantOf k = y ∧ (∀ c, ∀ e ∈ (t.core c).tlb, e.ten ≠ k) ∧
          ∀ q, (∀ e ∈ (t.quad q).walkAhead, e.ten ≠ k) ∧ ∀ e ∈ (t.quad q).walks, e.ten ≠ k
        (v ≠ x.s1root → ends (.s1rootWrite lease n v) { x with s1root := v }) ∧
        (x.state ≠ 0 → v ≠ x.s2root → ends (.s2rootWrite lease n v) { x with s2root := v })) ∧
      ∀ l v, s.lease? lease = some l → x.state ≠ 0 → ∃ t, exec (.quantumWrite lease n v) s = .next t ∧ t.mem = s.mem ∧
        others t ∧ t.tenantOf k = if v % 2 ^ 32 = 0 then { x with status := 3 }
          else { x with quantum := max (v % 2 ^ 32) (2 * l.save + 20) }) ∧
    (∀ who off v, off % 8 ≠ 0 → exec (.registerWrite who off v) s = .next s) ∧
    (∀ i v, i < 16 → exec (.registerWrite (.tenant lease n) (0x30000 + 0x100 * n + 8 * i) v) s =
      exec (.attrEntryWrite lease n i v) s) ∧
    (∀ v, exec (.registerWrite (.tenant lease n) (0x30000 + 0x100 * n + 0x80) v) s = exec (.s1rootWrite lease n v) s) ∧
    ∀ v, exec (.registerWrite (.lease lease) (0x10000 + 0x100 * n + 0x58) v) s = exec (.s2rootWrite lease n v) s

/-- 17 R341 to R346, 19 R355 to R358, R364: the life of a descriptor, the ladder of pre-emption, and time-slicing. What reads
zero, and when, and that bytes which another tenant's memory holds too stay, is log entry 27; what LASTSAVE counts is log entry
40. -/
def Obligations.TenantSteps : Prop :=
  ∀ (s : State) lease n l x, s.lease? lease = some l → n < 16 → assocGet? s.tenants (tkey lease n) = some x →
    let k := tkey lease n
    let others : State → Prop := fun t => ∀ j, j ≠ k → t.tenantOf j = s.tenantOf j
    let ends : Instr → (Tenant → Prop) → Prop := fun i p => ∃ t, exec i s = .next t ∧ t.mem = s.mem ∧ others t ∧
      p (t.tenantOf k)
    let scrubbed : State → Prop := fun t => memCanon s.mem = true → ∀ a, memByte t.mem a =
      if s.ownMemory lease n a then 0 else memByte s.mem a
    (x.state = 0 → ends (.descConfigure lease n) (fun y =>
      y = { x.resetWords with state := 1 })) ∧
    (x.state = 1 →
      (s.shapeStatus lease n false = 0 → s.freeTags ≠ [] → ∃ t, exec (.descCommit lease n) s = .next t ∧ scrubbed t ∧
        others t ∧ let y := t.tenantOf k
        y.state = 2 ∧ y.status = 0 ∧ y.pgen = (x.pgen + 1) % 2 ^ 32 ∧ y.counters = [] ∧ y.cnt = [] ∧ y.key ≠ none ∧
        ∃ g, g < 64 ∧ y.tag = some g ∧ ∀ t ∈ s.tenants, t.2.tag ≠ some g) ∧
      (∀ c, s.shapeStatus lease n false = c → c ≠ 0 → ends (.descCommit lease n) (fun y => y = { x with status := c }))) ∧
    (x.state = 2 → (∃ t, exec (.descUncommit lease n) s = .next t ∧ others t ∧
        t.tenantOf k = { x with state := 1, tag := none, key := none } ∧
        (memCanon s.mem = true → ∀ a, s.ownMemory lease n a = false → memByte t.mem a = memByte s.mem a)) ∧
      ends (.descRun lease n) (fun y => y = if x.flags.testBit 0 then { x with state := 5, out := false }
        else { x with state := 3, startAt := some (x.startAt.getD s.now) })) ∧
    (x.state = 3 → ends (.descPreempt lease n) (fun y => y.state = 4 ∧ ∃ w, y.ladder = some w ∧ w.t0 = s.now ∧
      w.acks = [] ∧ w.hard = if x.flags.testBit 0 then some s.now else none)) ∧
    (x.state = 5 →
      (x.flags.testBit 0 = true → ends (.descRestore lease n) (fun y => y = { x with out := false }) ∧
        ends (.descHoldOut lease n) (fun y => y = { x with out := true })) ∧
      (x.flags.testBit 0 = false → x.rewritten = false →
        ends (.descRestore lease n) (fun y => y = { x with restoring := true })) ∧
      (x.flags.testBit 0 = false → ∀ c u, s.reshape lease n = (c, u) → c ≠ 0 →
        ends (.descRestore lease n) (fun y => y = { x with status := c }))) ∧
    (let freed : Nat → Instr → Prop := fun st i => ∃ t, exec i s = .next t ∧ (t.tenantOf k).state = st ∧
        (t.tenantOf k).tag = none ∧ (t.tenantOf k).key = none ∧ (t.tenantOf k).queues = [] ∧ scrubbed t ∧ ∀ p ∈ t.teams, p.2.part ≠ k
     (x.state = 2 ∨ x.state = 5 ∨ x.state = 6 → freed 0 (.descFree lease n)) ∧
     (x.state = 6 → freed 1 (.descRecover lease n))) ∧
    (s.softOver lease n = true → ends (.preemptHardStop lease n) (fun y => y = { x with
      ladder := x.ladder.map (fun w => { w with hard := some s.now }) })) ∧
    (∀ c w, x.ladder = some w → w.hard ≠ none → c < 6 → c ∉ w.acks → s.classReady lease n c = true →
      ∃ t, exec (.engineStopAck lease n c) s = .next t ∧ (c ≠ 0 → t.mem = s.mem ∧ others t) ∧
        (t.tenantOf k).ladder = some { w with acks := c :: w.acks }) ∧
    (∀ us, s.mayFinishSave lease n = true → ends (.saveDone lease n us) (fun y => y.state = 5 ∧ y.ladder = none ∧
      y.lastsave = us % 2 ^ 32)) ∧
    (s.mustKill lease n = true → ∃ t, exec (.preemptKill lease n) s = .next t ∧ t.mem = s.mem ∧
      (t.tenantOf k).state = 6 ∧ (t.tenantOf k).pgen = (x.pgen + 1) % 2 ^ 32 ∧ ∀ p ∈ t.teams, p.2.part ≠ k) ∧
    (s.mayRestore lease n = true → ∀ c u, s.reshape lease n = (c, u) →
      (c = 0 → x.answers = [] → ∃ t, exec (.restoreDone lease n) s = .next t ∧ t.mem = (u.restoreAll lease n).mem ∧
        t.teams = (u.restoreAll lease n).teams ∧ (t.tenantOf k).state = 3) ∧
      (c ≠ 0 → ends (.restoreDone lease n) (fun y => y.state = 5 ∧ y.status = c))) ∧
    (s.quantumOver lease n = true →
      let stays := s.memberReady lease n = true ∧ s.nextMember lease (s.sliceGroup lease n) = some n
      (stays → ends (.quantumExpire lease n) (fun y => y.state = x.state ∧ y.quantumAt = some s.now)) ∧
      (¬ stays → ends (.quantumExpire lease n) (fun y => y.state = 4 ∧ ∃ w, y.ladder = some w ∧ w.hard = some s.now ∧
        w.sliced = true)))

/-! ### The machine as a whole -/

/-- 03 R53, 04 R67, 17 R337, 19 R355, R356, R373: what is so right after reset, by the reset values that the tables give;
and the words that a descriptor holds when it enters state 1. -/
def Obligations.ResetValues : Prop :=
  let z := State.reset
  (z.canon ∧ z.canonBuffers ∧ z.mem = [] ∧ z.host = [] ∧ z.teams = [] ∧ z.gangs = [] ∧ z.accesses = [] ∧ z.launches = []) ∧
  (∀ q, (z.quad q).pwr = 3 ∧ (z.quad q).cap = 0 ∧ (z.quad q).trim = false ∧ (z.quad q).vmin = 0xFFFF ∧
    (z.quad q).vtime = 0 ∧ (z.quad q).vten = 0 ∧ (z.quad q).noten = true) ∧
  (∀ k, (z.tenantOf k).state = 0 ∧ ∀ off, (z.tenantOf k).descWord off = 0) ∧
  (∀ l, z.lease? l = none) ∧
  (∀ off, Queue.read {} off = 0) ∧
  (∀ off, FaultBuffer.read {} off 0 = 0) ∧
  ∀ (s : State) lease n, (s.lease? lease).isSome → n < 16 → (s.tenantOf (tkey lease n)).state = 0 →
    ∃ t, exec (.descConfigure lease n) s = .next t ∧ ∀ off, (t.tenantOf (tkey lease n)).descWord off =
      if off = 0 then 1 else if off = 0x98 then 1000 else if off = 0x9C then 100 else 0

/-- 08 R168: every step keeps the canonical form of DRAM and of the host's pages, so that equal memories are equal data. -/
def Obligations.StepKeepsMemoryForm : Prop := Kept State.canon

/-- 08 R171, R173, 10 R243: every step keeps the canonical form of every buffer of every core and of every C-store, those
of saved contexts with them. -/
def Obligations.StepKeepsBufferForm : Prop := Kept State.canonBuffers

/-- 05 R89 to R99: every well-formed instruction word is decoded from the 32 bits that encode it, with every operand at
every value that the encoding admits. -/
def Obligations.DecodeEncode : Prop :=
  ∀ (i : Instr) (w : Nat), i.defect = none → encode i = some w → w < 2 ^ 32 ∧ decode w = .ok i

/-- 05 R91, R96 to R99: a word that decodes is the encoding of its instruction, which has no defect: no bit of it is
ignored, and no two words are one instruction. -/
def Obligations.EncodeDecode : Prop :=
  ∀ (i : Instr) (w : Nat), w < 2 ^ 32 → decode w = .ok i → encode i = some w ∧ i.defect = none

/-- Words that the manual writes out, and words that it names as no instruction (05 R96 to R99). -/
def Obligations.DecodeWords : Prop :=
  (decode 0x02A2858C = .ok (.imad 10 11 12) ∧ decode 0x10244FFF = .ok (.iaddi 9 9 2047) ∧
    decode 0x28100000 = .ok (.movi 4 0) ∧ decode 0x30618388 = .ok (.fma 6 7 8) ∧
    decode 0x20306010 = .ok (.aaddi 12 12 16) ∧ decode 0x44300011 = .ok (.sreg 12 17) ∧
    decode 0x6C506000 = .ok (.ldQ 20 12 0) ∧ decode 0x91438604 = .ok (.atomAdd 2 1 14 12 4) ∧
    decode 0xB6014184 = .ok (.scaAdd 5 3 4) ∧ decode 0xBBE00000 = .ok (.fence 3 3) ∧
    decode 0xD4140005 = .ok (.brz 5 5) ∧ decode 0xE8A00000 = .ok .eret ∧ decode 0xF2880000 = .ok (.mepi 32) ∧
    decode 0xF42000A8 = .ok (.swait 1 40) ∧ decode 0xFE1A2000 = .ok (.rep 3 1 0 1)) ∧
  (∀ w ∈ [0x0A000000, 0x07600000, 0x00000080, 0x68286803, 0xA8004000], ∀ i, decode w ≠ .ok i) ∧
  decodeTableWord 32 0x02A2858C = some (.imad 10 11 12) ∧ decodeTableWord 64 0x02A2858C = none

/-- 05 R89, R96, 06 R111: a step is what one of the agents that may act does, after time has passed; where the one agent
that may act is a cohort, its word is decoded and the instruction runs, its cohort now the last to have become ready, and
a word that decodes to none traps with 0x02; `issuedOutcome` then notes how long the word's pipes are busy and by when its results
are written (07 R137). A step of another agent that arrives from outside runs as it is. -/
def Obligations.StepRunsWord : Prop :=
  ∀ s : State,
    let p := s.passTime
    (p.acts = [] → step s = .next p) ∧ (p.acts ≠ [] → ∃ a ∈ p.acts, step s = p.perform a) ∧
    (∀ gid cid g c, p.acts = [.word gid cid] → p.gang? gid = some g → assocGet? g.cohorts cid = some c →
      let u : State := { p.queueUp gid cid with cur := (gid, cid) }
      (∀ i, decode c.word = .ok i → step s = issuedOutcome gid g c p.nextId (exec i u)) ∧
      ∀ r, decode c.word = .error r → step s = .next ((u.trapWord 0x02).issuedAt gid g c p.nextId)) ∧
    ∀ i rest, p.acts = [.input] → p.inputs = i :: rest → i.isWord = false → step s = exec i { p with inputs := rest }

end
end

