-- ==== Sys2Proof/Laws/Maps.lean ====
section
/-! SUPPORT. What the lists of pairs and the memories of the machine do: a read after a write, and the canonical form. -/
namespace Sys2Proof.Machine

/-! ### Lists of pairs -/

@[simp] theorem assocGet?_assocSet_self {α : Type} (xs : List (Nat × α)) (k : Nat) (v : α) :
    assocGet? (assocSet xs k v) k = some v := by
  induction xs with
  | nil => simp [assocSet, assocGet?]
  | cons p xs ih =>
    obtain ⟨j, w⟩ := p
    unfold assocSet
    split
    · simp [assocGet?]
    · split
      · simp [assocGet?]
      · rename_i h
        simp [assocGet?, h, ih]

theorem assocGet?_assocSet_ne {α : Type} (xs : List (Nat × α)) {k i : Nat} (v : α) (h : i ≠ k) :
    assocGet? (assocSet xs k v) i = assocGet? xs i := by
  have h' : k ≠ i := fun e => h e.symm
  induction xs with
  | nil => simp [assocSet, assocGet?, h']
  | cons p xs ih =>
    obtain ⟨j, w⟩ := p
    unfold assocSet
    split
    · simp [assocGet?, h']
    · split
      · rename_i e
        subst e
        simp [assocGet?, h']
      · simp only [assocGet?, ih]

theorem assocGet?_assocSet {α : Type} (xs : List (Nat × α)) (k i : Nat) (v : α) :
    assocGet? (assocSet xs k v) i = if i = k then some v else assocGet? xs i := by
  split
  · rename_i h
    subst h
    exact assocGet?_assocSet_self xs i v
  · exact assocGet?_assocSet_ne xs v ‹_›

@[simp] theorem assocGet_assocSet_self {α : Type} (d : α) (xs : List (Nat × α)) (k : Nat) (v : α) :
    assocGet d (assocSet xs k v) k = v := by simp [assocGet]

theorem assocGet_assocSet_ne {α : Type} (d : α) (xs : List (Nat × α)) {k i : Nat} (v : α) (h : i ≠ k) :
    assocGet d (assocSet xs k v) i = assocGet d xs i := by simp [assocGet, assocGet?_assocSet_ne xs v h]

@[simp] theorem assocGet?_assocErase_self {α : Type} (xs : List (Nat × α)) (k : Nat) :
    assocGet? (assocErase xs k) k = none := by
  induction xs with
  | nil => rfl
  | cons p xs ih =>
    obtain ⟨j, w⟩ := p
    by_cases h : j = k
    · simpa [assocErase, h] using ih
    · simp only [assocErase] at ih ⊢
      rw [List.filter_cons_of_pos (by simpa using h)]
      simp [assocGet?, h, ih]

theorem assocGet?_assocErase_ne {α : Type} (xs : List (Nat × α)) {k i : Nat} (h : i ≠ k) :
    assocGet? (assocErase xs k) i = assocGet? xs i := by
  induction xs with
  | nil => rfl
  | cons p xs ih =>
    obtain ⟨j, w⟩ := p
    simp only [assocErase] at ih ⊢
    by_cases e : j = k
    · subst e
      rw [List.filter_cons_of_neg (by simp)]
      simp [assocGet?, ih, Ne.symm h]
    · rw [List.filter_cons_of_pos (by simpa using e)]
      simp [assocGet?, ih]

/-! ### Memories -/

@[simp] theorem memByte_nil (a : Nat) : memByte [] a = 0 := rfl

theorem memByte_cons (j : Nat) (c : Byte) (m : Mem) (a : Nat) :
    memByte ((j, c) :: m) a = if j = a then c else memByte m a := by
  simp only [memByte, assocGet, assocGet?]
  split <;> rfl

/-- Below the lowest listed address a canonical memory reads as unlisted. -/
theorem memByte_below {lo : Nat} {m : Mem} (h : memCanonFrom lo m = true) {a : Nat} (ha : a < lo) :
    memByte m a = 0 := by
  induction m generalizing lo with
  | nil => rfl
  | cons p m ih =>
    obtain ⟨j, c⟩ := p
    simp only [memCanonFrom, Bool.and_eq_true, decide_eq_true_eq] at h
    rw [memByte_cons, if_neg (by omega)]
    exact ih h.2 (by omega)

/-- A read of the byte that was written. -/
theorem memByte_memSet_self {lo : Nat} {m : Mem} (h : memCanonFrom lo m = true) (a : Nat) (b : Byte) :
    memByte (memSet m a b) a = b := by
  induction m generalizing lo with
  | nil => unfold memSet; split <;> simp_all [memByte_cons]
  | cons p m ih =>
    obtain ⟨j, c⟩ := p
    simp only [memCanonFrom, Bool.and_eq_true, decide_eq_true_eq] at h
    have hb := @memByte_below _ _ h.2
    unfold memSet
    split
    · split
      · rename_i hlt hz
        rw [memByte_cons, if_neg (by omega), hb (by omega), hz]
      · simp [memByte_cons]
    · split
      · rename_i e
        subst e
        split
        · rename_i hz
          rw [hb (by omega), hz]
        · simp [memByte_cons]
      · rw [memByte_cons, if_neg (by omega)]
        exact ih h.2

/-- A read of another byte. -/
theorem memByte_memSet_ne (m : Mem) {a i : Nat} (b : Byte) (h : i ≠ a) : memByte (memSet m a b) i = memByte m i := by
  have h' : a ≠ i := fun e => h e.symm
  induction m with
  | nil => unfold memSet; split <;> simp [memByte_cons, h']
  | cons p m ih =>
    obtain ⟨j, c⟩ := p
    unfold memSet
    split
    · split <;> simp [memByte_cons, h']
    · split
      · rename_i e
        subst e
        split <;> simp [memByte_cons, h']
      · simp [memByte_cons, ih]

theorem memCanonFrom_le {lo k : Nat} {m : Mem} (h : memCanonFrom lo m = true) (hk : k ≤ lo) :
    memCanonFrom k m = true := by
  cases m with
  | nil => rfl
  | cons p m =>
    obtain ⟨j, c⟩ := p
    simp only [memCanonFrom, Bool.and_eq_true, decide_eq_true_eq] at h ⊢
    exact ⟨⟨by omega, h.1.2⟩, h.2⟩

/-- A write of one byte keeps the canonical form. -/
theorem memCanonFrom_memSet {lo : Nat} {m : Mem} (h : memCanonFrom lo m = true) {a : Nat} (ha : lo ≤ a) (b : Byte) :
    memCanonFrom lo (memSet m a b) = true := by
  induction m generalizing lo with
  | nil =>
    unfold memSet
    split
    · rfl
    · rename_i hb
      simp only [memCanonFrom, Bool.and_eq_true, decide_eq_true_eq, Bool.and_true]
      exact ⟨ha, hb⟩
  | cons p m ih =>
    obtain ⟨j, c⟩ := p
    simp only [memCanonFrom, Bool.and_eq_true, decide_eq_true_eq] at h
    unfold memSet
    split
    · split
      · simpa [memCanonFrom] using h
      · rename_i hlt hb
        have hj : a + 1 ≤ j := by omega
        simp only [memCanonFrom, Bool.and_eq_true, decide_eq_true_eq]
        exact ⟨⟨ha, hb⟩, ⟨hj, h.1.2⟩, h.2⟩
    · split
      · rename_i e
        subst e
        split
        · exact memCanonFrom_le h.2 (by omega)
        · rename_i hb
          simp only [memCanonFrom, Bool.and_eq_true, decide_eq_true_eq]
          exact ⟨⟨ha, hb⟩, h.2⟩
      · simp only [memCanonFrom, Bool.and_eq_true, decide_eq_true_eq]
        exact ⟨h.1, ih h.2 (by omega)⟩

theorem memCanon_memSet {m : Mem} (h : memCanon m = true) (a : Nat) (b : Byte) : memCanon (memSet m a b) = true :=
  memCanonFrom_memSet h (Nat.zero_le a) b

/-- A write of bytes keeps the canonical form. -/
theorem memCanon_memWrite {m : Mem} (h : memCanon m = true) (a : Nat) (bs : List Byte) :
    memCanon (memWrite m a bs) = true := by
  induction bs generalizing m a with
  | nil => exact h
  | cons b bs ih => exact ih (memCanon_memSet h a b) (a + 1)

theorem memCanon_memPut {m : Mem} (h : memCanon m = true) (a n x : Nat) : memCanon (memPut m a n x) = true :=
  memCanon_memWrite h a _

/-- Bytes that p keeps stay canonical. -/
theorem memCanonFrom_filter {lo : Nat} {m : Mem} (h : memCanonFrom lo m = true) (p : Host.Cell → Bool) :
    memCanonFrom lo (m.filter p) = true := by
  induction m generalizing lo with
  | nil => rfl
  | cons c m ih =>
    obtain ⟨j, b⟩ := c
    simp only [memCanonFrom, Bool.and_eq_true, decide_eq_true_eq] at h
    rw [List.filter_cons]
    split
    · simp only [memCanonFrom, Bool.and_eq_true, decide_eq_true_eq]
      exact ⟨h.1, ih h.2⟩
    · exact memCanonFrom_le (ih h.2) (by omega)

theorem memCanon_filter {m : Mem} (h : memCanon m = true) (p : Host.Cell → Bool) : memCanon (m.filter p) = true :=
  memCanonFrom_filter h p

/-- A write of bytes leaves every address outside them as it was. -/
theorem memByte_memWrite_outside (m : Mem) (a : Nat) (bs : List Byte) {i : Nat} (h : i < a ∨ a + bs.length ≤ i) :
    memByte (memWrite m a bs) i = memByte m i := by
  induction bs generalizing m a with
  | nil => rfl
  | cons b bs ih =>
    simp only [List.length_cons] at h
    show memByte (memWrite (memSet m a b) (a + 1) bs) i = memByte m i
    rw [ih (memSet m a b) (a + 1) (by omega), memByte_memSet_ne m b (by omega)]

/-- A read of the bytes that were written. -/
theorem memRead_memWrite {m : Mem} (h : memCanon m = true) (a : Nat) (bs : List Byte) :
    memRead (memWrite m a bs) a bs.length = bs := by
  induction bs generalizing m a with
  | nil => rfl
  | cons b bs ih =>
    have h1 : memCanon (memSet m a b) = true := memCanon_memSet h a b
    show memByte (memWrite (memSet m a b) (a + 1) bs) a :: memRead (memWrite (memSet m a b) (a + 1) bs) (a + 1) bs.length
      = b :: bs
    rw [memByte_memWrite_outside _ _ _ (Or.inl (Nat.lt_succ_self a)), memByte_memSet_self h, ih h1]

end Sys2Proof.Machine
end

