-- ==== Sys2Proof/Laws/State.lean ====
section
/-! SUPPORT. One lemma for each field under each update of the state, and what the changes of a part do. -/
namespace Sys2Proof.Machine

/-! ### setGang -/

@[simp] theorem setGang_tick (s : State) (k : Nat) (x : Gang) : (s.setGang k x).tick = s.tick := rfl
@[simp] theorem setGang_cur (s : State) (k : Nat) (x : Gang) : (s.setGang k x).cur = s.cur := rfl
@[simp] theorem setGang_inputs (s : State) (k : Nat) (x : Gang) : (s.setGang k x).inputs = s.inputs := rfl
@[simp] theorem setGang_outbox (s : State) (k : Nat) (x : Gang) : (s.setGang k x).outbox = s.outbox := rfl
@[simp] theorem setGang_nextId (s : State) (k : Nat) (x : Gang) : (s.setGang k x).nextId = s.nextId := rfl
@[simp] theorem setGang_now (s : State) (k : Nat) (x : Gang) : (s.setGang k x).now = s.now := rfl
@[simp] theorem setGang_mem (s : State) (k : Nat) (x : Gang) : (s.setGang k x).mem = s.mem := rfl
@[simp] theorem setGang_host (s : State) (k : Nat) (x : Gang) : (s.setGang k x).host = s.host := rfl
@[simp] theorem setGang_hostErrors (s : State) (k : Nat) (x : Gang) : (s.setGang k x).hostErrors = s.hostErrors := rfl
@[simp] theorem setGang_badLines (s : State) (k : Nat) (x : Gang) : (s.setGang k x).badLines = s.badLines := rfl
@[simp] theorem setGang_l2 (s : State) (k : Nat) (x : Gang) : (s.setGang k x).l2 = s.l2 := rfl
@[simp] theorem setGang_sharers (s : State) (k : Nat) (x : Gang) : (s.setGang k x).sharers = s.sharers := rfl
@[simp] theorem setGang_holders (s : State) (k : Nat) (x : Gang) : (s.setGang k x).holders = s.holders := rfl
@[simp] theorem setGang_marks (s : State) (k : Nat) (x : Gang) : (s.setGang k x).marks = s.marks := rfl
@[simp] theorem setGang_monRegs (s : State) (k : Nat) (x : Gang) : (s.setGang k x).monRegs = s.monRegs := rfl
@[simp] theorem setGang_accesses (s : State) (k : Nat) (x : Gang) : (s.setGang k x).accesses = s.accesses := rfl
@[simp] theorem setGang_syncs (s : State) (k : Nat) (x : Gang) : (s.setGang k x).syncs = s.syncs := rfl
@[simp] theorem setGang_joinVcs (s : State) (k : Nat) (x : Gang) : (s.setGang k x).joinVcs = s.joinVcs := rfl
@[simp] theorem setGang_fills (s : State) (k : Nat) (x : Gang) : (s.setGang k x).fills = s.fills := rfl
@[simp] theorem setGang_buckets (s : State) (k : Nat) (x : Gang) : (s.setGang k x).buckets = s.buckets := rfl
@[simp] theorem setGang_refillAt (s : State) (k : Nat) (x : Gang) : (s.setGang k x).refillAt = s.refillAt := rfl
@[simp] theorem setGang_booted (s : State) (k : Nat) (x : Gang) : (s.setGang k x).booted = s.booted := rfl
@[simp] theorem setGang_fields (s : State) (k : Nat) (x : Gang) : (s.setGang k x).fields = s.fields := rfl
@[simp] theorem setGang_ownerTvec (s : State) (k : Nat) (x : Gang) : (s.setGang k x).ownerTvec = s.ownerTvec := rfl
@[simp] theorem setGang_ownerFb (s : State) (k : Nat) (x : Gang) : (s.setGang k x).ownerFb = s.ownerFb := rfl
@[simp] theorem setGang_peerLinks (s : State) (k : Nat) (x : Gang) : (s.setGang k x).peerLinks = s.peerLinks := rfl
@[simp] theorem setGang_links (s : State) (k : Nat) (x : Gang) : (s.setGang k x).links = s.links := rfl
@[simp] theorem setGang_failing (s : State) (k : Nat) (x : Gang) : (s.setGang k x).failing = s.failing := rfl
@[simp] theorem setGang_versions (s : State) (k : Nat) (x : Gang) : (s.setGang k x).versions = s.versions := rfl
@[simp] theorem setGang_fns (s : State) (k : Nat) (x : Gang) : (s.setGang k x).fns = s.fns := rfl
@[simp] theorem setGang_quads (s : State) (k : Nat) (x : Gang) : (s.setGang k x).quads = s.quads := rfl
@[simp] theorem setGang_leases (s : State) (k : Nat) (x : Gang) : (s.setGang k x).leases = s.leases := rfl
@[simp] theorem setGang_tenants (s : State) (k : Nat) (x : Gang) : (s.setGang k x).tenants = s.tenants := rfl
@[simp] theorem setGang_launches (s : State) (k : Nat) (x : Gang) : (s.setGang k x).launches = s.launches := rfl
@[simp] theorem setGang_teams (s : State) (k : Nat) (x : Gang) : (s.setGang k x).teams = s.teams := rfl
@[simp] theorem setGang_cores (s : State) (k : Nat) (x : Gang) : (s.setGang k x).cores = s.cores := rfl
@[simp] theorem setGang_teamOf (s : State) (k : Nat) (x : Gang) (i : Nat) : (s.setGang k x).team? i = s.team? i := rfl
@[simp] theorem setGang_launchOf (s : State) (k : Nat) (x : Gang) (i : Nat) : (s.setGang k x).launch? i = s.launch? i := rfl
@[simp] theorem setGang_leaseOf (s : State) (k : Nat) (x : Gang) (i : Nat) : (s.setGang k x).lease? i = s.lease? i := rfl
@[simp] theorem setGang_coreOf (s : State) (k : Nat) (x : Gang) (i : Nat) : (s.setGang k x).core i = s.core i := rfl
@[simp] theorem setGang_quadOf (s : State) (k : Nat) (x : Gang) (i : Nat) : (s.setGang k x).quad i = s.quad i := rfl
@[simp] theorem setGang_tenantOfOf (s : State) (k : Nat) (x : Gang) (i : Nat) : (s.setGang k x).tenantOf i = s.tenantOf i := rfl
@[simp] theorem setGang_accessOf (s : State) (k : Nat) (x : Gang) (i : Nat) : (s.setGang k x).access? i = s.access? i := rfl

/-! ### setTeam -/

@[simp] theorem setTeam_tick (s : State) (k : Nat) (x : Team) : (s.setTeam k x).tick = s.tick := rfl
@[simp] theorem setTeam_cur (s : State) (k : Nat) (x : Team) : (s.setTeam k x).cur = s.cur := rfl
@[simp] theorem setTeam_inputs (s : State) (k : Nat) (x : Team) : (s.setTeam k x).inputs = s.inputs := rfl
@[simp] theorem setTeam_outbox (s : State) (k : Nat) (x : Team) : (s.setTeam k x).outbox = s.outbox := rfl
@[simp] theorem setTeam_nextId (s : State) (k : Nat) (x : Team) : (s.setTeam k x).nextId = s.nextId := rfl
@[simp] theorem setTeam_now (s : State) (k : Nat) (x : Team) : (s.setTeam k x).now = s.now := rfl
@[simp] theorem setTeam_mem (s : State) (k : Nat) (x : Team) : (s.setTeam k x).mem = s.mem := rfl
@[simp] theorem setTeam_host (s : State) (k : Nat) (x : Team) : (s.setTeam k x).host = s.host := rfl
@[simp] theorem setTeam_hostErrors (s : State) (k : Nat) (x : Team) : (s.setTeam k x).hostErrors = s.hostErrors := rfl
@[simp] theorem setTeam_badLines (s : State) (k : Nat) (x : Team) : (s.setTeam k x).badLines = s.badLines := rfl
@[simp] theorem setTeam_l2 (s : State) (k : Nat) (x : Team) : (s.setTeam k x).l2 = s.l2 := rfl
@[simp] theorem setTeam_sharers (s : State) (k : Nat) (x : Team) : (s.setTeam k x).sharers = s.sharers := rfl
@[simp] theorem setTeam_holders (s : State) (k : Nat) (x : Team) : (s.setTeam k x).holders = s.holders := rfl
@[simp] theorem setTeam_marks (s : State) (k : Nat) (x : Team) : (s.setTeam k x).marks = s.marks := rfl
@[simp] theorem setTeam_monRegs (s : State) (k : Nat) (x : Team) : (s.setTeam k x).monRegs = s.monRegs := rfl
@[simp] theorem setTeam_accesses (s : State) (k : Nat) (x : Team) : (s.setTeam k x).accesses = s.accesses := rfl
@[simp] theorem setTeam_syncs (s : State) (k : Nat) (x : Team) : (s.setTeam k x).syncs = s.syncs := rfl
@[simp] theorem setTeam_joinVcs (s : State) (k : Nat) (x : Team) : (s.setTeam k x).joinVcs = s.joinVcs := rfl
@[simp] theorem setTeam_fills (s : State) (k : Nat) (x : Team) : (s.setTeam k x).fills = s.fills := rfl
@[simp] theorem setTeam_buckets (s : State) (k : Nat) (x : Team) : (s.setTeam k x).buckets = s.buckets := rfl
@[simp] theorem setTeam_refillAt (s : State) (k : Nat) (x : Team) : (s.setTeam k x).refillAt = s.refillAt := rfl
@[simp] theorem setTeam_booted (s : State) (k : Nat) (x : Team) : (s.setTeam k x).booted = s.booted := rfl
@[simp] theorem setTeam_fields (s : State) (k : Nat) (x : Team) : (s.setTeam k x).fields = s.fields := rfl
@[simp] theorem setTeam_ownerTvec (s : State) (k : Nat) (x : Team) : (s.setTeam k x).ownerTvec = s.ownerTvec := rfl
@[simp] theorem setTeam_ownerFb (s : State) (k : Nat) (x : Team) : (s.setTeam k x).ownerFb = s.ownerFb := rfl
@[simp] theorem setTeam_peerLinks (s : State) (k : Nat) (x : Team) : (s.setTeam k x).peerLinks = s.peerLinks := rfl
@[simp] theorem setTeam_links (s : State) (k : Nat) (x : Team) : (s.setTeam k x).links = s.links := rfl
@[simp] theorem setTeam_failing (s : State) (k : Nat) (x : Team) : (s.setTeam k x).failing = s.failing := rfl
@[simp] theorem setTeam_versions (s : State) (k : Nat) (x : Team) : (s.setTeam k x).versions = s.versions := rfl
@[simp] theorem setTeam_fns (s : State) (k : Nat) (x : Team) : (s.setTeam k x).fns = s.fns := rfl
@[simp] theorem setTeam_quads (s : State) (k : Nat) (x : Team) : (s.setTeam k x).quads = s.quads := rfl
@[simp] theorem setTeam_leases (s : State) (k : Nat) (x : Team) : (s.setTeam k x).leases = s.leases := rfl
@[simp] theorem setTeam_tenants (s : State) (k : Nat) (x : Team) : (s.setTeam k x).tenants = s.tenants := rfl
@[simp] theorem setTeam_launches (s : State) (k : Nat) (x : Team) : (s.setTeam k x).launches = s.launches := rfl
@[simp] theorem setTeam_gangs (s : State) (k : Nat) (x : Team) : (s.setTeam k x).gangs = s.gangs := rfl
@[simp] theorem setTeam_cores (s : State) (k : Nat) (x : Team) : (s.setTeam k x).cores = s.cores := rfl
@[simp] theorem setTeam_gangOf (s : State) (k : Nat) (x : Team) (i : Nat) : (s.setTeam k x).gang? i = s.gang? i := rfl
@[simp] theorem setTeam_launchOf (s : State) (k : Nat) (x : Team) (i : Nat) : (s.setTeam k x).launch? i = s.launch? i := rfl
@[simp] theorem setTeam_leaseOf (s : State) (k : Nat) (x : Team) (i : Nat) : (s.setTeam k x).lease? i = s.lease? i := rfl
@[simp] theorem setTeam_coreOf (s : State) (k : Nat) (x : Team) (i : Nat) : (s.setTeam k x).core i = s.core i := rfl
@[simp] theorem setTeam_quadOf (s : State) (k : Nat) (x : Team) (i : Nat) : (s.setTeam k x).quad i = s.quad i := rfl
@[simp] theorem setTeam_tenantOfOf (s : State) (k : Nat) (x : Team) (i : Nat) : (s.setTeam k x).tenantOf i = s.tenantOf i := rfl
@[simp] theorem setTeam_accessOf (s : State) (k : Nat) (x : Team) (i : Nat) : (s.setTeam k x).access? i = s.access? i := rfl

/-! ### setLaunch -/

@[simp] theorem setLaunch_tick (s : State) (k : Nat) (x : Launch) : (s.setLaunch k x).tick = s.tick := rfl
@[simp] theorem setLaunch_cur (s : State) (k : Nat) (x : Launch) : (s.setLaunch k x).cur = s.cur := rfl
@[simp] theorem setLaunch_inputs (s : State) (k : Nat) (x : Launch) : (s.setLaunch k x).inputs = s.inputs := rfl
@[simp] theorem setLaunch_outbox (s : State) (k : Nat) (x : Launch) : (s.setLaunch k x).outbox = s.outbox := rfl
@[simp] theorem setLaunch_nextId (s : State) (k : Nat) (x : Launch) : (s.setLaunch k x).nextId = s.nextId := rfl
@[simp] theorem setLaunch_now (s : State) (k : Nat) (x : Launch) : (s.setLaunch k x).now = s.now := rfl
@[simp] theorem setLaunch_mem (s : State) (k : Nat) (x : Launch) : (s.setLaunch k x).mem = s.mem := rfl
@[simp] theorem setLaunch_host (s : State) (k : Nat) (x : Launch) : (s.setLaunch k x).host = s.host := rfl
@[simp] theorem setLaunch_hostErrors (s : State) (k : Nat) (x : Launch) : (s.setLaunch k x).hostErrors = s.hostErrors := rfl
@[simp] theorem setLaunch_badLines (s : State) (k : Nat) (x : Launch) : (s.setLaunch k x).badLines = s.badLines := rfl
@[simp] theorem setLaunch_l2 (s : State) (k : Nat) (x : Launch) : (s.setLaunch k x).l2 = s.l2 := rfl
@[simp] theorem setLaunch_sharers (s : State) (k : Nat) (x : Launch) : (s.setLaunch k x).sharers = s.sharers := rfl
@[simp] theorem setLaunch_holders (s : State) (k : Nat) (x : Launch) : (s.setLaunch k x).holders = s.holders := rfl
@[simp] theorem setLaunch_marks (s : State) (k : Nat) (x : Launch) : (s.setLaunch k x).marks = s.marks := rfl
@[simp] theorem setLaunch_monRegs (s : State) (k : Nat) (x : Launch) : (s.setLaunch k x).monRegs = s.monRegs := rfl
@[simp] theorem setLaunch_accesses (s : State) (k : Nat) (x : Launch) : (s.setLaunch k x).accesses = s.accesses := rfl
@[simp] theorem setLaunch_syncs (s : State) (k : Nat) (x : Launch) : (s.setLaunch k x).syncs = s.syncs := rfl
@[simp] theorem setLaunch_joinVcs (s : State) (k : Nat) (x : Launch) : (s.setLaunch k x).joinVcs = s.joinVcs := rfl
@[simp] theorem setLaunch_fills (s : State) (k : Nat) (x : Launch) : (s.setLaunch k x).fills = s.fills := rfl
@[simp] theorem setLaunch_buckets (s : State) (k : Nat) (x : Launch) : (s.setLaunch k x).buckets = s.buckets := rfl
@[simp] theorem setLaunch_refillAt (s : State) (k : Nat) (x : Launch) : (s.setLaunch k x).refillAt = s.refillAt := rfl
@[simp] theorem setLaunch_booted (s : State) (k : Nat) (x : Launch) : (s.setLaunch k x).booted = s.booted := rfl
@[simp] theorem setLaunch_fields (s : State) (k : Nat) (x : Launch) : (s.setLaunch k x).fields = s.fields := rfl
@[simp] theorem setLaunch_ownerTvec (s : State) (k : Nat) (x : Launch) : (s.setLaunch k x).ownerTvec = s.ownerTvec := rfl
@[simp] theorem setLaunch_ownerFb (s : State) (k : Nat) (x : Launch) : (s.setLaunch k x).ownerFb = s.ownerFb := rfl
@[simp] theorem setLaunch_peerLinks (s : State) (k : Nat) (x : Launch) : (s.setLaunch k x).peerLinks = s.peerLinks := rfl
@[simp] theorem setLaunch_links (s : State) (k : Nat) (x : Launch) : (s.setLaunch k x).links = s.links := rfl
@[simp] theorem setLaunch_failing (s : State) (k : Nat) (x : Launch) : (s.setLaunch k x).failing = s.failing := rfl
@[simp] theorem setLaunch_versions (s : State) (k : Nat) (x : Launch) : (s.setLaunch k x).versions = s.versions := rfl
@[simp] theorem setLaunch_fns (s : State) (k : Nat) (x : Launch) : (s.setLaunch k x).fns = s.fns := rfl
@[simp] theorem setLaunch_quads (s : State) (k : Nat) (x : Launch) : (s.setLaunch k x).quads = s.quads := rfl
@[simp] theorem setLaunch_leases (s : State) (k : Nat) (x : Launch) : (s.setLaunch k x).leases = s.leases := rfl
@[simp] theorem setLaunch_tenants (s : State) (k : Nat) (x : Launch) : (s.setLaunch k x).tenants = s.tenants := rfl
@[simp] theorem setLaunch_teams (s : State) (k : Nat) (x : Launch) : (s.setLaunch k x).teams = s.teams := rfl
@[simp] theorem setLaunch_gangs (s : State) (k : Nat) (x : Launch) : (s.setLaunch k x).gangs = s.gangs := rfl
@[simp] theorem setLaunch_cores (s : State) (k : Nat) (x : Launch) : (s.setLaunch k x).cores = s.cores := rfl
@[simp] theorem setLaunch_gangOf (s : State) (k : Nat) (x : Launch) (i : Nat) : (s.setLaunch k x).gang? i = s.gang? i := rfl
@[simp] theorem setLaunch_teamOf (s : State) (k : Nat) (x : Launch) (i : Nat) : (s.setLaunch k x).team? i = s.team? i := rfl
@[simp] theorem setLaunch_leaseOf (s : State) (k : Nat) (x : Launch) (i : Nat) : (s.setLaunch k x).lease? i = s.lease? i := rfl
@[simp] theorem setLaunch_coreOf (s : State) (k : Nat) (x : Launch) (i : Nat) : (s.setLaunch k x).core i = s.core i := rfl
@[simp] theorem setLaunch_quadOf (s : State) (k : Nat) (x : Launch) (i : Nat) : (s.setLaunch k x).quad i = s.quad i := rfl
@[simp] theorem setLaunch_tenantOfOf (s : State) (k : Nat) (x : Launch) (i : Nat) : (s.setLaunch k x).tenantOf i = s.tenantOf i := rfl
@[simp] theorem setLaunch_accessOf (s : State) (k : Nat) (x : Launch) (i : Nat) : (s.setLaunch k x).access? i = s.access? i := rfl

/-! ### setLease -/

@[simp] theorem setLease_tick (s : State) (k : Nat) (x : Lease) : (s.setLease k x).tick = s.tick := rfl
@[simp] theorem setLease_cur (s : State) (k : Nat) (x : Lease) : (s.setLease k x).cur = s.cur := rfl
@[simp] theorem setLease_inputs (s : State) (k : Nat) (x : Lease) : (s.setLease k x).inputs = s.inputs := rfl
@[simp] theorem setLease_outbox (s : State) (k : Nat) (x : Lease) : (s.setLease k x).outbox = s.outbox := rfl
@[simp] theorem setLease_nextId (s : State) (k : Nat) (x : Lease) : (s.setLease k x).nextId = s.nextId := rfl
@[simp] theorem setLease_now (s : State) (k : Nat) (x : Lease) : (s.setLease k x).now = s.now := rfl
@[simp] theorem setLease_mem (s : State) (k : Nat) (x : Lease) : (s.setLease k x).mem = s.mem := rfl
@[simp] theorem setLease_host (s : State) (k : Nat) (x : Lease) : (s.setLease k x).host = s.host := rfl
@[simp] theorem setLease_hostErrors (s : State) (k : Nat) (x : Lease) : (s.setLease k x).hostErrors = s.hostErrors := rfl
@[simp] theorem setLease_badLines (s : State) (k : Nat) (x : Lease) : (s.setLease k x).badLines = s.badLines := rfl
@[simp] theorem setLease_l2 (s : State) (k : Nat) (x : Lease) : (s.setLease k x).l2 = s.l2 := rfl
@[simp] theorem setLease_sharers (s : State) (k : Nat) (x : Lease) : (s.setLease k x).sharers = s.sharers := rfl
@[simp] theorem setLease_holders (s : State) (k : Nat) (x : Lease) : (s.setLease k x).holders = s.holders := rfl
@[simp] theorem setLease_marks (s : State) (k : Nat) (x : Lease) : (s.setLease k x).marks = s.marks := rfl
@[simp] theorem setLease_monRegs (s : State) (k : Nat) (x : Lease) : (s.setLease k x).monRegs = s.monRegs := rfl
@[simp] theorem setLease_accesses (s : State) (k : Nat) (x : Lease) : (s.setLease k x).accesses = s.accesses := rfl
@[simp] theorem setLease_syncs (s : State) (k : Nat) (x : Lease) : (s.setLease k x).syncs = s.syncs := rfl
@[simp] theorem setLease_joinVcs (s : State) (k : Nat) (x : Lease) : (s.setLease k x).joinVcs = s.joinVcs := rfl
@[simp] theorem setLease_fills (s : State) (k : Nat) (x : Lease) : (s.setLease k x).fills = s.fills := rfl
@[simp] theorem setLease_buckets (s : State) (k : Nat) (x : Lease) : (s.setLease k x).buckets = s.buckets := rfl
@[simp] theorem setLease_refillAt (s : State) (k : Nat) (x : Lease) : (s.setLease k x).refillAt = s.refillAt := rfl
@[simp] theorem setLease_booted (s : State) (k : Nat) (x : Lease) : (s.setLease k x).booted = s.booted := rfl
@[simp] theorem setLease_fields (s : State) (k : Nat) (x : Lease) : (s.setLease k x).fields = s.fields := rfl
@[simp] theorem setLease_ownerTvec (s : State) (k : Nat) (x : Lease) : (s.setLease k x).ownerTvec = s.ownerTvec := rfl
@[simp] theorem setLease_ownerFb (s : State) (k : Nat) (x : Lease) : (s.setLease k x).ownerFb = s.ownerFb := rfl
@[simp] theorem setLease_peerLinks (s : State) (k : Nat) (x : Lease) : (s.setLease k x).peerLinks = s.peerLinks := rfl
@[simp] theorem setLease_links (s : State) (k : Nat) (x : Lease) : (s.setLease k x).links = s.links := rfl
@[simp] theorem setLease_failing (s : State) (k : Nat) (x : Lease) : (s.setLease k x).failing = s.failing := rfl
@[simp] theorem setLease_versions (s : State) (k : Nat) (x : Lease) : (s.setLease k x).versions = s.versions := rfl
@[simp] theorem setLease_fns (s : State) (k : Nat) (x : Lease) : (s.setLease k x).fns = s.fns := rfl
@[simp] theorem setLease_quads (s : State) (k : Nat) (x : Lease) : (s.setLease k x).quads = s.quads := rfl
@[simp] theorem setLease_tenants (s : State) (k : Nat) (x : Lease) : (s.setLease k x).tenants = s.tenants := rfl
@[simp] theorem setLease_launches (s : State) (k : Nat) (x : Lease) : (s.setLease k x).launches = s.launches := rfl
@[simp] theorem setLease_teams (s : State) (k : Nat) (x : Lease) : (s.setLease k x).teams = s.teams := rfl
@[simp] theorem setLease_gangs (s : State) (k : Nat) (x : Lease) : (s.setLease k x).gangs = s.gangs := rfl
@[simp] theorem setLease_cores (s : State) (k : Nat) (x : Lease) : (s.setLease k x).cores = s.cores := rfl
@[simp] theorem setLease_gangOf (s : State) (k : Nat) (x : Lease) (i : Nat) : (s.setLease k x).gang? i = s.gang? i := rfl
@[simp] theorem setLease_teamOf (s : State) (k : Nat) (x : Lease) (i : Nat) : (s.setLease k x).team? i = s.team? i := rfl
@[simp] theorem setLease_launchOf (s : State) (k : Nat) (x : Lease) (i : Nat) : (s.setLease k x).launch? i = s.launch? i := rfl
@[simp] theorem setLease_coreOf (s : State) (k : Nat) (x : Lease) (i : Nat) : (s.setLease k x).core i = s.core i := rfl
@[simp] theorem setLease_quadOf (s : State) (k : Nat) (x : Lease) (i : Nat) : (s.setLease k x).quad i = s.quad i := rfl
@[simp] theorem setLease_tenantOfOf (s : State) (k : Nat) (x : Lease) (i : Nat) : (s.setLease k x).tenantOf i = s.tenantOf i := rfl
@[simp] theorem setLease_accessOf (s : State) (k : Nat) (x : Lease) (i : Nat) : (s.setLease k x).access? i = s.access? i := rfl

/-! ### setCore -/

@[simp] theorem setCore_tick (s : State) (k : Nat) (x : Core) : (s.setCore k x).tick = s.tick := rfl
@[simp] theorem setCore_cur (s : State) (k : Nat) (x : Core) : (s.setCore k x).cur = s.cur := rfl
@[simp] theorem setCore_inputs (s : State) (k : Nat) (x : Core) : (s.setCore k x).inputs = s.inputs := rfl
@[simp] theorem setCore_outbox (s : State) (k : Nat) (x : Core) : (s.setCore k x).outbox = s.outbox := rfl
@[simp] theorem setCore_nextId (s : State) (k : Nat) (x : Core) : (s.setCore k x).nextId = s.nextId := rfl
@[simp] theorem setCore_now (s : State) (k : Nat) (x : Core) : (s.setCore k x).now = s.now := rfl
@[simp] theorem setCore_mem (s : State) (k : Nat) (x : Core) : (s.setCore k x).mem = s.mem := rfl
@[simp] theorem setCore_host (s : State) (k : Nat) (x : Core) : (s.setCore k x).host = s.host := rfl
@[simp] theorem setCore_hostErrors (s : State) (k : Nat) (x : Core) : (s.setCore k x).hostErrors = s.hostErrors := rfl
@[simp] theorem setCore_badLines (s : State) (k : Nat) (x : Core) : (s.setCore k x).badLines = s.badLines := rfl
@[simp] theorem setCore_l2 (s : State) (k : Nat) (x : Core) : (s.setCore k x).l2 = s.l2 := rfl
@[simp] theorem setCore_sharers (s : State) (k : Nat) (x : Core) : (s.setCore k x).sharers = s.sharers := rfl
@[simp] theorem setCore_holders (s : State) (k : Nat) (x : Core) : (s.setCore k x).holders = s.holders := rfl
@[simp] theorem setCore_marks (s : State) (k : Nat) (x : Core) : (s.setCore k x).marks = s.marks := rfl
@[simp] theorem setCore_monRegs (s : State) (k : Nat) (x : Core) : (s.setCore k x).monRegs = s.monRegs := rfl
@[simp] theorem setCore_accesses (s : State) (k : Nat) (x : Core) : (s.setCore k x).accesses = s.accesses := rfl
@[simp] theorem setCore_syncs (s : State) (k : Nat) (x : Core) : (s.setCore k x).syncs = s.syncs := rfl
@[simp] theorem setCore_joinVcs (s : State) (k : Nat) (x : Core) : (s.setCore k x).joinVcs = s.joinVcs := rfl
@[simp] theorem setCore_fills (s : State) (k : Nat) (x : Core) : (s.setCore k x).fills = s.fills := rfl
@[simp] theorem setCore_buckets (s : State) (k : Nat) (x : Core) : (s.setCore k x).buckets = s.buckets := rfl
@[simp] theorem setCore_refillAt (s : State) (k : Nat) (x : Core) : (s.setCore k x).refillAt = s.refillAt := rfl
@[simp] theorem setCore_booted (s : State) (k : Nat) (x : Core) : (s.setCore k x).booted = s.booted := rfl
@[simp] theorem setCore_fields (s : State) (k : Nat) (x : Core) : (s.setCore k x).fields = s.fields := rfl
@[simp] theorem setCore_ownerTvec (s : State) (k : Nat) (x : Core) : (s.setCore k x).ownerTvec = s.ownerTvec := rfl
@[simp] theorem setCore_ownerFb (s : State) (k : Nat) (x : Core) : (s.setCore k x).ownerFb = s.ownerFb := rfl
@[simp] theorem setCore_peerLinks (s : State) (k : Nat) (x : Core) : (s.setCore k x).peerLinks = s.peerLinks := rfl
@[simp] theorem setCore_links (s : State) (k : Nat) (x : Core) : (s.setCore k x).links = s.links := rfl
@[simp] theorem setCore_failing (s : State) (k : Nat) (x : Core) : (s.setCore k x).failing = s.failing := rfl
@[simp] theorem setCore_versions (s : State) (k : Nat) (x : Core) : (s.setCore k x).versions = s.versions := rfl
@[simp] theorem setCore_fns (s : State) (k : Nat) (x : Core) : (s.setCore k x).fns = s.fns := rfl
@[simp] theorem setCore_quads (s : State) (k : Nat) (x : Core) : (s.setCore k x).quads = s.quads := rfl
@[simp] theorem setCore_leases (s : State) (k : Nat) (x : Core) : (s.setCore k x).leases = s.leases := rfl
@[simp] theorem setCore_tenants (s : State) (k : Nat) (x : Core) : (s.setCore k x).tenants = s.tenants := rfl
@[simp] theorem setCore_launches (s : State) (k : Nat) (x : Core) : (s.setCore k x).launches = s.launches := rfl
@[simp] theorem setCore_teams (s : State) (k : Nat) (x : Core) : (s.setCore k x).teams = s.teams := rfl
@[simp] theorem setCore_gangs (s : State) (k : Nat) (x : Core) : (s.setCore k x).gangs = s.gangs := rfl
@[simp] theorem setCore_gangOf (s : State) (k : Nat) (x : Core) (i : Nat) : (s.setCore k x).gang? i = s.gang? i := rfl
@[simp] theorem setCore_teamOf (s : State) (k : Nat) (x : Core) (i : Nat) : (s.setCore k x).team? i = s.team? i := rfl
@[simp] theorem setCore_launchOf (s : State) (k : Nat) (x : Core) (i : Nat) : (s.setCore k x).launch? i = s.launch? i := rfl
@[simp] theorem setCore_leaseOf (s : State) (k : Nat) (x : Core) (i : Nat) : (s.setCore k x).lease? i = s.lease? i := rfl
@[simp] theorem setCore_quadOf (s : State) (k : Nat) (x : Core) (i : Nat) : (s.setCore k x).quad i = s.quad i := rfl
@[simp] theorem setCore_tenantOfOf (s : State) (k : Nat) (x : Core) (i : Nat) : (s.setCore k x).tenantOf i = s.tenantOf i := rfl
@[simp] theorem setCore_accessOf (s : State) (k : Nat) (x : Core) (i : Nat) : (s.setCore k x).access? i = s.access? i := rfl

/-! ### setQuad -/

@[simp] theorem setQuad_tick (s : State) (k : Nat) (x : Quad) : (s.setQuad k x).tick = s.tick := rfl
@[simp] theorem setQuad_cur (s : State) (k : Nat) (x : Quad) : (s.setQuad k x).cur = s.cur := rfl
@[simp] theorem setQuad_inputs (s : State) (k : Nat) (x : Quad) : (s.setQuad k x).inputs = s.inputs := rfl
@[simp] theorem setQuad_outbox (s : State) (k : Nat) (x : Quad) : (s.setQuad k x).outbox = s.outbox := rfl
@[simp] theorem setQuad_nextId (s : State) (k : Nat) (x : Quad) : (s.setQuad k x).nextId = s.nextId := rfl
@[simp] theorem setQuad_now (s : State) (k : Nat) (x : Quad) : (s.setQuad k x).now = s.now := rfl
@[simp] theorem setQuad_mem (s : State) (k : Nat) (x : Quad) : (s.setQuad k x).mem = s.mem := rfl
@[simp] theorem setQuad_host (s : State) (k : Nat) (x : Quad) : (s.setQuad k x).host = s.host := rfl
@[simp] theorem setQuad_hostErrors (s : State) (k : Nat) (x : Quad) : (s.setQuad k x).hostErrors = s.hostErrors := rfl
@[simp] theorem setQuad_badLines (s : State) (k : Nat) (x : Quad) : (s.setQuad k x).badLines = s.badLines := rfl
@[simp] theorem setQuad_l2 (s : State) (k : Nat) (x : Quad) : (s.setQuad k x).l2 = s.l2 := rfl
@[simp] theorem setQuad_sharers (s : State) (k : Nat) (x : Quad) : (s.setQuad k x).sharers = s.sharers := rfl
@[simp] theorem setQuad_holders (s : State) (k : Nat) (x : Quad) : (s.setQuad k x).holders = s.holders := rfl
@[simp] theorem setQuad_marks (s : State) (k : Nat) (x : Quad) : (s.setQuad k x).marks = s.marks := rfl
@[simp] theorem setQuad_monRegs (s : State) (k : Nat) (x : Quad) : (s.setQuad k x).monRegs = s.monRegs := rfl
@[simp] theorem setQuad_accesses (s : State) (k : Nat) (x : Quad) : (s.setQuad k x).accesses = s.accesses := rfl
@[simp] theorem setQuad_syncs (s : State) (k : Nat) (x : Quad) : (s.setQuad k x).syncs = s.syncs := rfl
@[simp] theorem setQuad_joinVcs (s : State) (k : Nat) (x : Quad) : (s.setQuad k x).joinVcs = s.joinVcs := rfl
@[simp] theorem setQuad_fills (s : State) (k : Nat) (x : Quad) : (s.setQuad k x).fills = s.fills := rfl
@[simp] theorem setQuad_buckets (s : State) (k : Nat) (x : Quad) : (s.setQuad k x).buckets = s.buckets := rfl
@[simp] theorem setQuad_refillAt (s : State) (k : Nat) (x : Quad) : (s.setQuad k x).refillAt = s.refillAt := rfl
@[simp] theorem setQuad_booted (s : State) (k : Nat) (x : Quad) : (s.setQuad k x).booted = s.booted := rfl
@[simp] theorem setQuad_fields (s : State) (k : Nat) (x : Quad) : (s.setQuad k x).fields = s.fields := rfl
@[simp] theorem setQuad_ownerTvec (s : State) (k : Nat) (x : Quad) : (s.setQuad k x).ownerTvec = s.ownerTvec := rfl
@[simp] theorem setQuad_ownerFb (s : State) (k : Nat) (x : Quad) : (s.setQuad k x).ownerFb = s.ownerFb := rfl
@[simp] theorem setQuad_peerLinks (s : State) (k : Nat) (x : Quad) : (s.setQuad k x).peerLinks = s.peerLinks := rfl
@[simp] theorem setQuad_links (s : State) (k : Nat) (x : Quad) : (s.setQuad k x).links = s.links := rfl
@[simp] theorem setQuad_failing (s : State) (k : Nat) (x : Quad) : (s.setQuad k x).failing = s.failing := rfl
@[simp] theorem setQuad_versions (s : State) (k : Nat) (x : Quad) : (s.setQuad k x).versions = s.versions := rfl
@[simp] theorem setQuad_fns (s : State) (k : Nat) (x : Quad) : (s.setQuad k x).fns = s.fns := rfl
@[simp] theorem setQuad_leases (s : State) (k : Nat) (x : Quad) : (s.setQuad k x).leases = s.leases := rfl
@[simp] theorem setQuad_tenants (s : State) (k : Nat) (x : Quad) : (s.setQuad k x).tenants = s.tenants := rfl
@[simp] theorem setQuad_launches (s : State) (k : Nat) (x : Quad) : (s.setQuad k x).launches = s.launches := rfl
@[simp] theorem setQuad_teams (s : State) (k : Nat) (x : Quad) : (s.setQuad k x).teams = s.teams := rfl
@[simp] theorem setQuad_gangs (s : State) (k : Nat) (x : Quad) : (s.setQuad k x).gangs = s.gangs := rfl
@[simp] theorem setQuad_cores (s : State) (k : Nat) (x : Quad) : (s.setQuad k x).cores = s.cores := rfl
@[simp] theorem setQuad_gangOf (s : State) (k : Nat) (x : Quad) (i : Nat) : (s.setQuad k x).gang? i = s.gang? i := rfl
@[simp] theorem setQuad_teamOf (s : State) (k : Nat) (x : Quad) (i : Nat) : (s.setQuad k x).team? i = s.team? i := rfl
@[simp] theorem setQuad_launchOf (s : State) (k : Nat) (x : Quad) (i : Nat) : (s.setQuad k x).launch? i = s.launch? i := rfl
@[simp] theorem setQuad_leaseOf (s : State) (k : Nat) (x : Quad) (i : Nat) : (s.setQuad k x).lease? i = s.lease? i := rfl
@[simp] theorem setQuad_coreOf (s : State) (k : Nat) (x : Quad) (i : Nat) : (s.setQuad k x).core i = s.core i := rfl
@[simp] theorem setQuad_tenantOfOf (s : State) (k : Nat) (x : Quad) (i : Nat) : (s.setQuad k x).tenantOf i = s.tenantOf i := rfl
@[simp] theorem setQuad_accessOf (s : State) (k : Nat) (x : Quad) (i : Nat) : (s.setQuad k x).access? i = s.access? i := rfl

/-! ### setTenant -/

@[simp] theorem setTenant_tick (s : State) (k : Nat) (x : Tenant) : (s.setTenant k x).tick = s.tick := rfl
@[simp] theorem setTenant_cur (s : State) (k : Nat) (x : Tenant) : (s.setTenant k x).cur = s.cur := rfl
@[simp] theorem setTenant_inputs (s : State) (k : Nat) (x : Tenant) : (s.setTenant k x).inputs = s.inputs := rfl
@[simp] theorem setTenant_outbox (s : State) (k : Nat) (x : Tenant) : (s.setTenant k x).outbox = s.outbox := rfl
@[simp] theorem setTenant_nextId (s : State) (k : Nat) (x : Tenant) : (s.setTenant k x).nextId = s.nextId := rfl
@[simp] theorem setTenant_now (s : State) (k : Nat) (x : Tenant) : (s.setTenant k x).now = s.now := rfl
@[simp] theorem setTenant_mem (s : State) (k : Nat) (x : Tenant) : (s.setTenant k x).mem = s.mem := rfl
@[simp] theorem setTenant_host (s : State) (k : Nat) (x : Tenant) : (s.setTenant k x).host = s.host := rfl
@[simp] theorem setTenant_hostErrors (s : State) (k : Nat) (x : Tenant) : (s.setTenant k x).hostErrors = s.hostErrors := rfl
@[simp] theorem setTenant_badLines (s : State) (k : Nat) (x : Tenant) : (s.setTenant k x).badLines = s.badLines := rfl
@[simp] theorem setTenant_l2 (s : State) (k : Nat) (x : Tenant) : (s.setTenant k x).l2 = s.l2 := rfl
@[simp] theorem setTenant_sharers (s : State) (k : Nat) (x : Tenant) : (s.setTenant k x).sharers = s.sharers := rfl
@[simp] theorem setTenant_holders (s : State) (k : Nat) (x : Tenant) : (s.setTenant k x).holders = s.holders := rfl
@[simp] theorem setTenant_marks (s : State) (k : Nat) (x : Tenant) : (s.setTenant k x).marks = s.marks := rfl
@[simp] theorem setTenant_monRegs (s : State) (k : Nat) (x : Tenant) : (s.setTenant k x).monRegs = s.monRegs := rfl
@[simp] theorem setTenant_accesses (s : State) (k : Nat) (x : Tenant) : (s.setTenant k x).accesses = s.accesses := rfl
@[simp] theorem setTenant_syncs (s : State) (k : Nat) (x : Tenant) : (s.setTenant k x).syncs = s.syncs := rfl
@[simp] theorem setTenant_joinVcs (s : State) (k : Nat) (x : Tenant) : (s.setTenant k x).joinVcs = s.joinVcs := rfl
@[simp] theorem setTenant_fills (s : State) (k : Nat) (x : Tenant) : (s.setTenant k x).fills = s.fills := rfl
@[simp] theorem setTenant_buckets (s : State) (k : Nat) (x : Tenant) : (s.setTenant k x).buckets = s.buckets := rfl
@[simp] theorem setTenant_refillAt (s : State) (k : Nat) (x : Tenant) : (s.setTenant k x).refillAt = s.refillAt := rfl
@[simp] theorem setTenant_booted (s : State) (k : Nat) (x : Tenant) : (s.setTenant k x).booted = s.booted := rfl
@[simp] theorem setTenant_fields (s : State) (k : Nat) (x : Tenant) : (s.setTenant k x).fields = s.fields := rfl
@[simp] theorem setTenant_ownerTvec (s : State) (k : Nat) (x : Tenant) : (s.setTenant k x).ownerTvec = s.ownerTvec := rfl
@[simp] theorem setTenant_ownerFb (s : State) (k : Nat) (x : Tenant) : (s.setTenant k x).ownerFb = s.ownerFb := rfl
@[simp] theorem setTenant_peerLinks (s : State) (k : Nat) (x : Tenant) : (s.setTenant k x).peerLinks = s.peerLinks := rfl
@[simp] theorem setTenant_links (s : State) (k : Nat) (x : Tenant) : (s.setTenant k x).links = s.links := rfl
@[simp] theorem setTenant_failing (s : State) (k : Nat) (x : Tenant) : (s.setTenant k x).failing = s.failing := rfl
@[simp] theorem setTenant_versions (s : State) (k : Nat) (x : Tenant) : (s.setTenant k x).versions = s.versions := rfl
@[simp] theorem setTenant_fns (s : State) (k : Nat) (x : Tenant) : (s.setTenant k x).fns = s.fns := rfl
@[simp] theorem setTenant_quads (s : State) (k : Nat) (x : Tenant) : (s.setTenant k x).quads = s.quads := rfl
@[simp] theorem setTenant_leases (s : State) (k : Nat) (x : Tenant) : (s.setTenant k x).leases = s.leases := rfl
@[simp] theorem setTenant_launches (s : State) (k : Nat) (x : Tenant) : (s.setTenant k x).launches = s.launches := rfl
@[simp] theorem setTenant_teams (s : State) (k : Nat) (x : Tenant) : (s.setTenant k x).teams = s.teams := rfl
@[simp] theorem setTenant_gangs (s : State) (k : Nat) (x : Tenant) : (s.setTenant k x).gangs = s.gangs := rfl
@[simp] theorem setTenant_cores (s : State) (k : Nat) (x : Tenant) : (s.setTenant k x).cores = s.cores := rfl
@[simp] theorem setTenant_gangOf (s : State) (k : Nat) (x : Tenant) (i : Nat) : (s.setTenant k x).gang? i = s.gang? i := rfl
@[simp] theorem setTenant_teamOf (s : State) (k : Nat) (x : Tenant) (i : Nat) : (s.setTenant k x).team? i = s.team? i := rfl
@[simp] theorem setTenant_launchOf (s : State) (k : Nat) (x : Tenant) (i : Nat) : (s.setTenant k x).launch? i = s.launch? i := rfl
@[simp] theorem setTenant_leaseOf (s : State) (k : Nat) (x : Tenant) (i : Nat) : (s.setTenant k x).lease? i = s.lease? i := rfl
@[simp] theorem setTenant_coreOf (s : State) (k : Nat) (x : Tenant) (i : Nat) : (s.setTenant k x).core i = s.core i := rfl
@[simp] theorem setTenant_quadOf (s : State) (k : Nat) (x : Tenant) (i : Nat) : (s.setTenant k x).quad i = s.quad i := rfl
@[simp] theorem setTenant_accessOf (s : State) (k : Nat) (x : Tenant) (i : Nat) : (s.setTenant k x).access? i = s.access? i := rfl

/-! ### setAccess -/

@[simp] theorem setAccess_tick (s : State) (k : Nat) (x : Access) : (s.setAccess k x).tick = s.tick := rfl
@[simp] theorem setAccess_cur (s : State) (k : Nat) (x : Access) : (s.setAccess k x).cur = s.cur := rfl
@[simp] theorem setAccess_inputs (s : State) (k : Nat) (x : Access) : (s.setAccess k x).inputs = s.inputs := rfl
@[simp] theorem setAccess_outbox (s : State) (k : Nat) (x : Access) : (s.setAccess k x).outbox = s.outbox := rfl
@[simp] theorem setAccess_nextId (s : State) (k : Nat) (x : Access) : (s.setAccess k x).nextId = s.nextId := rfl
@[simp] theorem setAccess_now (s : State) (k : Nat) (x : Access) : (s.setAccess k x).now = s.now := rfl
@[simp] theorem setAccess_mem (s : State) (k : Nat) (x : Access) : (s.setAccess k x).mem = s.mem := rfl
@[simp] theorem setAccess_host (s : State) (k : Nat) (x : Access) : (s.setAccess k x).host = s.host := rfl
@[simp] theorem setAccess_hostErrors (s : State) (k : Nat) (x : Access) : (s.setAccess k x).hostErrors = s.hostErrors := rfl
@[simp] theorem setAccess_badLines (s : State) (k : Nat) (x : Access) : (s.setAccess k x).badLines = s.badLines := rfl
@[simp] theorem setAccess_l2 (s : State) (k : Nat) (x : Access) : (s.setAccess k x).l2 = s.l2 := rfl
@[simp] theorem setAccess_sharers (s : State) (k : Nat) (x : Access) : (s.setAccess k x).sharers = s.sharers := rfl
@[simp] theorem setAccess_holders (s : State) (k : Nat) (x : Access) : (s.setAccess k x).holders = s.holders := rfl
@[simp] theorem setAccess_marks (s : State) (k : Nat) (x : Access) : (s.setAccess k x).marks = s.marks := rfl
@[simp] theorem setAccess_monRegs (s : State) (k : Nat) (x : Access) : (s.setAccess k x).monRegs = s.monRegs := rfl
@[simp] theorem setAccess_syncs (s : State) (k : Nat) (x : Access) : (s.setAccess k x).syncs = s.syncs := rfl
@[simp] theorem setAccess_joinVcs (s : State) (k : Nat) (x : Access) : (s.setAccess k x).joinVcs = s.joinVcs := rfl
@[simp] theorem setAccess_fills (s : State) (k : Nat) (x : Access) : (s.setAccess k x).fills = s.fills := rfl
@[simp] theorem setAccess_buckets (s : State) (k : Nat) (x : Access) : (s.setAccess k x).buckets = s.buckets := rfl
@[simp] theorem setAccess_refillAt (s : State) (k : Nat) (x : Access) : (s.setAccess k x).refillAt = s.refillAt := rfl
@[simp] theorem setAccess_booted (s : State) (k : Nat) (x : Access) : (s.setAccess k x).booted = s.booted := rfl
@[simp] theorem setAccess_fields (s : State) (k : Nat) (x : Access) : (s.setAccess k x).fields = s.fields := rfl
@[simp] theorem setAccess_ownerTvec (s : State) (k : Nat) (x : Access) : (s.setAccess k x).ownerTvec = s.ownerTvec := rfl
@[simp] theorem setAccess_ownerFb (s : State) (k : Nat) (x : Access) : (s.setAccess k x).ownerFb = s.ownerFb := rfl
@[simp] theorem setAccess_peerLinks (s : State) (k : Nat) (x : Access) : (s.setAccess k x).peerLinks = s.peerLinks := rfl
@[simp] theorem setAccess_links (s : State) (k : Nat) (x : Access) : (s.setAccess k x).links = s.links := rfl
@[simp] theorem setAccess_failing (s : State) (k : Nat) (x : Access) : (s.setAccess k x).failing = s.failing := rfl
@[simp] theorem setAccess_versions (s : State) (k : Nat) (x : Access) : (s.setAccess k x).versions = s.versions := rfl
@[simp] theorem setAccess_fns (s : State) (k : Nat) (x : Access) : (s.setAccess k x).fns = s.fns := rfl
@[simp] theorem setAccess_quads (s : State) (k : Nat) (x : Access) : (s.setAccess k x).quads = s.quads := rfl
@[simp] theorem setAccess_leases (s : State) (k : Nat) (x : Access) : (s.setAccess k x).leases = s.leases := rfl
@[simp] theorem setAccess_tenants (s : State) (k : Nat) (x : Access) : (s.setAccess k x).tenants = s.tenants := rfl
@[simp] theorem setAccess_launches (s : State) (k : Nat) (x : Access) : (s.setAccess k x).launches = s.launches := rfl
@[simp] theorem setAccess_teams (s : State) (k : Nat) (x : Access) : (s.setAccess k x).teams = s.teams := rfl
@[simp] theorem setAccess_gangs (s : State) (k : Nat) (x : Access) : (s.setAccess k x).gangs = s.gangs := rfl
@[simp] theorem setAccess_cores (s : State) (k : Nat) (x : Access) : (s.setAccess k x).cores = s.cores := rfl
@[simp] theorem setAccess_gangOf (s : State) (k : Nat) (x : Access) (i : Nat) : (s.setAccess k x).gang? i = s.gang? i := rfl
@[simp] theorem setAccess_teamOf (s : State) (k : Nat) (x : Access) (i : Nat) : (s.setAccess k x).team? i = s.team? i := rfl
@[simp] theorem setAccess_launchOf (s : State) (k : Nat) (x : Access) (i : Nat) : (s.setAccess k x).launch? i = s.launch? i := rfl
@[simp] theorem setAccess_leaseOf (s : State) (k : Nat) (x : Access) (i : Nat) : (s.setAccess k x).lease? i = s.lease? i := rfl
@[simp] theorem setAccess_coreOf (s : State) (k : Nat) (x : Access) (i : Nat) : (s.setAccess k x).core i = s.core i := rfl
@[simp] theorem setAccess_quadOf (s : State) (k : Nat) (x : Access) (i : Nat) : (s.setAccess k x).quad i = s.quad i := rfl
@[simp] theorem setAccess_tenantOfOf (s : State) (k : Nat) (x : Access) (i : Nat) : (s.setAccess k x).tenantOf i = s.tenantOf i := rfl

/-! ### dropAccess -/

@[simp] theorem dropAccess_tick (s : State) (k : Nat) : (s.dropAccess k).tick = s.tick := rfl
@[simp] theorem dropAccess_cur (s : State) (k : Nat) : (s.dropAccess k).cur = s.cur := rfl
@[simp] theorem dropAccess_inputs (s : State) (k : Nat) : (s.dropAccess k).inputs = s.inputs := rfl
@[simp] theorem dropAccess_outbox (s : State) (k : Nat) : (s.dropAccess k).outbox = s.outbox := rfl
@[simp] theorem dropAccess_nextId (s : State) (k : Nat) : (s.dropAccess k).nextId = s.nextId := rfl
@[simp] theorem dropAccess_now (s : State) (k : Nat) : (s.dropAccess k).now = s.now := rfl
@[simp] theorem dropAccess_mem (s : State) (k : Nat) : (s.dropAccess k).mem = s.mem := rfl
@[simp] theorem dropAccess_host (s : State) (k : Nat) : (s.dropAccess k).host = s.host := rfl
@[simp] theorem dropAccess_hostErrors (s : State) (k : Nat) : (s.dropAccess k).hostErrors = s.hostErrors := rfl
@[simp] theorem dropAccess_badLines (s : State) (k : Nat) : (s.dropAccess k).badLines = s.badLines := rfl
@[simp] theorem dropAccess_l2 (s : State) (k : Nat) : (s.dropAccess k).l2 = s.l2 := rfl
@[simp] theorem dropAccess_sharers (s : State) (k : Nat) : (s.dropAccess k).sharers = s.sharers := rfl
@[simp] theorem dropAccess_holders (s : State) (k : Nat) : (s.dropAccess k).holders = s.holders := rfl
@[simp] theorem dropAccess_marks (s : State) (k : Nat) : (s.dropAccess k).marks = s.marks := rfl
@[simp] theorem dropAccess_monRegs (s : State) (k : Nat) : (s.dropAccess k).monRegs = s.monRegs := rfl
@[simp] theorem dropAccess_syncs (s : State) (k : Nat) : (s.dropAccess k).syncs = s.syncs := rfl
@[simp] theorem dropAccess_joinVcs (s : State) (k : Nat) : (s.dropAccess k).joinVcs = s.joinVcs := rfl
@[simp] theorem dropAccess_fills (s : State) (k : Nat) : (s.dropAccess k).fills = s.fills := rfl
@[simp] theorem dropAccess_buckets (s : State) (k : Nat) : (s.dropAccess k).buckets = s.buckets := rfl
@[simp] theorem dropAccess_refillAt (s : State) (k : Nat) : (s.dropAccess k).refillAt = s.refillAt := rfl
@[simp] theorem dropAccess_booted (s : State) (k : Nat) : (s.dropAccess k).booted = s.booted := rfl
@[simp] theorem dropAccess_fields (s : State) (k : Nat) : (s.dropAccess k).fields = s.fields := rfl
@[simp] theorem dropAccess_ownerTvec (s : State) (k : Nat) : (s.dropAccess k).ownerTvec = s.ownerTvec := rfl
@[simp] theorem dropAccess_ownerFb (s : State) (k : Nat) : (s.dropAccess k).ownerFb = s.ownerFb := rfl
@[simp] theorem dropAccess_peerLinks (s : State) (k : Nat) : (s.dropAccess k).peerLinks = s.peerLinks := rfl
@[simp] theorem dropAccess_links (s : State) (k : Nat) : (s.dropAccess k).links = s.links := rfl
@[simp] theorem dropAccess_failing (s : State) (k : Nat) : (s.dropAccess k).failing = s.failing := rfl
@[simp] theorem dropAccess_versions (s : State) (k : Nat) : (s.dropAccess k).versions = s.versions := rfl
@[simp] theorem dropAccess_fns (s : State) (k : Nat) : (s.dropAccess k).fns = s.fns := rfl
@[simp] theorem dropAccess_quads (s : State) (k : Nat) : (s.dropAccess k).quads = s.quads := rfl
@[simp] theorem dropAccess_leases (s : State) (k : Nat) : (s.dropAccess k).leases = s.leases := rfl
@[simp] theorem dropAccess_tenants (s : State) (k : Nat) : (s.dropAccess k).tenants = s.tenants := rfl
@[simp] theorem dropAccess_launches (s : State) (k : Nat) : (s.dropAccess k).launches = s.launches := rfl
@[simp] theorem dropAccess_teams (s : State) (k : Nat) : (s.dropAccess k).teams = s.teams := rfl
@[simp] theorem dropAccess_gangs (s : State) (k : Nat) : (s.dropAccess k).gangs = s.gangs := rfl
@[simp] theorem dropAccess_cores (s : State) (k : Nat) : (s.dropAccess k).cores = s.cores := rfl
@[simp] theorem dropAccess_gangOf (s : State) (k : Nat) (i : Nat) : (s.dropAccess k).gang? i = s.gang? i := rfl
@[simp] theorem dropAccess_teamOf (s : State) (k : Nat) (i : Nat) : (s.dropAccess k).team? i = s.team? i := rfl
@[simp] theorem dropAccess_launchOf (s : State) (k : Nat) (i : Nat) : (s.dropAccess k).launch? i = s.launch? i := rfl
@[simp] theorem dropAccess_leaseOf (s : State) (k : Nat) (i : Nat) : (s.dropAccess k).lease? i = s.lease? i := rfl
@[simp] theorem dropAccess_coreOf (s : State) (k : Nat) (i : Nat) : (s.dropAccess k).core i = s.core i := rfl
@[simp] theorem dropAccess_quadOf (s : State) (k : Nat) (i : Nat) : (s.dropAccess k).quad i = s.quad i := rfl
@[simp] theorem dropAccess_tenantOfOf (s : State) (k : Nat) (i : Nat) : (s.dropAccess k).tenantOf i = s.tenantOf i := rfl

/-! ### Reading a part that was set -/

@[simp] theorem setGang_gang (s : State) (k : Nat) (x : Gang) (i : Nat) :
    (s.setGang k x).gang? i = if i = k then some x else s.gang? i := assocGet?_assocSet _ _ _ _

@[simp] theorem setTeam_team (s : State) (k : Nat) (x : Team) (i : Nat) :
    (s.setTeam k x).team? i = if i = k then some x else s.team? i := assocGet?_assocSet _ _ _ _

@[simp] theorem setLaunch_launch (s : State) (k : Nat) (x : Launch) (i : Nat) :
    (s.setLaunch k x).launch? i = if i = k then some x else s.launch? i := assocGet?_assocSet _ _ _ _

@[simp] theorem setLease_lease (s : State) (k : Nat) (x : Lease) (i : Nat) :
    (s.setLease k x).lease? i = if i = k then some x else s.lease? i := assocGet?_assocSet _ _ _ _

@[simp] theorem setAccess_access (s : State) (k : Nat) (x : Access) (i : Nat) :
    (s.setAccess k x).access? i = if i = k then some x else s.access? i := assocGet?_assocSet _ _ _ _

@[simp] theorem dropAccess_access (s : State) (k i : Nat) :
    (s.dropAccess k).access? i = if i = k then none else s.access? i := by
  show assocGet? (assocErase s.accesses k) i = _
  split
  · rename_i h
    subst h
    exact assocGet?_assocErase_self _ _
  · exact assocGet?_assocErase_ne _ ‹_›

theorem getD_ite {α : Type} (p : Prop) [Decidable p] (x : α) (y : Option α) (d : α) :
    (if p then some x else y).getD d = if p then x else y.getD d := by split <;> rfl

@[simp] theorem setCore_core (s : State) (k : Nat) (x : Core) (i : Nat) :
    (s.setCore k x).core i = if i = k then x else s.core i := by
  show (assocGet? (assocSet s.cores k x) i).getD {} = _
  rw [assocGet?_assocSet, getD_ite]
  rfl

@[simp] theorem setQuad_quad (s : State) (k : Nat) (x : Quad) (i : Nat) :
    (s.setQuad k x).quad i = if i = k then x else s.quad i := by
  show (assocGet? (assocSet s.quads k x) i).getD {} = _
  rw [assocGet?_assocSet, getD_ite]
  rfl

@[simp] theorem setTenant_tenant (s : State) (k : Nat) (x : Tenant) (i : Nat) :
    (s.setTenant k x).tenantOf i = if i = k then x else s.tenantOf i := by
  show (assocGet? (assocSet s.tenants k x) i).getD {} = _
  rw [assocGet?_assocSet, getD_ite]
  rfl

/-! ### Changes of a part -/

theorem onGang_eq (s : State) (k : Nat) (f : Gang → Gang) {g : Gang} (h : s.gang? k = some g) :
    s.onGang k f = s.setGang k (f g) := by simp [State.onGang, h]

theorem onGang_none (s : State) (k : Nat) (f : Gang → Gang) (h : s.gang? k = none) : s.onGang k f = s := by
  simp [State.onGang, h]

theorem onTeam_eq (s : State) (k : Nat) (f : Team → Team) {x : Team} (h : s.team? k = some x) :
    s.onTeam k f = s.setTeam k (f x) := by simp [State.onTeam, h]

theorem onTenant_eq (s : State) (k : Nat) (f : Tenant → Tenant) {x : Tenant} (h : assocGet? s.tenants k = some x) :
    s.onTenant k f = s.setTenant k (f x) := by simp [State.onTenant, h]

/-- What a change of one gang does: every gang but that one is as it was. -/
theorem onGang_gang (s : State) (k i : Nat) (f : Gang → Gang) :
    (s.onGang k f).gang? i = if i = k then (s.gang? i).map f else s.gang? i := by
  cases h : s.gang? k with
  | none =>
    rw [onGang_none s k f h]
    split
    · rename_i e
      subst e
      simp [h]
    · rfl
  | some g =>
    rw [onGang_eq s k f h, setGang_gang]
    split
    · rename_i e
      subst e
      simp [h]
    · rfl

end Sys2Proof.Machine
end

