-- ==== Sys2Proof/Laws/Words.lean ====
section
/-! SUPPORT. What a word of the acting cohort does: it issues, its results become outstanding, and the cohort goes on;
each of these is a step inside one gang. -/
namespace Sys2Proof.Machine

/-! ### Lanes -/

theorem mapLanesFrom_getD (m : Mask) (f : Nat → Lane → Lane) (d : Lane) (i : Nat) (xs : List Lane) (l : Nat) :
    (mapLanesFrom m f i xs).getD l d =
      if l < xs.length ∧ m.getLsbD (i + l) = true then f (i + l) (xs.getD l d) else xs.getD l d := by
  induction xs generalizing i l with
  | nil => simp [mapLanesFrom]
  | cons x xs ih =>
    cases l with
    | zero => by_cases h : m.getLsbD i = true <;> simp [mapLanesFrom, h]
    | succ l =>
      simp only [mapLanesFrom, List.getD_cons_succ, ih, List.length_cons, Nat.add_lt_add_iff_right]
      rw [show i + 1 + l = i + (l + 1) by omega]

/-- A lane after a change of the lanes of a mask. -/
theorem mapLanes_lane (g : Gang) (m : Mask) (f : Nat → Lane → Lane) (l : Nat) :
    (g.mapLanes m f).lane l = if l < g.lanes.length ∧ m.getLsbD l = true then f l (g.lane l) else g.lane l := by
  simpa [Gang.mapLanes, Gang.lane] using mapLanesFrom_getD m f noLane 0 g.lanes l

@[simp] theorem mapLanesFrom_length (m : Mask) (f : Nat → Lane → Lane) (i : Nat) (xs : List Lane) :
    (mapLanesFrom m f i xs).length = xs.length := by
  induction xs generalizing i with
  | nil => rfl
  | cons x xs ih => simp [mapLanesFrom, ih]

theorem sameBut_refl (x : Lane) : x.sameBut x := rfl

theorem sameBut_trans {x y z : Lane} (h : x.sameBut y) (k : y.sameBut z) : x.sameBut z := by
  unfold Lane.sameBut at *
  rw [← h, ← k]

/-! ### Steps inside a gang -/

/-- A change of a gang that a `GangStep` allows. -/
structure GangKeeps (g h : Gang) : Prop where
  lanes : ∀ l, (g.lane l).sameBut (h.lane l)
  frames : h.frames = g.frames
  stack : h.stack = g.stack
  gone : h.gone = g.gone
  arrived : h.arrived = g.arrived
  due : h.due = g.due
  nregs : h.nregs = g.nregs
  width : h.width = g.width
  team : h.team = g.team
  core : h.core = g.core
  floors : h.floors = g.floors

theorem GangKeeps.refl (g : Gang) : GangKeeps g g :=
  ⟨fun _ => rfl, rfl, rfl, rfl, rfl, rfl, rfl, rfl, rfl, rfl, rfl⟩

theorem GangKeeps.trans {g h k : Gang} (x : GangKeeps g h) (y : GangKeeps h k) : GangKeeps g k :=
  ⟨fun l => sameBut_trans (x.lanes l) (y.lanes l), y.frames.trans x.frames, y.stack.trans x.stack, y.gone.trans x.gone,
    y.arrived.trans x.arrived, y.due.trans x.due, y.nregs.trans x.nregs, y.width.trans x.width, y.team.trans x.team,
    y.core.trans x.core, y.floors.trans x.floors⟩

theorem GangStep.refl (s : State) (k : Nat) : GangStep s s k :=
  ⟨rfl, fun _ => rfl, fun _ => rfl, fun _ _ => rfl, fun _ _ => rfl, fun _ _ => rfl, fun _ => rfl,
    fun g h => ⟨g, h, fun _ => rfl, rfl, rfl, rfl, rfl, rfl, rfl, rfl, rfl, rfl, rfl⟩⟩

/-- A `GangStep` leaves every field but three as it was. -/
theorem GangStep.eq {s t : State} {k : Nat} (h : GangStep s t k) :
    t = { s with gangs := t.gangs, nextId := t.nextId, tenants := t.tenants } := by
  have := h.rest
  cases s
  cases t
  simp only [State.mk.injEq] at this ⊢
  simp_all

theorem GangStep.cur {s t : State} {k : Nat} (h : GangStep s t k) : t.cur = s.cur := by rw [h.eq]
theorem GangStep.teams {s t : State} {k : Nat} (h : GangStep s t k) : t.teams = s.teams := by rw [h.eq]

theorem GangStep.keeps {s t : State} {k : Nat} (h : GangStep s t k) {g : Gang} (hg : s.gang? k = some g) :
    ∃ g', t.gang? k = some g' ∧ GangKeeps g g' := by
  obtain ⟨g', h1, h2, h3, h4, h5, h6, h7, h8, h9, h10, h11, h12⟩ := h.lanes g hg
  exact ⟨g', h1, h2, h3, h4, h5, h6, h7, h8, h9, h10, h11, h12⟩

theorem GangStep.trans {s t u : State} {k : Nat} (h : GangStep s t k) (i : GangStep t u k) : GangStep s u k where
  rest := by
    have e := h.eq
    have f := i.eq
    rw [f, e]
  mem x := (i.mem x).trans (h.mem x)
  host x := (i.host x).trans (h.host x)
  abuf c x := (i.abuf c x).trans (h.abuf c x)
  wbuf c x := (i.wbuf c x).trans (h.wbuf c x)
  others j hj := (i.others j hj).trans (h.others j hj)
  tenants j := by rw [← h.tenants j, ← i.tenants j]
  lanes g hg := by
    obtain ⟨g1, e1, k1⟩ := h.keeps hg
    obtain ⟨g2, e2, k2⟩ := i.keeps e1
    obtain ⟨h2, h3, h4, h5, h6, h7, h8, h9, h10, h11, h12⟩ := k1.trans k2
    exact ⟨g2, e2, h2, h3, h4, h5, h6, h7, h8, h9, h10, h11, h12⟩

/-- A change of one gang that keeps its lanes, and a new supply of identifiers, is a step inside the gang. -/
theorem gangStep_onGang (s : State) (k n : Nat) (f : Gang → Gang) (hf : ∀ g, GangKeeps g (f g)) :
    GangStep s { s.onGang k f with nextId := n } k := by
  cases h : s.gang? k with
  | none =>
    rw [onGang_none s k f h]
    exact ⟨rfl, fun _ => rfl, fun _ => rfl, fun _ _ => rfl, fun _ _ => rfl, fun _ _ => rfl, fun _ => rfl,
      fun g hg => by rw [h] at hg; cases hg⟩
  | some g =>
    rw [onGang_eq s k f h]
    refine ⟨rfl, fun _ => rfl, fun _ => rfl, fun _ _ => rfl, fun _ _ => rfl, fun j hj => ?_, fun _ => rfl,
      fun g' hg => ?_⟩
    · exact assocGet?_assocSet_ne _ _ hj
    · rw [h] at hg
      cases hg
      obtain ⟨h2, h3, h4, h5, h6, h7, h8, h9, h10, h11, h12⟩ := hf g
      exact ⟨f g, assocGet?_assocSet_self _ _ _, h2, h3, h4, h5, h6, h7, h8, h9, h10, h11, h12⟩

theorem gangStep_onGang' (s : State) (k : Nat) (f : Gang → Gang) (hf : ∀ g, GangKeeps g (f g)) :
    GangStep s (s.onGang k f) k := by
  have h := gangStep_onGang s k s.nextId f hf
  have e : { s.onGang k f with nextId := s.nextId } = s.onGang k f := by
    unfold State.onGang
    split <;> rfl
  rwa [e] at h

/-- Changing where lanes stand keeps a gang. -/
theorem gangKeeps_mapLanes (g : Gang) (m : Mask) (f : Nat → Lane → Lane) (hf : ∀ l x, Lane.sameBut x (f l x)) :
    GangKeeps g (g.mapLanes m f) := by
  refine ⟨fun l => ?_, rfl, rfl, rfl, rfl, rfl, rfl, rfl, rfl, rfl, rfl⟩
  rw [mapLanes_lane]
  split
  · exact hf l _
  · rfl

theorem gangStep_tally (s : State) (k part i n : Nat) : GangStep s (s.tally part i n) k := by
  unfold State.tally State.onTenant
  split
  · exact GangStep.refl s k
  · rename_i x hx
    refine ⟨rfl, fun _ => rfl, fun _ => rfl, fun _ _ => rfl, fun _ _ => rfl, fun _ _ => rfl, fun j => ?_,
      fun g hg => ⟨g, hg, fun _ => rfl, rfl, rfl, rfl, rfl, rfl, rfl, rfl, rfl, rfl, rfl⟩⟩
    rw [setTenant_tenant]
    split
    · rename_i e
      subst e
      have : s.tenantOf j = x := by simp [State.tenantOf, assocGet, hx]
      rw [this]
      by_cases hs : x.state = 3
      · simp only [if_pos hs]
      · simp only [if_neg hs]
    · rfl

theorem gangStep_issue (s : State) : GangStep s s.issue s.cur.1 := by
  unfold State.issue
  have h := gangStep_onGang' s s.cur.1 (fun g => { g with seq := g.seq + 1, lastIssue := s.now })
    (fun _ => ⟨fun _ => rfl, rfl, rfl, rfl, rfl, rfl, rfl, rfl, rfl, rfl, rfl⟩)
  cases s.acting with
  | none => exact h
  | some a => exact h.trans (gangStep_tally _ _ _ _ _)

theorem pend_keeps (l : Nat) (long isLoad pair : Bool) (ws : List (Nat × Option Word)) (n : Nat) (g : Gang) :
    GangKeeps g (g.pend n l long isLoad pair ws) := by
  induction ws generalizing n g with
  | nil => exact GangKeeps.refl g
  | cons w ws ih =>
    obtain ⟨r, v⟩ := w
    exact GangKeeps.trans (h := { g with results := g.results ++ [(n, ⟨l, r, g.seq, v, long, isLoad, pair, none⟩)] }) ⟨fun _ => rfl, rfl, rfl, rfl, rfl, rfl, rfl, rfl, rfl, rfl, rfl⟩ (ih (n + 1) _)

theorem gangStep_pendLane (s : State) (k l : Nat) (long : Bool) (ws : List (Nat × Word)) :
    GangStep s (s.pendLane k l long ws) k :=
  gangStep_onGang s k _ _ (fun g => pend_keeps l long false _ _ _ g)

theorem gangStep_foldl {α : Type} (k : Nat) (f : State → α → State) (hf : ∀ s x, GangStep s (f s x) k) (xs : List α)
    (s : State) : GangStep s (xs.foldl f s) k := by
  induction xs generalizing s with
  | nil => exact GangStep.refl s k
  | cons x xs ih => exact (hf s x).trans (ih (f s x))

theorem gangStep_onCohort (s : State) (f : Cohort → Cohort) : GangStep s (s.onCohort f) s.cur.1 := by
  refine gangStep_onGang' s _ _ (fun g => ?_)
  split
  · exact GangKeeps.refl g
  · exact ⟨fun _ => rfl, rfl, rfl, rfl, rfl, rfl, rfl, rfl, rfl, rfl, rfl⟩

theorem gangStep_endCohort (s : State) : GangStep s s.endCohort s.cur.1 :=
  gangStep_onGang' s _ _ (fun _ => ⟨fun _ => rfl, rfl, rfl, rfl, rfl, rfl, rfl, rfl, rfl, rfl, rfl⟩)

theorem gangStep_leave (s : State) (m : Mask) : GangStep s (s.leave m) s.cur.1 := by
  refine gangStep_onGang' s _ _ (fun g => ?_)
  split
  · exact GangKeeps.refl g
  · split <;> exact ⟨fun _ => rfl, rfl, rfl, rfl, rfl, rfl, rfl, rfl, rfl, rfl, rfl⟩

theorem gangStep_setPcs (s : State) (m : Mask) (pc : Nat → Pc) (rep : Nat) : GangStep s (s.setPcs m pc rep) s.cur.1 :=
  gangStep_onGang' s _ _ (fun g => gangKeeps_mapLanes g m _ (fun _ _ => rfl))

theorem gangStep_nextId (s : State) (k n : Nat) : GangStep s { s with nextId := n } k :=
  ⟨rfl, fun _ => rfl, fun _ => rfl, fun _ _ => rfl, fun _ _ => rfl, fun _ _ => rfl, fun _ => rfl,
    fun g hg => ⟨g, hg, fun _ => rfl, rfl, rfl, rfl, rfl, rfl, rfl, rfl, rfl, rfl, rfl⟩⟩

theorem gangStep_park (s : State) (m : Mask) (k : WaitKind) (next : Pc) (sw : Bool) :
    GangStep s (s.park m k next sw) s.cur.1 := by
  unfold State.park
  split
  · exact GangStep.refl s _
  · refine (gangStep_nextId s s.cur.1 (s.nextId + 1)).trans (gangStep_onGang' _ _ _ (fun g => ?_))
    obtain ⟨h2, h3, h4, h5, h6, h7, h8, h9, h10, h11, h12⟩ := gangKeeps_mapLanes g m
      (fun _ x => { x with parked := true, sw := sw }) (fun _ _ => rfl)
    exact ⟨h2, h3, h4, h5, h6, h7, h8, h9, h10, h11, h12⟩

/-- Steps of the acting gang compose: the acting cohort stays named. -/
theorem GangStep.next {s t u : State} {k : Nat} (h : GangStep s t k) (i : GangStep t u t.cur.1) (e : s.cur.1 = k) :
    GangStep s u k := h.trans (by rwa [h.cur, e] at i)

theorem gangStep_finishWord (s : State) (a : Acting) : GangStep s (s.finishWord a) s.cur.1 := by
  unfold State.finishWord
  have h := gangStep_setPcs s a.co.mask (fun _ => a.co.nextPc) 0
  dsimp only
  split
  · exact (h.next (gangStep_endCohort _) rfl).next (gangStep_park _ _ _ _ _) rfl
  · split
    · exact h.next (gangStep_onCohort _ _) rfl
    · exact h.next (gangStep_endCohort _) rfl

theorem gangStep_finish (s : State) : GangStep s s.finish s.cur.1 := by
  unfold State.finish State.act
  split
  · exact GangStep.refl s _
  · dsimp only
    split
    · split
      · exact (gangStep_onCohort s _).next (gangStep_setPcs _ _ _ _) rfl
      · exact gangStep_finishWord s _
    · exact gangStep_finishWord s _

/-! ### Results -/

/-- The number of words that a gang has issued and its outstanding results. -/
def State.resOf (s : State) (k : Nat) : Option (Nat × List (Nat × Pending)) := (s.gang? k).map (fun g => (g.seq, g.results))

theorem resOf_onGang (s : State) (k : Nat) (f : Gang → Gang) (hf : ∀ g, (f g).seq = g.seq ∧ (f g).results = g.results) :
    (s.onGang k f).resOf k = s.resOf k := by
  unfold State.resOf
  rw [onGang_gang]
  cases h : s.gang? k with
  | none => simp
  | some g => simp [hf g]

theorem resOf_park (s : State) (m : Mask) (w : WaitKind) (next : Pc) (sw : Bool) :
    (s.park m w next sw).resOf s.cur.1 = s.resOf s.cur.1 := by
  unfold State.park
  split
  · rfl
  · exact resOf_onGang { s with nextId := s.nextId + 1 } s.cur.1 _ (fun _ => ⟨rfl, rfl⟩)

theorem resOf_onCohort (s : State) (f : Cohort → Cohort) : (s.onCohort f).resOf s.cur.1 = s.resOf s.cur.1 :=
  resOf_onGang s _ _ (fun g => by split <;> exact ⟨rfl, rfl⟩)

theorem resOf_endCohort (s : State) : s.endCohort.resOf s.cur.1 = s.resOf s.cur.1 :=
  resOf_onGang s _ _ (fun _ => ⟨rfl, rfl⟩)

theorem resOf_setPcs (s : State) (m : Mask) (pc : Nat → Pc) (rep : Nat) :
    (s.setPcs m pc rep).resOf s.cur.1 = s.resOf s.cur.1 := resOf_onGang s _ _ (fun _ => ⟨rfl, rfl⟩)

theorem onGang_cur (s : State) (k : Nat) (f : Gang → Gang) : (s.onGang k f).cur = s.cur := by
  unfold State.onGang
  split <;> rfl

theorem setPcs_cur (s : State) (m : Mask) (pc : Nat → Pc) (rep : Nat) : (s.setPcs m pc rep).cur = s.cur :=
  onGang_cur _ _ _

theorem endCohort_cur (s : State) : s.endCohort.cur = s.cur := onGang_cur _ _ _

theorem onCohort_cur (s : State) (f : Cohort → Cohort) : (s.onCohort f).cur = s.cur := onGang_cur _ _ _

theorem resOf_finishWord (s : State) (a : Acting) : (s.finishWord a).resOf s.cur.1 = s.resOf s.cur.1 := by
  unfold State.finishWord
  have h := resOf_setPcs s a.co.mask (fun _ => a.co.nextPc) 0
  have c := setPcs_cur s a.co.mask (fun _ => a.co.nextPc) 0
  dsimp only
  split
  · have h2 := resOf_park (s.setPcs a.co.mask (fun _ => a.co.nextPc) 0).endCohort a.co.mask .switchPark a.co.nextPc false
    have h3 := resOf_endCohort (s.setPcs a.co.mask (fun _ => a.co.nextPc) 0)
    rw [endCohort_cur, c] at h2
    rw [c] at h3
    rw [h2, h3, h]
  · split
    · have h2 := resOf_onCohort (s.setPcs a.co.mask (fun _ => a.co.nextPc) 0)
        (fun c => { c with idx := c.idx + 1, rep := none, hold := false, done := 0, args := [], mark := 0, nextTry := 0 })
      rw [c] at h2
      rw [h2, h]
    · have h2 := resOf_endCohort (s.setPcs a.co.mask (fun _ => a.co.nextPc) 0)
      rw [c] at h2
      rw [h2, h]

theorem resOf_finish (s : State) : s.finish.resOf s.cur.1 = s.resOf s.cur.1 := by
  unfold State.finish State.act
  split
  · rfl
  · dsimp only
    split
    · split
      · rename_i r _ _
        have h := resOf_setPcs (s.onCohort (fun c => { c with
          rep := some { r with idx := r.idx + 1 }, hold := false, done := 0, args := [], mark := 0, nextTry := 0 }))
        rw [onCohort_cur] at h
        rw [h, resOf_onCohort]
      · exact resOf_finishWord s _
    · exact resOf_finishWord s _

/-- The gang of the acting cohort. -/
theorem acting_gang {s : State} {a : Acting} (h : s.acting = some a) :
    a.gid = s.cur.1 ∧ s.gang? a.gid = some a.gang ∧ assocGet? a.gang.cohorts s.cur.2 = some a.co ∧
      s.team? a.gang.team = some a.team := by
  unfold State.acting at h
  split at h
  · cases h
  · rename_i g hg
    split at h
    · rename_i c t hc ht
      cases h
      exact ⟨rfl, hg, hc, ht⟩
    · cases h

theorem tally_gang (s : State) (part i n k : Nat) : (s.tally part i n).gang? k = s.gang? k := by
  unfold State.tally State.onTenant
  split <;> rfl

/-- What `issue` does to the acting gang. -/
theorem issue_gang {s : State} {a : Acting} (h : s.acting = some a) :
    s.issue.gang? a.gid = some { a.gang with seq := a.gang.seq + 1, lastIssue := s.now } := by
  obtain ⟨e, hg, -, -⟩ := acting_gang h
  unfold State.issue
  rw [h]
  dsimp only
  rw [tally_gang, onGang_gang, ← e, if_pos rfl, hg]
  rfl

/-- What results a gang has after some are added. -/
theorem pend_results (l : Nat) (long isLoad pair : Bool) (ws : List (Nat × Option Word)) (n : Nat) (g : Gang) :
    (g.pend n l long isLoad pair ws).seq = g.seq ∧
    (∀ r ∈ g.results, r ∈ (g.pend n l long isLoad pair ws).results) ∧
    (∀ p ∈ ws, ∃ id, (id, (⟨l, p.1, g.seq, p.2, long, isLoad, pair, none⟩ : Pending)) ∈ (g.pend n l long isLoad pair ws).results) ∧
    (∀ r ∈ (g.pend n l long isLoad pair ws).results, r ∈ g.results ∨
      ∃ p ∈ ws, r.2 = (⟨l, p.1, g.seq, p.2, long, isLoad, pair, none⟩ : Pending)) := by
  induction ws generalizing n g with
  | nil => exact ⟨rfl, fun _ h => h, fun _ h => by simp at h, fun _ h => .inl h⟩
  | cons w ws ih =>
    obtain ⟨r, v⟩ := w
    obtain ⟨i1, i2, i3, i4⟩ := ih (n + 1) { g with results := g.results ++ [(n, ⟨l, r, g.seq, v, long, isLoad, pair, none⟩)] }
    refine ⟨i1, fun x hx => i2 x (List.mem_append_left _ hx), fun p hp => ?_, fun x hx => ?_⟩
    · rcases List.mem_cons.1 hp with e | hp
      · subst e
        exact ⟨n, i2 _ (List.mem_append_right _ (List.mem_singleton.2 rfl))⟩
      · exact i3 p hp
    · rcases i4 x hx with hx | ⟨p, hp, e⟩
      · rcases List.mem_append.1 hx with hx | hx
        · exact .inl hx
        · rw [List.mem_singleton.1 hx]
          exact .inr ⟨(r, v), List.mem_cons_self, rfl⟩
      · exact .inr ⟨p, List.mem_cons_of_mem _ hp, e⟩

/-- Results pushed for a list of lanes. -/
theorem pendLanes_results (k : Nat) (long : Bool) (ws : Nat → List (Nat × Word)) (ls : List Nat) (s : State) (g : Gang)
    (hg : s.gang? k = some g) :
    ∃ h, (ls.foldl (fun s l => s.pendLane k l long (ws l)) s).gang? k = some h ∧ h.seq = g.seq ∧
      (∀ r ∈ g.results, r ∈ h.results) ∧
      (∀ l ∈ ls, ∀ p ∈ ws l, ∃ id, (id, (⟨l, p.1, g.seq, some p.2, long, false, (ws l).length == 2, none⟩ : Pending)) ∈ h.results) ∧
      (∀ r ∈ h.results, r ∈ g.results ∨ ∃ l ∈ ls, ∃ p ∈ ws l, r.2 = (⟨l, p.1, g.seq, some p.2, long, false, (ws l).length == 2, none⟩ : Pending)) := by
  induction ls generalizing s g with
  | nil => exact ⟨g, hg, rfl, fun _ h => h, fun _ h => by simp at h, fun _ h => .inl h⟩
  | cons l ls ih =>
    have e : (s.pendLane k l long (ws l)).gang? k =
        some (g.pend s.nextId l long false ((ws l).length == 2) ((ws l).map (fun p => (p.1, some p.2)))) := by
      show (s.onGang k _).gang? k = _
      rw [onGang_gang, if_pos rfl, hg]
      rfl
    obtain ⟨p1, p2, p3, p4⟩ := pend_results l long false ((ws l).length == 2) ((ws l).map (fun p => (p.1, some p.2))) s.nextId g
    obtain ⟨h, h0, h1, h2, h3, h4⟩ := ih (s.pendLane k l long (ws l)) _ e
    refine ⟨h, h0, h1.trans p1, fun r hr => h2 r (p2 r hr), fun j hj p hp => ?_, fun r hr => ?_⟩
    · rcases List.mem_cons.1 hj with e | hj
      · subst e
        obtain ⟨id, hid⟩ := p3 (p.1, some p.2) (List.mem_map.2 ⟨p, hp, rfl⟩)
        exact ⟨id, h2 _ hid⟩
      · rw [← p1]
        exact h3 j hj p hp
    · rcases h4 r hr with hr | ⟨j, hj, p, hp, e⟩
      · rcases p4 r hr with hr | ⟨q, hq, e⟩
        · exact .inl hr
        · obtain ⟨p, hp, e'⟩ := List.mem_map.1 hq
          subst e'
          exact .inr ⟨l, List.mem_cons_self, p, hp, e⟩
      · rw [p1] at e
        exact .inr ⟨j, List.mem_cons_of_mem _ hj, p, hp, e⟩

theorem trapEach_nil (s : State) : s.trapEach [] = s := rfl

/-- A lane word of which no lane traps, as its three parts. -/
theorem laneWord_eq {s : State} {a : Acting} (h : s.acting = some a) (long : Bool) (f : Acting → Nat → LaneOut)
    (ws : Nat → List (Nat × Word)) (hf : ∀ l ∈ a.lanes, f a l = .regs (ws l)) :
    s.laneWord long f = (a.lanes.foldl (fun s l => s.pendLane a.gid l long (ws l)) s.issue).finish := by
  have e : a.lanes.map (fun l => (l, f a l)) = a.lanes.map (fun l => (l, LaneOut.regs (ws l))) :=
    List.map_congr_left (fun l hl => by rw [hf l hl])
  unfold State.laneWord State.act
  rw [h]
  dsimp only
  rw [e, List.filterMap_map, List.filterMap_map, List.foldl_map]
  simp [trapEach_nil]

/-- What a lane word does of which no lane traps. -/
theorem laneWord_gives {s : State} {a : Acting} (h : s.acting = some a) (long : Bool) (f : Acting → Nat → LaneOut)
    (ws : Nat → List (Nat × Word)) (hf : ∀ l ∈ a.lanes, f a l = .regs (ws l)) :
    GangStep s (s.laneWord long f) a.gid ∧ Wrote (s.laneWord long f) a ws := by
  obtain ⟨e, hg, -, -⟩ := acting_gang h
  rw [laneWord_eq h long f ws hf]
  have s1 := gangStep_issue s
  rw [← e] at s1
  have s2 := gangStep_foldl a.gid (fun s l => s.pendLane a.gid l long (ws l))
    (fun s l => gangStep_pendLane s a.gid l long (ws l)) a.lanes s.issue
  have s12 := s1.trans s2
  have c : (a.lanes.foldl (fun s l => s.pendLane a.gid l long (ws l)) s.issue).cur.1 = a.gid := by rw [s12.cur, e]
  have s3 := gangStep_finish (a.lanes.foldl (fun s l => s.pendLane a.gid l long (ws l)) s.issue)
  rw [c] at s3
  have r3 := resOf_finish (a.lanes.foldl (fun s l => s.pendLane a.gid l long (ws l)) s.issue)
  rw [c] at r3
  obtain ⟨g1, e1, q1, q2, q3, q4⟩ := pendLanes_results a.gid long ws a.lanes s.issue _ (issue_gang h)
  obtain ⟨g2, e2, -⟩ := s3.keeps e1
  unfold State.resOf at r3
  rw [e1, e2] at r3
  simp only [Option.map_some, Option.some.injEq, Prod.mk.injEq] at r3
  obtain ⟨r4, r5⟩ := r3
  refine ⟨s12.trans s3, fun l hl p hp => ?_, g2, e2, r4.trans q1, fun r hr => ?_, fun r hr => ?_⟩
  · obtain ⟨id, hid⟩ := q3 l hl p hp
    exact ⟨g2, e2, id, long, false, _, by rw [r5]; exact hid⟩
  · rw [r5]
    exact q2 r hr
  · rw [r5] at hr
    rcases q4 r hr with hr | ⟨l, hl, p, hp, x⟩
    · exact .inl hr
    · exact .inr ⟨l, hl, p, hp, by rw [x], by rw [x], by rw [x]⟩

/-- A word with one 32-bit result completes with it. -/
theorem gives_laneValue (i : Instr) (long : Bool) (d : Nat) (f : State → Acting → Nat → Word)
    (h : ∀ s, exec i s = .next (s.laneValue long d (f s))) : Gives i (fun s a l => [(d, f s a l)]) := by
  intro s a ha
  exact ⟨_, h s, laneWord_gives ha long _ _ (fun _ _ => rfl)⟩

end Sys2Proof.Machine
end

