-- ==== Sys2Proof/Laws/Alu.lean ====
section
/-! SUPPORT. What the ALU words give: the readings of a word, and the results of words with one register, with a pair
and with a floating-point value. -/
namespace Sys2Proof.Machine

theorem sext_eq_toInt (w x : Nat) (hw : 0 < w) : sext w x = (BitVec.ofNat w x).toInt := by
  unfold sext
  rw [BitVec.toInt_eq_toNat_cond, BitVec.toNat_ofNat]
  have h2 : 2 * 2 ^ (w - 1) = 2 ^ w := by
    rw [← Nat.pow_succ']
    congr 1
    omega
  split <;> split <;> omega

theorem si_toInt (x : Word) : si x = x.toInt := by
  unfold si
  rw [sext_eq_toInt 32 _ (by decide)]
  simp

theorem wrap_ofInt (w : Nat) (x : Int) : BitVec.ofNat w (wrap w x) = BitVec.ofInt w x := by
  apply BitVec.eq_of_toNat_eq
  rw [BitVec.toNat_ofNat, BitVec.toNat_ofInt]
  unfold wrap
  have h1 : 0 ≤ x % ((2 ^ w : Nat) : Int) := Int.emod_nonneg _ (by have := Nat.two_pow_pos w; omega)
  have h2 : x % ((2 ^ w : Nat) : Int) < (2 ^ w : Nat) := Int.emod_lt_of_pos _ (by have := Nat.two_pow_pos w; omega)
  rw [Nat.mod_eq_of_lt]
  omega

theorem word_ofInt (x : Int) : word x = BitVec.ofInt 32 x := wrap_ofInt 32 x

/-- A word with one value a lane gives it. -/
theorem givesWord_of (i : Instr) (d : Fin 128) (long : Bool) (f g : State → Acting → Nat → Word)
    (h : ∀ s, exec i s = .next (s.laneValue long d.val (f s))) (e : ∀ s x l, f s x l = g s x l) : GivesWord i d g := by
  have : f = g := by
    funext s x l
    exact e s x l
  subst this
  exact gives_laneValue i long d.val f h

theorem pairOut_ofInt (d : Fin 128) (v : Nat) (x : Int) (h : BitVec.ofNat 64 v = BitVec.ofInt 64 x) :
    pairOut d (v % 2 ^ 64) = [(d.val, BitVec.ofInt 32 x), (d.val + 1, BitVec.ofInt 32 (x / 2 ^ 32))] := by
  have hv : (v : Int) % 2 ^ 64 = x % 2 ^ 64 := by
    have := congrArg BitVec.toNat h
    rw [BitVec.toNat_ofNat, BitVec.toNat_ofInt] at this
    have h1 : 0 ≤ x % ((2 ^ 64 : Nat) : Int) := Int.emod_nonneg _ (by decide)
    omega
  unfold pairOut
  congr 2
  · apply BitVec.eq_of_toNat_eq
    rw [BitVec.toNat_ofNat, BitVec.toNat_ofInt]
    omega
  · congr 2
    apply BitVec.eq_of_toNat_eq
    rw [BitVec.toNat_ofNat, BitVec.toNat_ofInt]
    omega

theorem givesPair_of (i : Instr) (d : Fin 128) (f : State → Acting → Nat → Nat) (g : State → Acting → Nat → Int)
    (h : ∀ s, exec i s = .next (s.pairWord d (f s))) (e : ∀ s x l, BitVec.ofNat 64 (f s x l) = BitVec.ofInt 64 (g s x l)) :
    GivesPair i d g := by
  intro s a ha
  refine ⟨_, h s, ?_⟩
  exact laneWord_gives ha false _ _ (fun l _ => by rw [pairOut_ofInt d _ _ (e s a l)])

/-! ### Masks, and words that trap -/

theorem lanesOf_mem (m : Mask) (l : Nat) : l ∈ lanesOf m ↔ m.getLsbD l = true := by
  unfold lanesOf
  rw [List.mem_filter, List.mem_range]
  exact ⟨fun h => h.2, fun h => ⟨BitVec.lt_of_getLsbD h, h⟩⟩

theorem maskOf_foldl (ls : List Nat) (m : Mask) (i : Nat) :
    (ls.foldl (fun (m : Mask) l => m ||| (1#64 <<< l)) m).getLsbD i = (m.getLsbD i || decide (i < 64 ∧ i ∈ ls)) := by
  induction ls generalizing m with
  | nil => simp
  | cons l ls ih =>
    rw [List.foldl_cons, ih, BitVec.getLsbD_or, BitVec.getLsbD_shiftLeft, BitVec.getLsbD_one]
    cases m.getLsbD i
    · by_cases h : i < 64
      · simp only [h, decide_true, Bool.true_and, true_and, Bool.false_or, List.mem_cons]
        by_cases h2 : i = l
        · subst h2; simp
        · by_cases h3 : i < l
          · simp [h3, h2]
          · have : i - l ≠ 0 := by omega
            simp [h3, h2, this]
      · simp [h]
    · simp

theorem maskOf_getLsbD (ls : List Nat) (i : Nat) : (maskOf ls).getLsbD i = decide (i < 64 ∧ i ∈ ls) := by
  unfold maskOf
  rw [maskOf_foldl]; simp

theorem maskOf_lanesOf (m : Mask) : maskOf (lanesOf m) = m := by
  apply BitVec.eq_of_getLsbD_eq
  intro i hi
  rw [maskOf_getLsbD]
  simp only [lanesOf_mem, hi, true_and]
  simp

theorem issue_acting {s : State} {a : Acting} (h : s.acting = some a) :
    s.issue.acting = some { a with gang := { a.gang with seq := a.gang.seq + 1, lastIssue := s.now } } := by
  obtain ⟨e, hg, hc, ht⟩ := acting_gang h
  have hi := issue_gang h
  have ec := (gangStep_issue s).cur
  have et := (gangStep_issue s).teams
  unfold State.acting
  rw [ec, ← e, hi]
  dsimp only
  have : assocGet? a.gang.cohorts s.cur.2 = some a.co := hc
  rw [this]
  have ht' : s.issue.team? a.gang.team = some a.team := by
    unfold State.team? at ht ⊢; rw [et]; exact ht
  rw [ht']
  dsimp only
  unfold State.acting at h
  rw [← e, hg] at h
  dsimp only at h
  rw [this, ht] at h
  have hc := congrArg Acting.cid (Option.some.inj h)
  rw [← hc]

theorem leave_acting {s : State} {a : Acting} (h : s.acting = some a) : (s.leave a.co.mask).acting = none := by
  obtain ⟨e, hg, hc, ht⟩ := acting_gang h
  unfold State.leave
  have hz : a.co.mask &&& ~~~a.co.mask = 0 := by simp
  unfold State.acting
  rw [onGang_cur, onGang_gang, if_pos rfl, ← e, hg]
  dsimp only [Option.map]
  rw [hc]
  dsimp only
  rw [if_pos hz]
  dsimp only
  have : ∀ (xs : List (Nat × Cohort)) k, assocGet? (assocErase xs k) k = none := by
    intro xs k
    induction xs with
    | nil => rfl
    | cons x xs ih =>
      obtain ⟨j, v⟩ := x
      unfold assocErase at *
      rw [List.filter_cons]
      by_cases hj : j = k
      · subst hj; simpa using ih
      · simp [hj, assocGet?]; exact ih
  rw [this]


theorem mask_lanes_ne {m : Mask} (h : m ≠ 0) : lanesOf m ≠ [] := by
  intro e
  apply h
  rw [← maskOf_lanesOf m, e]
  rfl

/-- A word whose lanes give a floating-point result does what `FpWordBy` says. -/
theorem fpWordBy_of (c : Acting → Nat → Nat) (i : Instr) (d : Fin 128) (long : Bool)
    (g : State → Acting → Nat → Nat → Word × FpFlags)
    (f : State → Acting → Nat → Nat → Nat × FpFlags) (h : ∀ s, exec i s = .next (s.laneWord long (fun a l =>
      fpOut l (c a l) (g s a l (c a l)).2 [(d.val, (g s a l (c a l)).1)])))
    (e : ∀ s x l c, g s x l c = (BitVec.ofNat 32 (f s x l c).1, (f s x l c).2)) : FpWordBy c i d f := by
  intro s a ha
  constructor
  · intro hn
    refine ⟨_, h s, laneWord_gives ha long _ _ (fun l hl => ?_)⟩
    dsimp only [fpOut]
    rw [e, if_pos (hn l hl)]
  · intro hn hm
    rw [h s]
    congr 1
    unfold State.laneWord State.act
    rw [ha]
    dsimp only
    have o : a.lanes.map (fun l => (l, fpOut l (c a l) (g s a l (c a l)).2
          [(d.val, (g s a l (c a l)).1)])) =
        a.lanes.map (fun l => (l, LaneOut.trap { cause := 0x18, fpstat := [(l, flagsNat (f s a l (c a l)).2)] })) := by
      refine List.map_congr_left (fun l hl => ?_)
      rw [e]
      dsimp only [fpOut]
      rw [if_neg (hn l hl)]
    rw [o, List.foldl_map, List.filterMap_map, List.filterMap_map]
    have z : ∀ (ls : List Nat) (s : State), ls.foldl (fun s _ => s) s = s := by
      intro ls; induction ls with
      | nil => intro s; rfl
      | cons l ls ih => intro s; exact ih s
    have z2 : ∀ (ls : List Nat), ls.filterMap (fun _ => (none : Option (Nat × TrapInfo))) = [] := by
      intro ls; induction ls with
      | nil => rfl
      | cons l ls ih => exact ih
    simp only [Function.comp_def, if_true, z, z2, trapEach_nil]
    have hl := mask_lanes_ne hm
    show State.finish _ = _
    unfold Acting.lanes at *
    have fm : ∀ (k : Nat → TrapInfo) (ls : List Nat), ls.filterMap (fun l => some (l, k l)) = ls.map (fun l => (l, k l)) := by
      intro k ls; induction ls with
      | nil => rfl
      | cons l ls ih => simp
    rw [fm]
    cases hq : lanesOf a.co.mask with
    | nil => exact absurd hq hl
    | cons l ls =>
      dsimp only [List.map]
      have m1 : maskOf (l :: List.map ((fun (x : Nat × TrapInfo) => x.1) ∘ fun l =>
          (l, ({ cause := 0x18, fpstat := [(l, flagsNat (f s a l (c a l)).2)] } : TrapInfo))) ls) =
          a.co.mask := by
        simp only [Function.comp_def, List.map_id']
        rw [← hq, maskOf_lanesOf]
      have m2 : ∀ (xs : List Nat), (xs.map (fun l =>
          (l, ({ cause := 0x18, fpstat := [(l, flagsNat (f s a l (c a l)).2)] } : TrapInfo)))).flatMap
            (fun p => p.2.fpstat) = xs.map (fun l => (l, flagsNat (f s a l (c a l)).2)) := by
        intro xs
        induction xs with
        | nil => rfl
        | cons x xs ih => simp [List.flatMap_cons, ih]
      have m3 := m2 (l :: ls)
      dsimp only [List.map] at m3
      rw [m3, List.map_map, m1]

/-- A floating-point word does what `FpWord` says. -/
theorem fpWord_of (i : Instr) (d : Fin 128) (long : Bool) (g : State → Acting → Nat → Nat → Word × FpFlags)
    (f : State → Acting → Nat → Nat → Nat × FpFlags) (h : ∀ s, exec i s = .next (s.fpWord long d (g s)))
    (e : ∀ s x l c, g s x l c = (BitVec.ofNat 32 (f s x l c).1, (f s x l c).2)) : FpWord i d f :=
  fpWordBy_of _ i d long g f h e

end Sys2Proof.Machine
end

