-- ==== Sys2Proof/Laws/Lines.lean ====
section
/-! SUPPORT. What the operations on caches, buckets and C-stores can do. -/
namespace Sys2Proof.Machine

/-! ### Buckets -/

/-- Only token buckets differ. -/
def TokensOnly (s t : State) : Prop := t = { s with buckets := t.buckets, refillAt := t.refillAt }

theorem setBucket_tokensOnly (s : State) (k : Nat) (b : Bucket) : TokensOnly s (s.setBucket k b) := rfl

/-- A request that spends tokens changes buckets alone. -/
theorem spend_tokensOnly {s t : State} {a n : Nat} (h : s.spend a n = some t) : TokensOnly s t := by
  unfold State.spend at h
  split at h
  · cases h
    rfl
  · split at h
    · cases h
      rfl
    · cases h

theorem owe_tokensOnly (s : State) (a n : Nat) : TokensOnly s (s.owe a n) := by
  unfold State.owe
  split
  · rfl
  · rfl

/-- Memory that belongs to no tenant, or to an unmetered one, costs nothing (08 R191). -/
theorem spend_unmetered {s : State} {a : Nat} (n : Nat) (h : s.bucketAt a = none) : s.spend a n = some s := by
  simp [State.spend, h]

/-! ### Lines -/

/-- Only what the caches hold, the accesses that carry lines, and token buckets differ. -/
def CachesOnly (s t : State) : Prop :=
  t = { s with
    l2 := t.l2, sharers := t.sharers, cores := t.cores, accesses := t.accesses, buckets := t.buckets,
    refillAt := t.refillAt }

theorem CachesOnly.refl (s : State) : CachesOnly s s := rfl

theorem CachesOnly.trans {s t u : State} (h : CachesOnly s t) (k : CachesOnly t u) : CachesOnly s u := by
  unfold CachesOnly at *
  rw [k, h]

theorem TokensOnly.caches {s t : State} (h : TokensOnly s t) : CachesOnly s t := by
  unfold CachesOnly
  rw [h]

theorem CachesOnly.mem {s t : State} (h : CachesOnly s t) : t.mem = s.mem := by rw [h]
theorem CachesOnly.host {s t : State} (h : CachesOnly s t) : t.host = s.host := by rw [h]
theorem CachesOnly.gangs {s t : State} (h : CachesOnly s t) : t.gangs = s.gangs := by rw [h]
theorem CachesOnly.tenants {s t : State} (h : CachesOnly s t) : t.tenants = s.tenants := by rw [h]

theorem leaveL2_cachesOnly (s : State) (line : Nat) : CachesOnly s (s.leaveL2 line) := rfl

/-- A line that left its slice is in no slice (08 R170). -/
theorem leaveL2_inL2 (s : State) (line : Nat) : (s.leaveL2 line).inL2 line = false := by
  show (assocGet? (assocErase s.l2 line) line).isSome = false
  rw [assocGet?_assocErase_self]
  rfl

theorem evictL2_cachesOnly {s t : State} {line : Nat} (h : s.evictL2 line = some t) : CachesOnly s t := by
  unfold State.evictL2 at h
  split at h
  · cases h
    rfl
  · obtain ⟨u, hu, rfl⟩ := Option.map_eq_some_iff.mp h
    refine CachesOnly.trans ?_ (leaveL2_cachesOnly u line)
    split at hu
    · exact (spend_tokensOnly hu).caches
    · cases hu
      rfl

/-- A line brought into its slice is there, and memory is as it was (08 R170, R191). -/
theorem touchL2_does {s t : State} {home line : Nat} {fixed write : Bool}
    (h : s.touchL2 home line fixed write = some t) :
    CachesOnly s t ∧ t.inL2 line = true := by
  unfold State.touchL2 at h
  split at h
  · rename_i x hx
    cases h
    split
    · exact ⟨rfl, by simp [State.inL2]⟩
    · exact ⟨rfl, by simp [State.inL2, hx]⟩
  · split at h
    · cases h
    · rename_i u hu
      obtain ⟨v, hv, rfl⟩ := Option.map_eq_some_iff.mp h
      have k : CachesOnly s u := by
        split at hu
        · cases hu
          rfl
        · exact evictL2_cachesOnly hu
      exact ⟨(k.trans (spend_tokensOnly hv).caches).trans rfl, by simp [State.inL2]⟩

theorem touchNow_does (s : State) (home line : Nat) (fixed write : Bool) :
    CachesOnly s (s.touchNow home line fixed write) ∧ (s.touchNow home line fixed write).inL2 line = true := by
  unfold State.touchNow
  split
  · rename_i x hx
    split
    · exact ⟨rfl, by simp [State.inL2]⟩
    · exact ⟨rfl, by simp [State.inL2, hx]⟩
  · refine ⟨CachesOnly.trans ?_ (CachesOnly.trans (owe_tokensOnly _ _ _).caches rfl), by simp [State.inL2]⟩
    split
    · rfl
    · refine CachesOnly.trans ?_ (leaveL2_cachesOnly _ _)
      split
      · exact (owe_tokensOnly _ _ _).caches
      · rfl

/-! ### C-stores (08 R173, 10 R243) -/

/-- A C-store that comes to serve a partition holds what the partition finds there. -/
theorem claim_tiles (a : Array) (part : Nat) (keep : Nat → Bool) : (a.claim part keep).tiles part = a.tiles part := by
  unfold Array.claim
  split
  · rfl
  · simp [Array.tiles]

end Sys2Proof.Machine
end

