-- ==== Sys2Proof/Tests/Slice0.lean ====
section
/-! SUPPORT. Tests: what the well-formedness check refuses, words written out from the encodings of spec/, worked
examples of spec/, and for every statement with hypotheses a state and operands that meet them. -/

namespace Sys2Proof.Tests

open Sys2Proof.Machine

set_option maxRecDepth 100000

/-! ### A small machine -/

/-- A record of one team of one gang of 16 lanes. -/
def benchRec : Rec :=
  { entry := 0x1000, engerr := false, item := true, paired := false, coop := false, frame := 0, queue := 0, succ := 0,
    tx := 16, ty := 1, tz := 1, gangs := 1, wcode := 0, gx := 1, gy := 1, gz := 1, spill := 1, wbuf := 1, abuf := 1,
    regs := 8, affin := 0, icount := 0, ibase := 0 }

/-- Tenant 0 of lease 0 runs on core 0, with one page of 4 GiB at each stage; a gang of 16 lanes has formed a cohort of
the lanes of a mask, which stands at a word. Every lane runs at a level and holds some registers. -/
def bench (w : Nat) (m : Mask) (level : Nat) (regs : List (Nat × Word)) : State :=
  { nextId := 10, cur := (3, 4)
    mem := [(0x10000, 0x0F), (0x10001, 0x20), (0x20000, 0x0F), (0x20001, 0x20)]
    leases := [(0, { createdAt := 0, rows := 1, cols := 1, row0 := 0, col0 := 0, qbase := 0, qcnt := 4,
                     extents := [(0, 65536)] })]
    tenants := [(0, { state := 3, queuesW := 0x40000, chmask := 1, memsize := 2 ^ 32, tag := some 0, s2root := 0x10001,
                      s1root := 0x20001, shbase := 0x40000, shslots := 4, rects := [0x01010000] })]
    launches := [(1, { dom := .tenant 0 0, queue := 0, addr := 0, desc := benchRec, nextTeam := 1 })]
    teams := [(2, { launch := 1, t := 0, lease := 0, tenant := some 0, xten := some 0, core := 0, paired := false,
                    asize := 4096, wsize := 4096 })]
    gangs := [(3, { team := 2, g := 0, core := 0, slot := 0, width := 16, nregs := 8
                    lanes := List.replicate 16 { regs := regs, pc := ⟨0x1000, 0⟩, level := level }
                    cohorts := [(4, { mask := m, hdr := 0x1000, count := 2, cls := 0, tail := true, switches := 0,
                                      words := [w, 0] })] })] }

/-- The bench with its gang changed. -/
def benchGang (m : Mask) (level : Nat) (regs : List (Nat × Word)) (f : Gang → Gang) : State :=
  (bench 0 m level regs).onGang 3 f

/-- A frame of one lane, entered by `trap #5` from LEVEL 0. -/
def benchFrame (m : Mask) : Frame :=
  { level := 1, prev := 0, mask := m, cause := 0x10, sfr := false, tpc := ⟨0x2000, 3⟩, tword := 0xE2000005, taddr := 0,
    tinfo := 5, rep := 0 }

theorem test_decode_integer :
    decode 0x00000000 = .ok .nop ∧ decode 0x02050628 = .ok (.iadd 20 12 40) ∧
    decode 0x02250628 = .ok (.isub 20 12 40) ∧ decode 0x02450628 = .ok (.imul 20 12 40) ∧
    decode 0x02650628 = .ok (.imulh 20 12 40) ∧ decode 0x02850628 = .ok (.umulh 20 12 40) ∧
    decode 0x02A50628 = .ok (.imad 20 12 40) ∧ decode 0x02C50628 = .ok (.imin 20 12 40) ∧
    decode 0x02E50628 = .ok (.imax 20 12 40) ∧ decode 0x03050628 = .ok (.umin 20 12 40) ∧
    decode 0x03250628 = .ok (.umax 20 12 40) ∧ decode 0x03450600 = .ok (.iabs 20 12) ∧
    decode 0x03650600 = .ok (.ineg 20 12) ∧ decode 0x03850628 = .ok (.idiv 20 12 40) ∧
    decode 0x03A50628 = .ok (.udiv 20 12 40) ∧ decode 0x03C50628 = .ok (.irem 20 12 40) ∧
    decode 0x03E50628 = .ok (.urem 20 12 40) ∧ decode 0x04050628 = .ok (.andv 20 12 40) ∧
    decode 0x04250628 = .ok (.orv 20 12 40) ∧ decode 0x04450628 = .ok (.xorv 20 12 40) ∧
    decode 0x04650628 = .ok (.andn 20 12 40) ∧ decode 0x04850628 = .ok (.orn 20 12 40) ∧
    decode 0x04A50628 = .ok (.xnor 20 12 40) ∧ decode 0x04C50628 = .ok (.shl 20 12 40) ∧
    decode 0x04E50628 = .ok (.shr 20 12 40) ∧ decode 0x05050628 = .ok (.sar 20 12 40) ∧
    decode 0x05250628 = .ok (.rotl 20 12 40) ∧ decode 0x05450600 = .ok (.popc 20 12) ∧
    decode 0x05650600 = .ok (.clz 20 12) ∧ decode 0x05850600 = .ok (.ctz 20 12) ∧
    decode 0x05A50600 = .ok (.brev 20 12) ∧ decode 0x05C50628 = .ok (.sel 20 12 40) ∧
    decode 0x05E50600 = .ok (.mov 20 12) ∧ decode 0x06C50628 = .ok (.icmp 6 20 12 40) ∧
    decode 0x08050628 = .ok (.aadd 20 12 40) ∧ decode 0x08250628 = .ok (.aaddz 20 12 40) ∧
    decode 0x08450628 = .ok (.asub 20 12 40) ∧ decode 0x08650600 = .ok (.amov 20 12) ∧
    decode 0x08850628 = .ok (.acmpeq 20 12 40) ∧ decode 0x08A50628 = .ok (.acmplt 20 12 40) ∧
    decode 0x08C50628 = .ok (.ashl 20 12 40) ∧ decode 0x08E50628 = .ok (.amul 20 12 40) :=
  ⟨rfl, rfl, rfl, rfl, rfl, rfl, rfl, rfl, rfl, rfl, rfl, rfl, rfl, rfl, rfl, rfl, rfl, rfl, rfl, rfl, rfl, rfl, rfl,
   rfl, rfl, rfl, rfl, rfl, rfl, rfl, rfl, rfl, rfl, rfl, rfl, rfl, rfl, rfl, rfl, rfl, rfl, rfl⟩

theorem test_decode_floats :
    decode 0x105062AB = .ok (.iaddi 20 12 683) ∧ decode 0x125062AB = .ok (.andi 20 12 683) ∧
    decode 0x145062AB = .ok (.ori 20 12 683) ∧ decode 0x165062AB = .ok (.xori 20 12 683) ∧
    decode 0x185062AB = .ok (.shli 20 12 683) ∧ decode 0x1A5062AB = .ok (.shri 20 12 683) ∧
    decode 0x1C5062AB = .ok (.sari 20 12 683) ∧ decode 0x1E5062A8 = .ok (.icmpi 20 12 5 40) :=
  ⟨rfl, rfl, rfl, rfl, rfl, rfl, rfl, rfl⟩

theorem test_decode_immediates :
    decode 0x205062AB = .ok (.aaddi 20 12 683) ∧ decode 0x265062AB = .ok (.imuli 20 12 683) ∧
    decode 0x2852ABCD = .ok (.movi 20 175053) ∧ decode 0x2A503FC1 = .ok (.movh 20 16321) :=
  ⟨rfl, rfl, rfl, rfl⟩

theorem test_decode_packed_and_special_functions :
    decode 0x30050628 = .ok (.fadd 20 12 40) ∧ decode 0x30250628 = .ok (.fsub 20 12 40) ∧
    decode 0x30450628 = .ok (.fmul 20 12 40) ∧ decode 0x30650628 = .ok (.fma 20 12 40) ∧
    decode 0x30850628 = .ok (.fms 20 12 40) ∧ decode 0x30A50628 = .ok (.fnma 20 12 40) ∧
    decode 0x30C50628 = .ok (.fmin 20 12 40) ∧ decode 0x30E50628 = .ok (.fmax 20 12 40) ∧
    decode 0x31050600 = .ok (.fabs 20 12) ∧ decode 0x31250600 = .ok (.fneg 20 12) ∧
    decode 0x31450628 = .ok (.fcpsgn 20 12 40) ∧ decode 0x31650603 = .ok (.frnd 20 12 3) ∧
    decode 0x31850628 = .ok (.fdiv 20 12 40) ∧ decode 0x31A50600 = .ok (.fsqrt 20 12) ∧
    decode 0x31C50600 = .ok (.fsat 20 12) ∧ decode 0x31E50600 = .ok (.fclass 20 12) ∧
    decode 0x32650628 = .ok (.fcmp 3 20 12 40) ∧ decode 0x34050600 = .ok (.frcp 20 12) ∧
    decode 0x34250600 = .ok (.frsq 20 12) ∧ decode 0x34450600 = .ok (.fexp2 20 12) ∧
    decode 0x34650600 = .ok (.flog2 20 12) ∧ decode 0x34850600 = .ok (.fsinpi 20 12) ∧
    decode 0x34A50600 = .ok (.fcospi 20 12) ∧ decode 0x34C50600 = .ok (.ftanh 20 12) ∧
    decode 0x34E50600 = .ok (.fsig 20 12) ∧ decode 0x36050628 = .ok (.hadd2 20 12 40) ∧
    decode 0x36250628 = .ok (.hsub2 20 12 40) ∧ decode 0x36450628 = .ok (.hmul2 20 12 40) ∧
    decode 0x36650628 = .ok (.hfma2 20 12 40) ∧ decode 0x36850628 = .ok (.hmin2 20 12 40) ∧
    decode 0x36A50628 = .ok (.hmax2 20 12 40) ∧ decode 0x37050628 = .ok (.badd2 20 12 40) ∧
    decode 0x37250628 = .ok (.bsub2 20 12 40) ∧ decode 0x37450628 = .ok (.bmul2 20 12 40) ∧
    decode 0x37650628 = .ok (.bfma2 20 12 40) ∧ decode 0x37850628 = .ok (.bmin2 20 12 40) ∧
    decode 0x37A50628 = .ok (.bmax2 20 12 40) :=
  ⟨rfl, rfl, rfl, rfl, rfl, rfl, rfl, rfl, rfl, rfl, rfl, rfl, rfl, rfl, rfl, rfl, rfl, rfl, rfl, rfl, rfl, rfl, rfl,
   rfl, rfl, rfl, rfl, rfl, rfl, rfl, rfl, rfl, rfl, rfl, rfl, rfl, rfl⟩

theorem test_decode_packs_and_conversions :
    decode 0x38050628 = .ok (.dp4i 20 12 40) ∧ decode 0x38250628 = .ok (.dp4n 20 12 40) ∧
    decode 0x38450628 = .ok (.dp2h 20 12 40) ∧ decode 0x38650628 = .ok (.dp2b 20 12 40) ∧
    decode 0x38850628 = .ok (.dp4e 20 12 40) ∧ decode 0x38A50628 = .ok (.dp4f 20 12 40) ∧
    decode 0x3A050601 = .ok (.i2f 20 12 1) ∧ decode 0x3A250623 = .ok (.n2f 20 12 1 3) ∧
    decode 0x3A450601 = .ok (.f2i 20 12 1) ∧ decode 0x3A650623 = .ok (.f2n 20 12 1 3) ∧
    decode 0x3A850601 = .ok (.pkh 20 12 1) ∧ decode 0x3AA50601 = .ok (.pkb 20 12 1) ∧
    decode 0x3AC50601 = .ok (.unh 20 12 1) ∧ decode 0x3AE50601 = .ok (.unb 20 12 1) ∧
    decode 0x3B050601 = .ok (.pk8e 20 12 1) ∧ decode 0x3B250601 = .ok (.pk8f 20 12 1) ∧
    decode 0x3B450601 = .ok (.un8e 20 12 1) ∧ decode 0x3B650601 = .ok (.un8f 20 12 1) ∧
    decode 0x3B850603 = .ok (.pk6 20 12 3) ∧ decode 0x3BA50603 = .ok (.un6 20 12 3) ∧
    decode 0x3BC50603 = .ok (.pk4 20 12 3) ∧ decode 0x3BE50603 = .ok (.un4 20 12 3) ∧
    decode 0x3C050600 = .ok (.sx8 20 12) ∧ decode 0x3C250600 = .ok (.sx16 20 12) ∧
    decode 0x3C450600 = .ok (.sat8 20 12) ∧ decode 0x3C650600 = .ok (.satz8 20 12) ∧
    decode 0x3C850600 = .ok (.sat16 20 12) ∧ decode 0x3CA50600 = .ok (.satz16 20 12) ∧
    decode 0x3CC50625 = .ok (.fxf 20 12 37) ∧ decode 0x40050000 = .ok (.laneid 20) ∧
    decode 0x40250000 = .ok (.gwidth 20) ∧ decode 0x40450000 = .ok (.cohort 20) ∧
    decode 0x40650600 = .ok (.vany 20 12) ∧ decode 0x40850600 = .ok (.vall 20 12) ∧
    decode 0x40A50600 = .ok (.ballot 20 12) ∧ decode 0x40C50600 = .ok (.matchEq 20 12) ∧
    decode 0x40E50628 = .ok (.shfl 20 12 40) ∧ decode 0x41050605 = .ok (.shup 20 12 5) ∧
    decode 0x41250625 = .ok (.shdn 20 12 37) ∧ decode 0x41450625 = .ok (.shxor 20 12 37) ∧
    decode 0x41650600 = .ok (.redadd 20 12) ∧ decode 0x41850600 = .ok (.redmin 20 12) ∧
    decode 0x41A50600 = .ok (.redmax 20 12) ∧ decode 0x41C50600 = .ok (.bcast 20 12) ∧
    decode 0x41E50600 = .ok (.redand 20 12) ∧ decode 0x42050600 = .ok (.fredadd 20 12) ∧
    decode 0x42250600 = .ok (.fredmin 20 12) ∧ decode 0x42450600 = .ok (.fredmax 20 12) ∧
    decode 0x42650600 = .ok (.redor 20 12) ∧ decode 0x42850600 = .ok (.redxor 20 12) :=
  ⟨rfl, rfl, rfl, rfl, rfl, rfl, rfl, rfl, rfl, rfl, rfl, rfl, rfl, rfl, rfl, rfl, rfl, rfl, rfl, rfl, rfl, rfl, rfl,
   rfl, rfl, rfl, rfl, rfl, rfl, rfl, rfl, rfl, rfl, rfl, rfl, rfl, rfl, rfl, rfl, rfl, rfl, rfl, rfl, rfl, rfl, rfl,
   rfl, rfl, rfl, rfl⟩

theorem test_decode_lanes :
    decode 0x44500011 = .ok (.sreg 20 17) ∧ decode 0x4600A015 = .ok (.sregw 20 21) :=
  ⟨rfl, rfl⟩

theorem test_decode_loads_and_stores :
    decode 0x605062AB = .ok (.ldB 20 12 683) ∧ decode 0x625062AB = .ok (.ldBs 20 12 683) ∧
    decode 0x645062AB = .ok (.ldH 20 12 683) ∧ decode 0x665062AB = .ok (.ldHs 20 12 683) ∧
    decode 0x685062AB = .ok (.ldW 20 12 683) ∧ decode 0x6A5062AB = .ok (.ldD 20 12 683) ∧
    decode 0x6C5062AB = .ok (.ldQ 20 12 683) ∧ decode 0x705062AB = .ok (.stB 20 12 683) ∧
    decode 0x725062AB = .ok (.stH 20 12 683) ∧ decode 0x745062AB = .ok (.stW 20 12 683) ∧
    decode 0x765062AB = .ok (.stD 20 12 683) ∧ decode 0x785062AB = .ok (.stQ 20 12 683) ∧
    decode 0x7A5062E5 = .ok (.ldbW 20 12 5 1 37) ∧ decode 0x7C5062E5 = .ok (.ldbD 20 12 5 1 37) ∧
    decode 0x7E5062E5 = .ok (.ldbQ 20 12 5 1 37) ∧ decode 0x805062AB = .ok (.ldaH 20 12 683) ∧
    decode 0x825062AB = .ok (.ldaW 20 12 683) ∧ decode 0x845062AB = .ok (.ldaQ 20 12 683) ∧
    decode 0x865062AB = .ok (.staH 20 12 683) ∧ decode 0x885062AB = .ok (.staW 20 12 683) ∧
    decode 0x8A5062AB = .ok (.staQ 20 12 683) ∧ decode 0x8C5062AB = .ok (.ldwQ 20 12 683) ∧
    decode 0x8E5062AB = .ok (.stwQ 20 12 683) :=
  ⟨rfl, rfl, rfl, rfl, rfl, rfl, rfl, rfl, rfl, rfl, rfl, rfl, rfl, rfl, rfl, rfl, rfl, rfl, rfl, rfl, rfl, rfl, rfl⟩

theorem test_decode_atomics :
    decode 0x90C50628 = .ok (.atomAdd 1 2 20 12 40) ∧ decode 0x92C50628 = .ok (.atomMin 1 2 20 12 40) ∧
    decode 0x94C50628 = .ok (.atomMax 1 2 20 12 40) ∧ decode 0x96C50628 = .ok (.atomUmin 1 2 20 12 40) ∧
    decode 0x98C50628 = .ok (.atomUmax 1 2 20 12 40) ∧ decode 0x9AC50628 = .ok (.atomAnd 1 2 20 12 40) ∧
    decode 0x9CC50628 = .ok (.atomOr 1 2 20 12 40) ∧ decode 0x9EC50628 = .ok (.atomXor 1 2 20 12 40) ∧
    decode 0xA0C50628 = .ok (.atomXchg 1 2 20 12 40) ∧ decode 0xA2C50628 = .ok (.atomCas 1 2 20 12 40) ∧
    decode 0xA4C50628 = .ok (.atomFadd 1 2 20 12 40) ∧ decode 0xA6C50628 = .ok (.atomAdd64 1 2 20 12 40) ∧
    decode 0xA9400A0C = .ok (.redAdd 2 2 20 12) ∧ decode 0xAB400A0C = .ok (.redMin 2 2 20 12) ∧
    decode 0xAD400A0C = .ok (.redMax 2 2 20 12) ∧ decode 0xAF400A0C = .ok (.redAnd 2 2 20 12) ∧
    decode 0xB1400A0C = .ok (.redOr 2 2 20 12) ∧ decode 0xB3400A0C = .ok (.redXor 2 2 20 12) ∧
    decode 0xB5400A0C = .ok (.redFadd 2 2 20 12) :=
  ⟨rfl, rfl, rfl, rfl, rfl, rfl, rfl, rfl, rfl, rfl, rfl, rfl, rfl, rfl, rfl, rfl, rfl, rfl, rfl⟩

theorem test_decode_synchronisation :
    decode 0xB6050628 = .ok (.scaAdd 20 12 40) ∧ decode 0xB6250628 = .ok (.scaMin 20 12 40) ∧
    decode 0xB6450628 = .ok (.scaMax 20 12 40) ∧ decode 0xB6650628 = .ok (.scaUmin 20 12 40) ∧
    decode 0xB6850628 = .ok (.scaUmax 20 12 40) ∧ decode 0xB6A50628 = .ok (.scaAnd 20 12 40) ∧
    decode 0xB6C50628 = .ok (.scaOr 20 12 40) ∧ decode 0xB6E50628 = .ok (.scaXor 20 12 40) ∧
    decode 0xB7050628 = .ok (.scaXchg 20 12 40) ∧ decode 0xB7250628 = .ok (.scaCas 20 12 40) ∧
    decode 0xB7450628 = .ok (.scaFadd 20 12 40) ∧ decode 0xB8000A0C = .ok (.saccW 20 12) ∧
    decode 0xB8200A0C = .ok (.saccF 20 12) ∧ decode 0xBB200000 = .ok (.fence 2 1) ∧
    decode 0xBC050003 = .ok (.radv 20 3) ∧ decode 0xBC250603 = .ok (.racq 20 12 3) ∧
    decode 0xBC450003 = .ok (.rview 20 3) ∧ decode 0xBC450023 = .ok (.rviewCnt 20 3) ∧
    decode 0xBE000A00 = .ok (.mon 20) ∧ decode 0xBE25000C = .ok (.mwait 20 12) ∧
    decode 0xBE25008C = .ok (.mwaitTrap 20 12) ∧ decode 0xBE400000 = .ok .munarm ∧ decode 0xC0000000 = .ok .sdrain ∧
    decode 0xC2000A00 = .ok (.cinv 20) ∧ decode 0xC2200A00 = .ok (.pfetch 20) ∧ decode 0xC2400A00 = .ok (.pfl2 20) ∧
    decode 0xC2650600 = .ok (.pdisc 20 12) :=
  ⟨rfl, rfl, rfl, rfl, rfl, rfl, rfl, rfl, rfl, rfl, rfl, rfl, rfl, rfl, rfl, rfl, rfl, rfl, rfl, rfl, rfl, rfl, rfl,
   rfl, rfl, rfl, rfl⟩

theorem test_decode_control :
    decode 0xD002ABCD = .ok (.br 175053) ∧ decode 0xD252ABCD = .ok (.brnz 20 175053) ∧
    decode 0xD452ABCD = .ok (.brz 20 175053) ∧ decode 0xD652ABCD = .ok (.call 20 175053) ∧
    decode 0xD8000A00 = .ok (.jmp 20) ∧ decode 0xD8250600 = .ok (.jmpl 20 12) ∧ decode 0xDA000000 = .ok .jpush ∧
    decode 0xDA200000 = .ok .jwait ∧ decode 0xDA400025 = .ok (.jdrop 37) ∧ decode 0xDA650000 = .ok (.jdepth 20) ∧
    decode 0xDC400000 = .ok (.exitv 2) ∧ decode 0xDE000000 = .ok .bar ∧ decode 0xE0050000 = .ok (.refill 20) ∧
    decode 0xE202ABCD = .ok (.trapv 175053) ∧ decode 0xE4000000 = .ok .yield :=
  ⟨rfl, rfl, rfl, rfl, rfl, rfl, rfl, rfl, rfl, rfl, rfl, rfl, rfl, rfl, rfl⟩

theorem test_decode_system :
    decode 0xE805001A = .ok (.sysr 20 26) ∧ decode 0xE8200A1A = .ok (.sysw 20 26) ∧
    decode 0xE8450600 = .ok (.cfgr 20 12) ∧ decode 0xE8600A0C = .ok (.cfgw 20 12) ∧
    decode 0xE8850600 = .ok (.tlbiVa 20 12) ∧ decode 0xE8850601 = .ok (.tlbiTa 20 12) ∧
    decode 0xE8850002 = .ok (.tlbiAll 20) ∧ decode 0xE8A00000 = .ok .eret ∧
    decode 0xE8C50628 = .ok (.trlane 20 12 40) ∧ decode 0xE8E50628 = .ok (.twlane 20 12 40) ∧
    decode 0xE9000014 = .ok (.halt 20) ∧ decode 0xE9004014 = .ok (.haltLaunch 20) ∧
    decode 0xE9008014 = .ok (.haltTenant 20) ∧ decode 0xE900CA0C = .ok (.haltOther 20 12) :=
  ⟨rfl, rfl, rfl, rfl, rfl, rfl, rfl, rfl, rfl, rfl, rfl, rfl, rfl, rfl⟩

theorem test_decode_engines_and_work :
    decode 0xF0050000 = .ok (.cpy 20) ∧ decode 0xF0250600 = .ok (.cpg 20 12) ∧ decode 0xF0450600 = .ok (.cps 20 12) ∧
    decode 0xF0650000 = .ok (.cpxw 20) ∧ decode 0xF0850000 = .ok (.cpxr 20) ∧ decode 0xF0A50000 = .ok (.cpf 20) ∧
    decode 0xF2050000 = .ok (.mmul 20) ∧ decode 0xF2250000 = .ok (.mmulw 20) ∧ decode 0xF2450000 = .ok (.mmsp 20) ∧
    decode 0xF2650000 = .ok (.mzero 20) ∧ decode 0xF2850000 = .ok (.mepi 20) ∧ decode 0xF2A00000 = .ok .mfence ∧
    decode 0xF2C50601 = .ok (.acrd 20 12 1) ∧ decode 0xF2E50601 = .ok (.acwr 20 12 1) ∧
    decode 0xF3050025 = .ok (.acst 20 37) ∧ decode 0xF4000A0C = .ok (.sinc 20 12) ∧
    decode 0xF4200A0C = .ok (.swait 20 12) ∧ decode 0xF4400A0C = .ok (.sset 20 12) ∧
    decode 0xF4650608 = .ok (.sget 20 12 8) ∧ decode 0xF4800A0C = .ok (.sdec 20 12) ∧
    decode 0xF6094A03 = .ok (.rtsend 37 20 3) ∧ decode 0xF6251283 = .ok (.rtrecv 20 37 3) ∧
    decode 0xF6450625 = .ok (.rtsendq 20 12 37) ∧ decode 0xF6650025 = .ok (.rtrecvq 20 37) ∧
    decode 0xF6850025 = .ok (.rtstat 20 37) ∧ decode 0xF8050628 = .ok (.wpush 20 12 40) ∧
    decode 0xF8250600 = .ok (.wjoin 20 12) ∧ decode 0xF8450600 = .ok (.ipush 20 12) ∧
    decode 0xF8650628 = .ok (.shset 20 12 40) ∧ decode 0xF8800A00 = .ok (.shinv 20) ∧
    decode 0xFF2AA000 = .ok (.rep 37 1 1 1) :=
  ⟨rfl, rfl, rfl, rfl, rfl, rfl, rfl, rfl, rfl, rfl, rfl, rfl, rfl, rfl, rfl, rfl, rfl, rfl, rfl, rfl, rfl, rfl, rfl,
   rfl, rfl, rfl, rfl, rfl, rfl, rfl, rfl⟩

/-! ### Well-formed instructions -/

theorem test_wellformed_pair : (Instr.aadd 9 2 4).defect = some .oddPair ∧ (Instr.aadd 8 2 4).defect = none := ⟨rfl, rfl⟩
theorem test_wellformed_block : (Instr.cpy 125).defect = some .blockBound ∧ (Instr.cpy 124).defect = none := ⟨rfl, rfl⟩
theorem test_wellformed_limit : (Instr.sget 0 0 10).defect = some .fieldLimit ∧ (Instr.sget 0 0 9).defect = none :=
  ⟨rfl, rfl⟩

/-! ### States that meet the hypotheses of the statements -/

/-- IntegerArithmetic, LogicAndShifts, ComparesAndBitFields, AddressPairsAndImmediates, DotsAndNarrowing, BitPatternWords,
RoundWords, Collectives: a cohort acts, at its least and at all lanes; the condition codes at their edge. -/
theorem witness_register_words : (∃ x, (bench 0 1 0 []).acting = some x ∧ x.lanes = [0]) ∧
    (∃ x, (bench 0 0xFFFF 0 []).acting = some x ∧ x.lanes.length = 16) ∧ (9 : Fin 16).val ≤ 9 ∧ 9 < (10 : Fin 16).val ∧
    (Instr.n2f 0 0 0 3).defect = none ∧ (Instr.n2f 0 0 3 31).defect = none :=
  ⟨⟨_, rfl, by decide⟩, ⟨_, rfl, by decide⟩, by decide, by decide, rfl, rfl⟩

/-- Transcendentals: a cohort none of whose lanes enables an exception. -/
theorem witness_transcendentals : ∃ x, (bench 0 0xFFFF 0 []).acting = some x ∧
    ∀ l ∈ x.lanes, (x.gang.lane l).fpcr / 2 ^ 5 % 2 ^ 5 = 0 := ⟨_, rfl, by decide⟩

/-- FloatArithmetic, FloatConversions, Transcendentals, PackedArithmeticAndDots, DotsAndNarrowing, Collectives,
PacksAndUnpacks: a sum that raises nothing, and one whose invalid exception is enabled in its lane. -/
theorem witness_float_words :
    (∃ x, (bench 0 1 0 [(1, 0x3F800000)]).acting = some x ∧ ∀ l ∈ x.lanes, fpEnabled (x.gang.lane l).fpcr
      (fp32Op 1 1 2 (fun m z p q _ => onceRounded .fp32 m z [operand .fp32 z p, operand .fp32 z q]
        (addVal m (operand .fp32 z p) (operand .fp32 z q))) (bench 0 1 0 [(1, 0x3F800000)]) x l
        (x.gang.lane l).fpcr).2 = 0) ∧
    ∃ (s : State) (x : Acting), s.acting = some x ∧ x.co.mask ≠ 0 ∧ ∀ l ∈ x.lanes, fpEnabled (x.gang.lane l).fpcr
      (fp32Op 1 1 2 (fun m z p q _ => onceRounded .fp32 m z [operand .fp32 z p, operand .fp32 z q]
        (addVal m (operand .fp32 z p) (operand .fp32 z q))) s x l (x.gang.lane l).fpcr).2 ≠ 0 :=
  ⟨⟨_, rfl, by decide⟩,
   ⟨benchGang 1 0 [(1, 0x7F800001)] (fun g => g.mapLanes 1 (fun _ y => { y with fpcr := 2 ^ 9 + 2 ^ 8 + 2 ^ 7 + 2 ^ 6 + 2 ^ 5 })),
     _, rfl, by decide, by decide⟩⟩

/-- PacksAndUnpacks: a pack under SR. -/
theorem witness_packs : ∃ (s : State) (x : Acting), s.acting = some x ∧ ∀ l ∈ x.lanes, bit (x.gang.lane l).fpcr 2 = true ∧
    fpEnabled (x.gang.lane l).fpcr { inexact := true } = 0 :=
  ⟨benchGang 1 0 [] (fun g => g.mapLanes 1 (fun _ y => { y with fpcr := 4 })), _, rfl, by decide⟩

/-- RoundingModes: a tie, and a value between two neighbours, of either sign. -/
theorem witness_rounding : (0 : Int) < 1 ∧ roundGrid .rne false 3 0 1 = (2, true) ∧ roundGrid .rne false 1 0 1 = (0, true) ∧
    roundGrid .rup true 3 0 1 = (1, true) ∧ roundGrid .rdn true 3 0 1 = (2, true) := by decide

/-- SpecialRegisters: a cohort of a launch, at the first and the last special register. -/
theorem witness_special : ∃ x y, (bench 0 3 0 []).acting = some x ∧ (bench 0 3 0 []).launch? x.team.launch = some y ∧
    (0 : Fin 2048).val < 24 ∧ (23 : Fin 2048).val < 24 := ⟨_, _, rfl, rfl, by decide, by decide⟩

/-- Branches, TrapYieldNopRep: a plain cohort whose lanes may trap; a word that may be repeated, and one that may not. -/
theorem witness_control : ∃ x, (bench 0xFE080000 3 0 []).acting = some x ∧ x.plain ∧ x.mayTrap ∧ x.co.mask ≠ 0 ∧
    repeatOk 0x02010205 4 1 1 1 = true ∧ repeatOk 0x02010205 64 3 0 0 = false :=
  ⟨_, rfl, ⟨by decide, rfl⟩, ⟨by decide, by decide⟩, by decide, by decide, by decide⟩

/-- CallsAndJumps: a good target, a misaligned one, and one at 2^48. -/
theorem witness_jumps : (∃ x, (bench 0 1 0 [(4, 0x3000)]).acting = some x ∧ x.plain ∧ x.mayTrap ∧ x.lanes = [0] ∧
      (4 : Nat) + 1 < 8 * x.gang.nregs ∧ P (bench 0 1 0 [(4, 0x3000)]) x 0 4 = 0x3000) ∧
    (∃ x, (bench 0 1 0 [(4, 0x3002)]).acting = some x ∧ P (bench 0 1 0 [(4, 0x3002)]) x 0 4 % 4 ≠ 0) ∧
    ∃ x, (bench 0 1 0 [(5, 0x10000)]).acting = some x ∧ ¬ P (bench 0 1 0 [(5, 0x10000)]) x 0 4 < 2 ^ 48 :=
  ⟨⟨_, rfl, ⟨by decide, rfl⟩, ⟨by decide, by decide⟩, by decide, by decide, by decide⟩, ⟨_, rfl, by decide⟩,
   ⟨_, rfl, by decide⟩⟩

/-- JoinStack: an empty stack, a stack whose top waits for another lane, one that the cohort completes, and a drop. -/
theorem witness_joins :
    (∃ x, (bench 0 1 0 []).acting = some x ∧ x.plain ∧ x.co.switchBit = false ∧ x.gang.stack = []) ∧
    (∃ x, (benchGang 1 0 [] (fun g => { g with stack := [(3, 0)] })).acting = some x ∧ x.plain ∧ x.co.switchBit = false ∧
      x.gang.stack = [(3, 0)] ∧ x.gang.copied = 0 ∧ x.co.mask &&& 3 = x.co.mask ∧ (3 : Mask) &&& ~~~x.gang.gone ≠ 0 ∧
      (0 : Mask) ||| x.co.mask ≠ 3 &&& ~~~x.gang.gone) ∧
    ∃ x, (benchGang 1 0 [] (fun g => { g with stack := [(3, 2), (3, 0)] })).acting = some x ∧ x.gang.stack.length ≤ 3 ∧
      (2 : Mask) ||| x.co.mask = 3 &&& ~~~x.gang.gone ∧ (0 : Mask) ≠ 3 &&& ~~~x.gang.gone ∧
      (2 : Mask) ≠ (3 &&& ~~~x.co.mask) &&& ~~~x.gang.gone ||| 1 :=
  ⟨⟨_, rfl, ⟨by decide, rfl⟩, rfl, rfl⟩, ⟨_, rfl, ⟨by decide, rfl⟩, rfl, rfl, rfl, by decide, by decide, by decide⟩,
   ⟨_, rfl, by decide, by decide, by decide, by decide⟩⟩

/-- BarrierRefillExit: a cohort alone at the barrier and one that another lane keeps waiting; a value in the queue, and
none left. -/
theorem witness_barrier :
    (∃ (s : State) (x : Acting), s.acting = some x ∧ x.plain ∧ x.co.mask ≠ 0 ∧ x.gang.due = [] ∧
      (∀ sc, s.accessPending x.gid x.co.mask sc = false) ∧ s.dueRecords x.gid x.co.mask true = [] ∧ x.gang.stack = [] ∧
      (∃ l, l < x.gang.lanes.length ∧ l < 64 ∧ (x.gang.lane l).live = true ∧ x.gang.arrived.getLsbD l = false ∧ l ∉ x.lanes) ∧
      (s.core 0).itemsOf x.team.launch = [9] ∧ x.lanes.length ≤ 1) ∧
    ∃ x, (bench 0 0xFFFF 0 []).acting = some x ∧ (bench 0 0xFFFF 0 []).gangs = [(x.gid, x.gang)] ∧
      x.co.switchBit = false ∧ (∀ l, l < x.gang.lanes.length → l ∈ x.lanes) ∧
      ((bench 0 0xFFFF 0 []).core 0).itemsOf x.team.launch = [] ∧ (bench 0 0xFFFF 0 []).valuesLeft x.team.launch = false :=
  ⟨⟨(bench 0 1 0 []).onCore 0 (fun c => { c with items := [(1, 9)] }), _, rfl, ⟨by decide, rfl⟩, by decide, rfl,
    fun _ => rfl, rfl, rfl, ⟨1, by decide⟩, rfl, by decide⟩,
   ⟨_, rfl, rfl, rfl, by decide, rfl, rfl⟩⟩

/-- PrivilegeTraps: a cohort at LEVEL 0, at LEVEL 1 and at LEVEL 3. -/
theorem witness_privilege : ∀ v ∈ [0, 1, 3], ∃ x, (bench 0 3 v []).acting = some x ∧ x.mayTrap ∧ x.co.mask ≠ 0 ∧ x.level = v := by
  intro v h
  fin_cases h
  all_goals exact ⟨_, rfl, ⟨by decide, by decide⟩, by decide, rfl⟩

/-- SystemRegisterReads, SystemRegisterWrites, TrapReturn: a lane of LEVEL 1 in a frame, and one outside. -/
theorem witness_frames :
    (∃ (s : State) (x : Acting), s.acting = some x ∧ x.plain ∧ x.lanes = [0] ∧ x.level = 1 ∧ (x.gang.lane 0).frame = some 7 ∧
      assocGet? x.gang.frames 7 = some (benchFrame 1) ∧ (benchFrame 1).skip = false ∧ x.team.xten = some 0 ∧
      (assocGet? s.tenants (tkey x.team.lease 0)).isSome = true ∧ (32 : Fin 128).val ≤ 32) ∧
    ∃ x, (bench 0 1 1 []).acting = some x ∧ x.level = 1 ∧ x.lanes = [0] ∧ x.mayTrap ∧ (x.gang.lane 0).frame = none :=
  ⟨⟨benchGang 1 1 [] (fun g => { g.mapLanes 1 (fun _ y => { y with frame := some 7 }) with frames := [(7, benchFrame 1)] }),
    _, rfl, ⟨by decide, rfl⟩, by decide, rfl, rfl, rfl, rfl, rfl, rfl, by decide⟩,
   ⟨_, rfl, rfl, by decide, ⟨by decide, by decide⟩, rfl⟩⟩

/-- ConfigurationWords: an aligned offset and a misaligned one at LEVEL 2, the APPEND of queue 0 at LEVEL 1, and
LEVEL 3; a quad that is not the tenant's, and offsets in the blocks of others. -/
theorem witness_configuration :
    (∃ x, (bench 0 1 2 []).acting = some x ∧ x.plain ∧ x.level = 2 ∧ x.lanes = [0] ∧ x.mayTrap ∧
      (V (bench 0 1 2 []) x 0 4).toNat % 8 = 0 ∧ isAppend (V (bench 0 1 2 []) x 0 4).toNat = false ∧
      (bench 0 1 2 []).accessPending x.gid x.co.mask 2 = false ∧
      (bench 0 1 2 []).cfgWriteWaits x.team.lease none (V (bench 0 1 2 []) x 0 4).toNat (P (bench 0 1 2 []) x 0 6) = false) ∧
    (∃ x, (bench 0 1 1 [(4, 0x30004)]).acting = some x ∧ x.level = 1 ∧ x.team.xten ≠ none ∧
      (V (bench 0 1 1 [(4, 0x30004)]) x 0 4).toNat % 8 ≠ 0 ∧
      (bench 0 1 1 [(4, 0x30004)]).cfgWriteWaits x.team.lease (some (x.team.xten.getD 16)) 0x30004 0 = false) ∧
    (∃ x, (bench 0 1 1 [(4, 0x100018)]).acting = some x ∧ x.lanes = [0] ∧
      isAppend (V (bench 0 1 1 [(4, 0x100018)]) x 0 4).toNat = true ∧
      (bench 0 1 1 [(4, 0x100018)]).accessPending x.gid x.co.mask 2 = false ∧
      (bench 0 1 1 [(4, 0x100018)]).cfgWriteWaits x.team.lease (some (x.team.xten.getD 16)) 0x100018 0 = false ∧
      (bench 0 1 1 [(4, 0x100018)]).dueRecords x.gid x.co.mask true = []) ∧
    (∃ x, (bench 0 1 3 []).acting = some x ∧ x.plain ∧ x.level = 3 ∧ (bench 0 1 3 []).accessPending x.gid x.co.mask 2 = false) ∧
    ((bench 0 1 1 []).lease? 0).isSome = true ∧ (∃ h, (bench 0 1 1 []).lease? 0 = some h ∧
      h.quadNo 1 ∉ (bench 0 1 1 []).tenantQuads 0 0) ∧
    (∀ o ∈ [(0x10100, 0x10000, 0x100), (0x203C0, 0x20000, 0x40), (0x30F80, 0x30000, 0x100), (0x50100, 0x50000, 0x100),
        (0x7E000, 0x60000, 0x2000), (0x110000, 0x100000, 0x10000)], o.2.1 ≤ o.1 ∧ o.1 < o.2.1 + 16 * o.2.2 ∧
      (o.1 - o.2.1) / o.2.2 ≠ 0) :=
  ⟨⟨_, rfl, ⟨by decide, rfl⟩, rfl, by decide, ⟨by decide, by decide⟩, by decide, by decide, rfl, by decide⟩,
   ⟨_, rfl, rfl, by decide, by decide, by decide⟩, ⟨_, rfl, by decide, by decide, rfl, by decide, rfl⟩,
   ⟨_, rfl, ⟨by decide, rfl⟩, rfl, rfl⟩, rfl, ⟨_, rfl, by decide⟩, by decide⟩

/-- TranslationInvalidation: at its first issue, and once it waits and no earlier access is under way. -/
theorem witness_invalidation :
    (∃ x, (bench 0 1 2 []).acting = some x ∧ x.plain ∧ x.level = 2 ∧ x.co.mark = 0 ∧
      (bench 0 1 2 []).storesPending x.gid x.co.mask 2 = false) ∧
    ∃ (s : State) (x : Acting), s.acting = some x ∧ x.level = 1 ∧ x.co.mark ≠ 0 ∧ s.storesPending x.gid x.co.mask 2 = false ∧
      (∀ y ∈ s.accesses, x.co.mark ≤ y.1 + 1) ∧ s.quads ≠ [] ∧
      ∀ q ∈ s.quads, ∀ c ∈ q.2.copies, ∀ j ∈ c.2.writing, x.co.mark ≤ j + 1 ∨ s.access? j = none :=
  ⟨⟨_, rfl, ⟨by decide, rfl⟩, rfl, rfl, rfl⟩, ⟨{ (bench 0 1 1 []).onCohort (fun c => { c with mark := 5 }) with
    quads := [(0, { copies := [(8, { gang := 3, mask := 1, team := 2, lease := 0, ten := 0, xten := some 0, level := 0, core := 0, op := 0, recs := [], args := [], writing := [2, 9] })] })] }, _, rfl, rfl,
    by decide, rfl, by decide, by decide, by decide⟩⟩

/-- OtherLanes: lane numbers below and at GWIDTH. -/
theorem witness_other_lanes :
    (∃ x, (bench 0 1 1 [(4, 15)]).acting = some x ∧ x.plain ∧ x.level ≠ 0 ∧ x.lanes = [0] ∧
      (V (bench 0 1 1 [(4, 15)]) x 0 4).toNat = 15 ∧ 15 < x.gang.width ∧ x.gang.unsettled 15 4 = false ∧
      (x.gang.lane 15).live = true) ∧
    ∃ x, (bench 0 1 1 [(4, 16)]).acting = some x ∧ x.mayTrap ∧ x.gang.width ≤ (V (bench 0 1 1 [(4, 16)]) x 0 4).toNat ∧
      x.gang.unsettled 16 4 = false :=
  ⟨⟨_, rfl, ⟨by decide, rfl⟩, by decide, by decide, by decide, by decide, rfl, rfl⟩,
   ⟨_, rfl, ⟨by decide, by decide⟩, by decide, rfl⟩⟩

/-- Halts: a cohort of a tenant's team; at LEVEL 2 another tenant of the lease runs. -/
theorem witness_halts :
    (∃ x, (bench 0 1 1 []).acting = some x ∧ x.plain ∧ x.co.mask ≠ 0 ∧ x.team.tenant = some 0 ∧ x.level ≠ 0 ∧
      (assocGet? (bench 0 1 1 []).tenants (tkey x.team.lease 0)).isSome = true) ∧
    ∃ (s : State) (x : Acting), s.acting = some x ∧ x.level = 2 ∧ (V s x (x.lanes.headD 0) 4).toNat % 16 = 15 ∧
      2 ≤ (s.tenantOf (tkey x.team.lease 15)).state :=
  ⟨⟨_, rfl, ⟨by decide, rfl⟩, by decide, rfl, by decide, rfl⟩,
   ⟨(bench 0 1 2 [(4, 15)]).setTenant 15 { state := 2 }, _, rfl, rfl, by decide, by decide⟩⟩

/-- An access of lane 0 of the bench's gang under way to its home. -/
def benchAccess (op : AccOp) : Access :=
  { gang := 3, lane := 0, team := 2, core := 0, lease := 0, ten := 0, op := op, va := 0x2000, pa := 0x2000, kind := 0,
    mode := 0, attr := 0, size := 4, data := [1, 0, 0, 0], pc := ⟨0x1000, 0⟩ }

/-- The bench at LEVEL 2 with one lane, whose v4 holds 0x2000, the attribute of its pages, what its L1 holds of the line of
0x2000, and an access under way. -/
def benchLoad (attr view : Nat) (l : Option L1Line) (q : Option Access) : State :=
  { ((bench 0 1 2 [(4, 0x2000)]).onCore 0 (fun c => { c with l1 := l.toList.map (fun y => (0x80, y)) })).onTenant 0
      (fun t => { t with attrs := [(0, attr)], views := [(1, view)] }) with
    accesses := q.toList.map (fun x => (9, x)) }

/-- A copy of a line, with a stamp. -/
def benchCopyLine (n : Nat) : L1Line := { data := List.replicate 64 0, stamp := n, round := some 1 }

/-- A write of the bench's core to the word at 0x2004, under way. -/
def benchWrite : Access := { benchAccess .store with va := 0x2004, pa := 0x2004 }

/-- A load of the word at 0x2004 of a mode, with what its translation gives. -/
def LoadMeets (attr view : Nat) (l : Option L1Line) (q : Option Access) (p : State → Acting → State → Xlat → Prop) : Prop :=
  let s := benchLoad attr view l q
  ∃ (x : Acting) (u : State) (y : Xlat), s.acting = some x ∧ x.plain ∧ x.lanes = [0] ∧ x.level < 3 ∧ x.co.hold = false ∧
    x.mayTrap ∧ addrOf s x 0 4 1 4 = 0x2004 ∧ s.issue.xlate 0 x.ctx 0x2004 0 false = (u, .ok y) ∧ y.kind = 0 ∧
    u.pinOf (lineOf y.pa) = none ∧ u.reads0 y = false ∧ p s x u y

/-- A copy that meets a test. -/
theorem bench_line (o : Option L1Line) (p : L1Line → Bool) (h : o.any p = true) : ∃ ln, o = some ln ∧ p ln = true := by
  cases o with
  | none => cases h
  | some ln => exact ⟨ln, rfl, h⟩

/-- LoadsBegin: a load without a copy in the L1, one with a copy, and one whose bytes a write of the core makes pending. -/
theorem witness_loads :
    LoadMeets 0 0 none none (fun _ x u y => y.mode = 0 ∧ assocGet? (u.core x.gang.core).l1 (lineOf y.pa) = none ∧
      ∀ q ∈ u.accesses, q.2.gang ≠ x.gid ∧ q.2.core ≠ x.gang.core) ∧
    LoadMeets 0 0 (some (benchCopyLine 0)) none (fun _ x u y => y.mode = 0 ∧ u.marks = [] ∧ y.pa % 4 = 0 ∧
      (∀ q ∈ u.accesses, q.2.gang ≠ x.gid ∧ q.2.core ≠ x.gang.core) ∧
      (u.accesses.all (fun q => match q.2.phase with
        | .updating cs => !isIn cs x.gang.core
        | _ => true)) = true ∧ ∃ ln,
      assocGet? (u.core x.gang.core).l1 (lineOf y.pa) = some ln ∧ (!ln.leaving && ln.data.length == 64) = true) ∧
    LoadMeets 0 0 (some (benchCopyLine 0)) (some benchWrite) (fun _ x u y => WritePending u x.gang.core y.pa 4 ∧
      ∃ ln, assocGet? (u.core x.gang.core).l1 (lineOf y.pa) = some ln ∧ true = true) :=
  ⟨⟨_, _, _, rfl, ⟨by decide, rfl⟩, by decide, by decide, rfl, ⟨by decide, by decide⟩, by decide, rfl, rfl, rfl, rfl, rfl, rfl,
    by decide⟩,
   ⟨_, _, _, rfl, ⟨by decide, rfl⟩, by decide, by decide, rfl, ⟨by decide, by decide⟩, by decide, rfl, rfl, rfl, rfl, rfl, rfl,
    by decide, by decide, by decide, bench_line _ _ (by decide)⟩,
   ⟨_, _, _, rfl, ⟨by decide, rfl⟩, by decide, by decide, rfl, ⟨by decide, by decide⟩, by decide, rfl, rfl, rfl, rfl,
    ⟨9, benchWrite, by decide, by decide, rfl, rfl, rfl, rfl, by decide, by decide⟩, bench_line _ (fun _ => true) (by decide)⟩⟩

/-- BoundedLoads: a copy at the bound of the view, one beyond it, and one whose bytes a write of the core makes pending. -/
theorem witness_bounded :
    LoadMeets 0x11 5 (some (benchCopyLine 3)) none (fun _ x u y => y.mode = 1 ∧
      (u.tenantOf x.team.part).view (viewKeyCore x.gang.core y.round) = 5 ∧
      y.pa % 4 = 0 ∧ (∀ q ∈ u.accesses, q.2.core ≠ x.gang.core) ∧
      (∀ q ∈ u.accesses, q.2.gang = x.gid → q.2.phase ≠ .fill) ∧
      ∃ ln, assocGet? (u.core x.gang.core).l1 (lineOf y.pa) = some ln ∧
        (!ln.leaving && ln.stamp == 3 && ln.data.length == 64) = true) ∧
    LoadMeets 0x11 5 (some (benchCopyLine 2)) none (fun _ x u y => y.mode = 1 ∧
      (u.tenantOf x.team.part).view (viewKeyCore x.gang.core y.round) = 5 ∧ (∀ q ∈ u.accesses, q.2.core ≠ x.gang.core) ∧
      ∃ ln, assocGet? (u.core x.gang.core).l1 (lineOf y.pa) = some ln ∧ (ln.stamp == 2) = true) ∧
    LoadMeets 0x11 5 (some (benchCopyLine 3)) (some benchWrite) (fun _ x u y => y.mode = 1 ∧
      (∃ ln, assocGet? (u.core x.gang.core).l1 (lineOf y.pa) = some ln ∧ true = true) ∧ WritePending u x.gang.core y.pa 4) :=
  ⟨⟨_, _, _, rfl, ⟨by decide, rfl⟩, by decide, by decide, rfl, ⟨by decide, by decide⟩, by decide, rfl, rfl, rfl, rfl, rfl,
    by decide, by decide, by decide, by decide, bench_line _ _ (by decide)⟩,
   ⟨_, _, _, rfl, ⟨by decide, rfl⟩, by decide, by decide, rfl, ⟨by decide, by decide⟩, by decide, rfl, rfl, rfl, rfl, rfl,
    by decide, by decide, bench_line _ _ (by decide)⟩,
   ⟨_, _, _, rfl, ⟨by decide, rfl⟩, by decide, by decide, rfl, ⟨by decide, by decide⟩, by decide, rfl, rfl, rfl, rfl, rfl,
    bench_line _ (fun _ => true) (by decide), 9, benchWrite, by decide, by decide, rfl, rfl, rfl, rfl, by decide, by decide⟩⟩

/-- An atomic of lane 0 of the bench to 0x2000 under way. -/
def benchAtomic : Access := { benchAccess (.atomic 0) with va := 0x2000 }

/-- AtomicsBegin, StoresBegin, SumRangeWords: an address that translates for a write, in mode 0 and in mode 2, and one of
a line to which an atomic of the lane is under way; a discarded page that is being filled. -/
theorem witness_writes :
    (∃ (s : State) (x : Acting) (u : State) (y : Xlat), s.acting = some x ∧ x.plain ∧ x.lanes = [0] ∧ x.level < 3 ∧
      P s x 0 4 = 0x2000 ∧ x.co.done = 0 ∧ 1 ≤ s.sfqFree x.gang.core ∧
      (s.issue.onCohort (fun c => { c with done := x.co.mask, num := x.gang.seq + 1 })).xlate 0 x.ctx 0x2000 3 false = (u, .ok y) ∧ y.kind = 0 ∧
      y.mode = 0 ∧ s.accessPending x.gid x.co.mask 3 = false ∧ s.dueRecords x.gid x.co.mask true = []) ∧
    (∃ (x : Acting) (u : State) (y : Xlat), (bench 0 1 2 [(4, 0x2000)]).acting = some x ∧
      (bench 0 1 2 [(4, 0x2000)]).issue.xlate 0 x.ctx 0x2000 3 false = (u, .ok y) ∧ y.kind = 0 ∧
      ∀ q ∈ u.accesses, q.2.gang = x.gid → lineOf q.2.pa ≠ lineOf y.pa) ∧
    (∃ (x : Acting) (u : State) (y : Xlat), (benchLoad 0 0 none (some benchAtomic)).acting = some x ∧
      (benchLoad 0 0 none (some benchAtomic)).issue.xlate 0 x.ctx 0x2000 3 false = (u, .ok y) ∧ y.kind = 0 ∧
      (9, benchAtomic) ∈ u.accesses ∧ 9 < u.nextId ∧ benchAtomic.phase = .toHome ∧
      lineOf benchAtomic.pa = lineOf y.pa) ∧
    (∃ (x : Acting) (u : State) (y : Xlat), (bench 0 1 2 [(4, 0x2000)]).acting = some x ∧
      addrOf (bench 0 1 2 [(4, 0x2000)]) x 0 4 0 16 = 0x2000 ∧
      ((bench 0 1 2 [(4, 0x2000)]).issue.onCohort (fun c => { c with done := x.co.mask, num := x.gang.seq + 1 })).xlate 0 x.ctx 0x2000 1 false =
        (u, .ok y) ∧ y.kind = 0) ∧
    (∃ (s : State) (x : Acting) (u : State) (y : Xlat), s.acting = some x ∧
      (s.issue.onCohort (fun c => { c with done := x.co.mask, num := x.gang.seq + 1 })).xlate 0 x.ctx 0x2000 3 false = (u, .ok y) ∧ y.kind = 0 ∧
      y.mode = 2 ∧ ¬ (u.reads0 y = true ∨ y.pa / 2 ^ 16 ∈ u.fills ∨ u.wordUnder x.gid 0 y.pa 4 = true) ∧ u.hasRoom x.gang.core (lineOf y.pa) = true) ∧
    ∃ (s : State) (x : Acting) (u : State) (y : Xlat), s.acting = some x ∧
      (s.issue.onCohort (fun c => { c with done := x.co.mask, num := x.gang.seq + 1 })).xlate 0 x.ctx 0x2000 3 false = (u, .ok y) ∧ y.kind = 0 ∧
      y.mode = 2 ∧ (y.pa / 2 ^ 16 ∈ u.fills ∨ u.wordUnder x.gid 0 y.pa 4 = true) :=
  ⟨⟨bench 0 1 2 [(4, 0x2000)], _, _, _, rfl, ⟨by decide, rfl⟩, by decide, by decide, by decide, rfl, by decide, rfl, rfl, rfl, rfl, rfl⟩,
   ⟨_, _, _, rfl, rfl, rfl, by decide⟩, ⟨_, _, _, rfl, rfl, rfl, by decide, by decide, rfl, rfl⟩,
   ⟨_, _, _, rfl, by decide, rfl, rfl⟩,
   ⟨benchLoad 2 0 none none, _, _, _, rfl, rfl, rfl, rfl, by decide, by decide⟩,
   ⟨{ benchLoad 2 0 none none with fills := [0] }, _, _, _, rfl, rfl, rfl, rfl, by decide⟩⟩

/-- AtomicsBegin, StoresBegin: an address that translates once a release has begun. SumRangeWords: an access of the lane to the
element that has not been executed. -/
theorem witness_releases :
    (∃ (x : Acting) (u : State) (y : Xlat), (bench 0 1 2 [(4, 0x2000)]).acting = some x ∧
      (bench 0 1 2 [(4, 0x2000)]).beginWord.issue.xlate 0 x.ctx 0x2000 3 false = (u, .ok y) ∧ y.kind = 0 ∧
      (bench 0 1 2 [(4, 0x2000)]).accessPending x.gid x.co.mask 3 = false ∧
      (bench 0 1 2 [(4, 0x2000)]).dueRecords x.gid x.co.mask true = []) ∧
    (∃ (x : Acting) (u : State) (y : Xlat), (bench 0 1 2 [(4, 0x2000)]).acting = some x ∧
      ((bench 0 1 2 [(4, 0x2000)]).beginWord.issue.onCohort (fun c => { c with done := x.co.mask, num := x.gang.seq + 1 })).xlate 0
        x.ctx 0x2000 3 false = (u, .ok y) ∧ y.kind = 0) ∧
    ∃ (x : Acting) (u : State) (y : Xlat), (benchLoad 2 0 none (some (benchAccess .store))).acting = some x ∧
      ((benchLoad 2 0 none (some (benchAccess .store))).issue.onCohort (fun c => { c with done := x.co.mask, num := x.gang.seq + 1 })).xlate 0
        x.ctx 0x2000 3 false = (u, .ok y) ∧ y.kind = 0 ∧ y.mode = 2 ∧ u.wordUnder x.gid 0 y.pa 4 = true :=
  ⟨⟨_, _, _, rfl, rfl, rfl, rfl, rfl⟩, ⟨_, _, _, rfl, rfl, rfl⟩, ⟨_, _, _, rfl, rfl, rfl, rfl, by decide⟩⟩

/-- MisalignedAccess: an address one byte beyond each alignment. -/
theorem witness_misaligned : ∃ x, (bench 0 1 0 [(4, 0x2001)]).acting = some x ∧ x.plain ∧ x.lanes = [0] ∧ x.level < 3 ∧
    x.mayTrap ∧ x.co.done = 0 ∧ 1 ≤ (bench 0 1 0 [(4, 0x2001)]).sfqFree x.gang.core ∧
    ((bench 0 1 0 [(4, 0x2001)]).core x.gang.core).sfq = [] ∧
    (∀ n ∈ [2, 4, 8, 16], addrOf (bench 0 1 0 [(4, 0x2001)]) x 0 4 0 n % n ≠ 0) ∧ P (bench 0 1 0 [(4, 0x2001)]) x 0 4 % 4 ≠ 0 ∧
    P (bench 0 1 0 [(4, 0x2001)]) x 0 4 % 8 ≠ 0 ∧
    (∀ n ∈ [4, 8, 16], (P (bench 0 1 0 [(4, 0x2001)]) x 0 4 + 63 * n) % 2 ^ 64 % n ≠ 0) ∧
    (bench 0 1 0 [(4, 0x2001)]).accessPending x.gid x.co.mask 3 = false ∧
    (bench 0 1 0 [(4, 0x2001)]).dueRecords x.gid x.co.mask true = [] :=
  ⟨_, rfl, ⟨by decide, rfl⟩, by decide, by decide, ⟨by decide, by decide⟩, rfl, by decide, rfl, by decide, by decide, by decide,
    by decide, rfl, rfl⟩

/-- ScratchLoads, ScratchStores, ScratchAtomics: the last word of a window, without an error and with one, and the first
beyond it. -/
theorem witness_scratch :
    (∃ x, (bench 0 1 0 [(4, 4092)]).acting = some x ∧ x.plain ∧ x.team.paired = false ∧ x.gang.core = x.team.core ∧
      x.lanes = [0] ∧ x.co.done = 0 ∧ 1 ≤ (bench 0 1 0 [(4, 4092)]).sfqFree x.gang.core ∧
      memCanon ((bench 0 1 0 [(4, 4092)]).core x.gang.core).abuf = true ∧
      memCanon ((bench 0 1 0 [(4, 4092)]).core x.gang.core).wbuf = true ∧
      ((bench 0 1 0 [(4, 4092)]).core x.gang.core).aBad = [] ∧
      errIn ((bench 0 1 0 [(4, 4092)]).core x.gang.core).aErr (x.team.abase + 4092) 4 = false ∧
      errIn [4088] (x.team.abase + 4092) 4 = true ∧ x.team.abase + x.team.asize ≤ 2 ^ 20 ∧
      (∀ y ∈ (bench 0 1 0 [(4, 4092)]).accesses, y.2.scratchOf x.gid x.co.mask = false) ∧
      ((bench 0 1 0 [(4, 4092)]).core x.gang.core).olds = [] ∧
      (V (bench 0 1 0 [(4, 4092)]) x 0 4).toNat < x.team.asize ∧ (V (bench 0 1 0 [(4, 4092)]) x 0 4).toNat % 4 = 0) ∧
    ∃ x, (bench 0 1 0 [(4, 4096)]).acting = some x ∧ x.mayTrap ∧ (V (bench 0 1 0 [(4, 4096)]) x 0 4).toNat % 16 = 0 ∧
      ¬ (V (bench 0 1 0 [(4, 4096)]) x 0 4).toNat < x.team.asize :=
  ⟨⟨_, rfl, ⟨by decide, rfl⟩, rfl, rfl, by decide, rfl, by decide, rfl, rfl, rfl, by decide, by decide, by decide, by decide, rfl, by decide, by decide⟩,
   ⟨_, rfl, ⟨by decide, by decide⟩, by decide, by decide⟩⟩

/-- ScratchLoads, ScratchStores: a write of another gang that the lane has acquired. -/
theorem witness_scratch_olds : ∃ (s : State) (x : Acting) (e : OldUnit), s.acting = some x ∧ (s.core x.gang.core).olds = [e] ∧
    e.gang ≠ x.gid ∧ e.before x.gid (x.gang.lane 0).vc = true :=
  ⟨(benchGang 1 0 [] (fun g => g.mapLanes 1 (fun _ y => { y with vc := [(77, 5)] }))).onCore 0 (fun c => { c with olds := [{ wbuf := false, unit := 1023, bytes := [0, 0, 0, 0], mask := [0], gang := 7, party := 77, clk := 5 }] }), _, _,
    rfl, rfl, by decide, by decide⟩

/-- FencesAndDrains: nothing outstanding; a load and a store outstanding; a pinned line. -/
theorem witness_fences :
    (∃ x, (bench 0 1 0 []).acting = some x ∧ x.plain ∧ x.co.mask ≠ 0 ∧ (∀ r ∈ x.gang.results, r.2.isLoad = true → r.2.lane ∉ x.lanes) ∧
      (bench 0 1 0 []).dueRecords x.gid x.co.mask true = [] ∧ (bench 0 1 0 []).accessPending x.gid x.co.mask 3 = false ∧
      ((bench 0 1 0 []).core x.team.core).pins = [] ∧ (bench 0 1 0 []).storesPending x.gid x.co.mask 2 = false) ∧
    (∃ (s : State) (x : Acting), s.acting = some x ∧
      ¬ (∀ r ∈ x.gang.results, r.2.isLoad = true → r.2.lane ∉ x.lanes) ∧ s.accessPending x.gid x.co.mask 0 = true ∧
      s.storesPending x.gid x.co.mask 2 = true) ∧
    ∃ (s : State) (x : Acting) (p : Pin), s.acting = some x ∧ (s.core x.team.core).pins = [(0x80, p)] ∧ p.team = x.gang.team ∧
      p.data.length = 64 ∧ memCanon s.mem = true ∧ s.dueRecords x.gid x.co.mask true = [] ∧
      s.accessPending x.gid x.co.mask 1 = false :=
  ⟨⟨_, rfl, ⟨by decide, rfl⟩, by decide, by decide, rfl, rfl, rfl, rfl⟩,
   ⟨{ benchGang 1 0 [] (fun g => { g with results := [(8, ⟨0, 4, 1, none, false, true, false, none⟩)] }) with
        accesses := [(9, benchAccess .store)] }, _, rfl, by decide, rfl, rfl⟩,
   ⟨(bench 0 1 0 []).onCore 0 (fun c => { c with pins := [(0x80, { team := 2, data := List.replicate 64 1 })] }), _, _,
    rfl, rfl, rfl, by decide, by decide, rfl, rfl⟩⟩

/-- RoundWords: a counter below its limit and at it; a round that has come, and one that has not. -/
theorem witness_rounds :
    (∃ x, (bench 0 1 0 [(4, 1)]).acting = some x ∧ x.plain ∧ x.co.mask ≠ 0 ∧ x.mayTrap ∧
      assocGet 0 ((bench 0 1 0 [(4, 1)]).tenantOf x.team.part).cnt 31 = 0 ∧
      (bench 0 1 0 [(4, 1)]).accessPending x.gid x.co.mask 2 = false ∧
      (bench 0 1 0 [(4, 1)]).dueRecords x.gid x.co.mask true = [] ∧ ∃ l ∈ x.lanes, 0 < (V (bench 0 1 0 [(4, 1)]) x l 4).toNat) ∧
    ∃ (s : State) (x : Acting), s.acting = some x ∧ x.mayTrap ∧ assocGet 0 (s.tenantOf x.team.part).cnt 31 = 0xFFFFFFFF ∧
      s.accessPending x.gid x.co.mask 2 = false ∧ s.dueRecords x.gid x.co.mask true = [] ∧
      ∀ l ∈ x.lanes, (V s x l 4).toNat ≤ 0xFFFFFFFF :=
  ⟨⟨_, rfl, ⟨by decide, rfl⟩, by decide, ⟨by decide, by decide⟩, rfl, rfl, rfl, 0, by decide, by decide⟩,
   ⟨(bench 0 1 0 []).onTenant 0 (fun t => { t with cnt := [(31, 0xFFFFFFFF)] }), _, rfl, ⟨by decide, by decide⟩, rfl, rfl, rfl,
    by decide⟩⟩

/-- The bench with a monitor in lane 0. -/
def benchMonitor (fired lapsed : Bool) : State :=
  benchGang 1 0 [(4, 0), (5, 9)] (fun g => g.mapLanes 1 (fun _ y =>
    { y with monitor := some { line := 0x80, va := 0x2000, fired := fired, lapsed := lapsed } }))

/-- The bench at LEVEL 2 whose line of 0x2000 another team pins, after n refusals. -/
def benchPinned (n : Nat) : State :=
  ((bench 0 1 2 [(4, 0x2000)]).onCohort (fun c => { c with mark := n })).onCore 1 (fun c => { c with
    pins := [(0x80, { team := 7, data := List.replicate 64 0 })] })

/-- A line that a team pins. -/
theorem bench_pin (o : Option (Nat × Pin)) (t : Nat) (h : o.any (fun p => p.2.team != t) = true) :
    ∃ c p, o = some (c, p) ∧ p.team ≠ t := by
  obtain _ | ⟨c, p⟩ := o
  · cases h
  · exact ⟨c, p, rfl, bne_iff_ne.mp h⟩

/-- MonitorWords: an address to monitor, and one that another team pins; no monitor; one that waits, one that fired and one that lapsed. -/
theorem witness_monitors :
    (∃ (x : Acting) (u : State) (y : Xlat), (bench 0 1 2 [(4, 0x2000)]).acting = some x ∧ x.plain ∧ x.lanes = [0] ∧
      x.level < 3 ∧ P (bench 0 1 2 [(4, 0x2000)]) x 0 4 = 0x2000 ∧
      (bench 0 1 2 [(4, 0x2000)]).xlate 0 x.ctx 0x2000 0 false = (u, .ok y) ∧
      y.kind ≠ 1 ∧ (bench 0 1 2 [(4, 0x2000)]).pinOf (lineOf y.pa) = none ∧ u.monRegs.length < 4096 ∧
      (x.gang.lane 0).monitor = none ∧ x.co.done = 0 ∧ x.co.nextTry ≤ (bench 0 1 2 [(4, 0x2000)]).enabled x.gang.core) ∧
    (∀ n ∈ [0, 16382, 16383], ∃ (s : State) (x : Acting) (u : State) (y : Xlat), s.acting = some x ∧ x.mayTrap ∧
      x.co.done = 0 ∧ x.co.mark = n ∧ x.co.nextTry ≤ s.enabled x.gang.core ∧
      s.xlate 0 x.ctx 0x2000 0 false = (u, .ok y) ∧ y.kind ≠ 1 ∧ ∃ c p, s.pinOf (lineOf y.pa) = some (c, p) ∧ p.team ≠ x.gang.team) ∧
    ∀ fired lapsed, ∃ (s : State) (x : Acting) (m : Monitor), s.acting = some x ∧ x.lanes = [0] ∧ x.mayTrap ∧
      (x.gang.lane 0).monitor = some m ∧ m.fired = fired ∧ m.lapsed = lapsed ∧ V s x 0 4 = 0 ∧ V s x 0 5 ≠ 0 :=
  ⟨⟨_, _, _, rfl, ⟨by decide, rfl⟩, by decide, by decide, by decide, rfl, by decide, rfl, by decide, rfl, rfl, by decide⟩,
   by
    intro n h
    rcases List.mem_cons.mp h with rfl | h
    · exact ⟨benchPinned 0, _, _, _, rfl, ⟨by decide, by decide⟩, rfl, by decide, by decide, rfl, by decide, bench_pin _ _ (by decide)⟩
    · rcases List.mem_cons.mp h with rfl | h
      · exact ⟨benchPinned 16382, _, _, _, rfl, ⟨by decide, by decide⟩, rfl, by decide, by decide, rfl, by decide, bench_pin _ _ (by decide)⟩
      · cases List.mem_singleton.mp h
        exact ⟨benchPinned 16383, _, _, _, rfl, ⟨by decide, by decide⟩, rfl, by decide, by decide, rfl, by decide, bench_pin _ _ (by decide)⟩,
   fun fired lapsed => by
    cases fired <;> cases lapsed <;> exact ⟨benchMonitor _ _, _, _, rfl, by decide, ⟨by decide, by decide⟩, rfl, rfl, rfl,
      rfl, by decide⟩⟩

/-- CacheWords: an address on DRAM; a page to discard for each status, and an offset within a page. -/
theorem witness_caches :
    (∃ (x : Acting) (u : State) (y : Xlat), (bench 0 1 2 [(4, 0x2000)]).acting = some x ∧ x.plain ∧ x.lanes = [0] ∧ x.mayTrap ∧
      (bench 0 1 2 [(4, 0x2000)]).issue.xlate 0 x.ctx 0x2000 0 false = (u, .ok y) ∧ y.kind = 0 ∧ y.pa < 84 * 2 ^ 35 ∧
      y.mode = 0 ∧ u.reads0 y = false ∧ u.pinOf (lineOf y.pa) = none ∧ (u.tenantOf x.team.part).refill = 0 ∧
      (bench 0 1 2 [(4, 0x2000)]).storesPending x.gid x.co.mask 2 = false ∧
      P (bench 0 1 2 [(4, 0x2000)]) x 0 4 % 2 ^ 16 ≠ 0 ∧ u.inL2 (lineOf y.pa) = false ∧
      x.gang.core ∉ assocGet [] u.holders (lineOf y.pa)) ∧
    (∃ (s : State) (x : Acting) (u : State) (y : Xlat), s.acting = some x ∧ s.issue.xlate 0 x.ctx 0x2000 0 false = (u, .ok y) ∧
      y.kind = 0 ∧ u.inL2 (lineOf y.pa) = true) ∧
    (∃ (x : Acting) (y : Xlat), (bench 0 1 1 [(4, 0x30000)]).acting = some x ∧ P (bench 0 1 1 [(4, 0x30000)]) x 0 4 % 2 ^ 16 = 0 ∧
      (bench 0 1 1 [(4, 0x30000)]).issue.translate x.ctx 0x30000 1 false = .ok y ∧ y.kind ≠ 1 ∧ x.level < 2 ∧
      y.tabled = true ∧ y.leaves.l1 ≠ 3) ∧
    ∃ (x : Acting) (y : Xlat), (bench 0 1 3 [(4, 0x30000)]).acting = some x ∧ x.level = 3 ∧
      (bench 0 1 3 [(4, 0x30000)]).issue.translate x.ctx 0x30000 1 false = .ok y ∧ y.kind ≠ 1 :=
  ⟨⟨_, _, _, rfl, ⟨by decide, rfl⟩, by decide, ⟨by decide, by decide⟩, rfl, rfl, by decide, rfl, rfl, rfl, rfl, rfl, by decide, rfl,
    by decide⟩,
   ⟨{ bench 0 1 2 [(4, 0x2000)] with l2 := [(0x80, ⟨0, false, false⟩)] }, _, _, _, rfl, rfl, rfl, rfl⟩,
   ⟨_, _, rfl, by decide, rfl, by decide, by decide, rfl, by decide⟩, ⟨_, _, rfl, rfl, rfl, by decide⟩⟩

/-- SemaphoreWords: a sum at its limit and one past it; a value that suffices and one that does not; an error; a number
of an unpaired team, and of a paired one. -/
theorem witness_semaphores :
    (∃ (s : State) (x : Acting), s.acting = some x ∧ x.plain ∧ x.co.mask ≠ 0 ∧ x.gang.due = [] ∧ x.mayTrap ∧
      x.team.paired = false ∧ (s.sem (0, 1)).value + (V s x x.leader 4).toNat = 2 ^ 32 - 1 ∧
      2 ^ 32 ≤ (s.sem (0, 1)).value + (V s x x.leader 5).toNat ∧ (V s x x.leader 4).toNat ≤ (s.sem (0, 1)).value ∧
      (s.sem (0, 1)).value < (V s x x.leader 6).toNat ∧ (s.sem (0, 1)).err = false ∧ (s.sem (0, 2)).err = true ∧
      s.accessPending x.gid x.co.mask 2 = false ∧ s.dueRecords x.gid x.co.mask true = []) ∧
    ∃ (s : State) (x : Acting), s.acting = some x ∧ x.team.paired = true ∧ (64 : Fin 128).val - 64 = 0 :=
  ⟨⟨(bench 0 3 0 [(4, 0xF), (5, 0x10), (6, 0xFFFFFFF1)]).onCore 0 (fun c => { c with
      sems := [(1, { value := 0xFFFFFFF0 }), (2, { err := true })] }), _, rfl, ⟨by decide, rfl⟩, by decide, rfl,
      ⟨by decide, by decide⟩, rfl, by decide, by decide, by decide, by decide, rfl, rfl, rfl, rfl⟩,
   ⟨(bench 0 3 0 []).onTeam 2 (fun t => { t with paired := true }), _, rfl, rfl, rfl⟩⟩

/-- The bench whose route 0 has two stations, with core 0 at station 0 or at station 1, a FIFO and a segment in flight. -/
def benchRoute (i : Nat) (r : Route) (p : Nat) : State :=
  (bench 0 1 p []).onTenant 0 (fun t => { t with routes := [(0, { r with words :=
    [(0, 2 ^ 63 + 2 ^ 32), (2, if i = 0 then 0x10000 else 1)] })] })

/-- The same with a gang of 64 lanes, all of them in its cohort. -/
def benchWide (i : Nat) (r : Route) : State :=
  (benchRoute i r 0).onGang 3 (fun g => { g with
    width := 64, lanes := List.replicate 64 { pc := ⟨0x1000, 0⟩ }, cohorts := g.cohorts.map (fun c => (c.1, { c.2 with mask := -1 })) })

/-- StaticRoutes: 512 and 256 words of 64 lanes, the last station of a route, and a broken one; at the first station with room for one word and without, and at the second with a word and without;
a route that is not enabled; a word under way, a break, and a write of the entry's word. -/
theorem witness_routes :
    (∀ n ∈ [255, 256], ∃ (x : Acting), (benchRoute 0 { fifos := [(1, List.replicate n 7)] } 0).acting = some x ∧ x.plain ∧
      x.co.mask ≠ 0 ∧ x.gang.due = [] ∧ x.team.tenant = some 0 ∧ x.lanes.length = 1 ∧
      (benchRoute 0 { fifos := [(1, List.replicate n 7)] } 0).stationIn x.team.lease 0 0 x.gang.core = some 0 ∧
      ((benchRoute 0 { fifos := [(1, List.replicate n 7)] } 0).route 0 0 0).en = true ∧
      0 < ((benchRoute 0 { fifos := [(1, List.replicate n 7)] } 0).route 0 0 0).last) ∧
    (∀ q ∈ [[], [7]], ∃ (x : Acting), (benchRoute 1 { fifos := [(1, q)] } 0).acting = some x ∧ x.plain ∧
      (benchRoute 1 { fifos := [(1, q)] } 0).stationIn x.team.lease 0 0 x.gang.core = some 1 ∧
      ((benchRoute 1 { fifos := [(1, q)] } 0).route 0 0 0).en = true ∧
      ((benchRoute 1 { fifos := [(1, q)] } 0).route 0 0 0).broken = false ∧ x.mayTrap ∧
      ((benchRoute 1 { fifos := [(1, q)] } 0).route 0 0 0).last ≤ 1) ∧
    (∀ i ∈ [0, 1], ∀ broken, ∃ (x : Acting), (benchWide i { broken := broken }).acting = some x ∧ x.mayTrap ∧
      (benchWide i { broken := broken }).stationIn x.team.lease 0 0 x.gang.core = some i ∧ x.lanes.length * (7 + 1) = 512 ∧
      x.lanes.length * (3 + 1) = 256 ∧ ((benchWide i { broken := broken }).route 0 0 0).en = true ∧
      ((benchWide i { broken := broken }).route 0 0 0).broken = broken ∧
      ((benchWide i { broken := broken }).route 0 0 0).last = 1) ∧
    (∃ (x : Acting), (benchRoute 1 { broken := true, fifos := [(1, [7])] } 0).acting = some x ∧ x.lanes.length = 1 ∧
      assocGet [] ((benchRoute 1 { broken := true, fifos := [(1, [7])] } 0).route 0 0 0).fifos 1 = [7]) ∧
    (∃ (s : State) (x : Acting), s.acting = some x ∧ x.mayTrap ∧ s.stationIn x.team.lease 0 0 x.gang.core = some 0 ∧
      (s.route 0 0 0).en = false) ∧
    ∃ (s : State), (assocGet? s.tenants (tkey 0 0)).isSome = true ∧ (s.lease? 0).isSome = true ∧ (s.route 0 0 0).en = true ∧
      assocGet [] (s.route 0 0 0).flight 1 = [7] ∧ (∃ p ∈ (s.route 0 0 0).flight, p.2 ≠ []) ∧ (s.route 0 0 5).en = false ∧
      ∀ p ∈ (s.route 0 0 5).flight, p.2 = [] := by
  refine ⟨?_, ?_, ?_, ⟨_, rfl, by decide, by decide⟩, ?_, benchRoute 0 { flight := [(1, [7])] } 0, by decide, by decide, by decide, by decide, by decide,
    by decide, by decide⟩
  · intro n h
    fin_cases h
    all_goals exact ⟨_, rfl, ⟨by decide, rfl⟩, by decide, rfl, rfl, by decide, by decide, by decide, by decide⟩
  · intro q h
    fin_cases h
    all_goals exact ⟨_, rfl, ⟨by decide, rfl⟩, by decide, by decide, by decide, ⟨by decide, by decide⟩, by decide⟩
  · intro i h broken
    fin_cases h <;> cases broken
    all_goals exact ⟨_, rfl, ⟨by decide, by decide⟩, by decide, by decide, by decide, by decide, by decide, by decide⟩
  · exact ⟨(bench 0 1 0 []).onTenant 0 (fun t => { t with routes := [(0, { words := [(0, 2 ^ 32), (2, 0x10000)] })] }), _,
      rfl, ⟨by decide, by decide⟩, by decide, by decide⟩

/-- A record of a bench whose lane 0 holds an address in v4, a queue number or slot in v5, and whose tenant has a queue. -/
def benchQueue (a q : Word) (en : Bool) : State :=
  (bench 0 1 0 [(4, a), (5, q)]).onTenant 0 (fun t => { t with
    queuesW := 0x10000, queues := [(0, { en := en, qbase := 0x3000, logsz := 6 })] })

/-- WorkWords: a queue the tenant lacks, one without appends, an address that names no record; an item array, a shape
slot within the tenant's and past them. -/
theorem witness_work :
    (∃ (x : Acting), (benchQueue 0x2000 1 true).acting = some x ∧ x.plain ∧ x.co.mask ≠ 0 ∧ x.gang.due = [] ∧
      x.lanes = [0] ∧ x.team.tenant = some 0 ∧ (benchQueue 0x2000 1 true).accessPending x.gid x.co.mask 2 = false ∧
      (benchQueue 0x2000 1 true).dueRecords x.gid x.co.mask true = [] ∧ (benchQueue 0x2000 1 true).queueCount (.tenant 0 0) ≤ 1) ∧
    (∃ (x : Acting), (benchQueue 0x2000 0 false).acting = some x ∧ 0 < (benchQueue 0x2000 0 false).queueCount (.tenant 0 0) ∧
      ((benchQueue 0x2000 0 false).queueOf (.tenant 0 0) 0).en = false) ∧
    (∃ (x : Acting), (benchQueue 0x2004 0 true).acting = some x ∧ (benchQueue 0x2004 0 true).domAccepts (.tenant 0 0) = true ∧
      ((benchQueue 0x2004 0 true).queueOf (.tenant 0 0) 0).en = true ∧ P (benchQueue 0x2004 0 true) x 0 4 % 64 ≠ 0) ∧
    (∃ (x : Acting) (u : State) (y : Xlat), (bench 0 1 2 [(4, 0x2000)]).acting = some x ∧ x.lanes = [0] ∧ x.level < 3 ∧
      P (bench 0 1 2 [(4, 0x2000)]) x 0 4 % 64 = 0 ∧
      (bench 0 1 2 [(4, 0x2000)]).beginWord.issue.xlate 0 x.ctx 0x2010 3 false = (u, .ok y) ∧ y.kind = 0 ∧
      ∀ q ∈ u.accesses, q.2.gang = x.gid → lineOf q.2.pa ≠ lineOf y.pa) ∧
    (∃ (x : Acting) (y : Launch), (bench 0 1 0 []).acting = some x ∧ x.lanes = [0] ∧
      (bench 0 1 0 []).launch? x.team.launch = some y ∧ y.desc.item = true ∧ ((bench 0 1 0 []).core x.gang.core).items.length < 4096) ∧
    ∃ (s : State) (x : Acting) (y : Launch), s.acting = some x ∧ s.launch? x.team.launch = some y ∧
      4096 ≤ (s.core x.gang.core).items.length ∧ s.shapeSlots x.team ≤ (V s x x.leader 5).toNat ∧ x.mayTrap ∧
      (V s x x.leader 4).toNat < s.shapeSlots x.team :=
  ⟨⟨_, rfl, ⟨by decide, rfl⟩, by decide, rfl, by decide, rfl, rfl, rfl, by decide⟩,
   ⟨_, rfl, by decide, by decide⟩, ⟨_, rfl, by decide, by decide, by decide⟩, ⟨_, _, _, rfl, by decide, by decide, by decide, rfl, rfl, by decide⟩,
   ⟨_, _, rfl, by decide, rfl, rfl, by decide⟩,
   ⟨(bench 0 1 0 [(4, 3), (5, 4)]).onCore 0 (fun c => { c with items := List.replicate 4096 (1, 9) }), _, _, rfl, rfl,
    by decide, by decide, ⟨by decide, by decide⟩, by decide⟩⟩

/-- The bench with a record cached in quad 0 as slot 1: 4 words of 32 bits in the window of ABUF. Lane 0 holds operands in
v4 on. -/
def benchEngine (regs : List (Nat × Word)) : State :=
  { bench 0 1 0 regs with quads := [(0, { shapes := [⟨0, 1,
    [0, 0x001B0000, 4, 1, 1, 1, 1, 0, 0, 0, 0, 0x10004, 0x10001, 0x10001, 0, 0x80000001]⟩] })] }

/-- A copy of 4 words into ABUF by the bench's cohort. -/
def benchCopy (pos : Nat) (e : Option (Nat × Nat × Nat)) : Copy :=
  { gang := 3, mask := 1, team := 2, lease := 0, ten := 0, xten := some 0, level := 0, core := 0, op := 5, pos := pos,
    recs := [[0, 0x001B0000, 4, 1, 1, 1, 1, 0, 0, 0, 0, 0x10004, 0x10001, 0x10001, 0, 0x80000001]],
    args := [0x1001, 7, 0, 0x100], stopped := e }

/-- A matrix command of the bench's cohort on tile 1: a clear or a multiplication of 128 x 64 by 64 x 128. -/
def benchMatrix (op : Nat) (done : Bool) : MCmd :=
  { uid := 8, gang := 3, mask := 1, team := 2, lease := 0, ten := 0, level := 0, core := 0, home := 0, op := op,
    args := if op = 3 then [1, 0x100, 0, 0, 0] else [0x1001, 0x2001, 1, 0x100, 0], done := done,
    recs := if op = 3 then [] else
      [[0, 0x00240000, 64, 128, 1, 1, 1, 64, 0, 0, 0, 0x800040, 0x10001, 0x10001, 0, 0x80000001],
       [0, 0x00A40000, 128, 64, 1, 1, 1, 64, 0, 0, 0, 0x400080, 0x10001, 0x20001, 0, 0x80000001]] }

/-- A copy of 4 words from the A-buffer to the W-buffer. -/
def benchElement : Copy :=
  { benchCopy 0 none with
    op := 0
    recs := [[0, 0x001B0000, 4, 1, 1, 1, 1, 0, 0, 0, 0, 0x10004, 0x10001, 0x10001, 0, 0x80000001],
      [0, 0x001B0000, 4, 1, 1, 1, 1, 0, 0, 0, 0, 0x10004, 0x10001, 0x20001, 0, 0x80000001]] }

/-- The bench with engines that run commands. -/
def benchRuns (cs : List (Nat × Copy)) (ms : List MCmd) : State :=
  { (bench 0 1 0 []).onTenant 0 (fun t => { t with flags := 4 }) with
    quads := [(0, { copies := cs, arrays := [(0, { part := some 0, queue := ms })] })] }

/-- An epilogue of tile 1 into 128 x 128 bytes of the A-buffer, with some poisoned rows. -/
def benchEpilogue (p : List Nat) : State :=
  let s := benchRuns [] [{ benchMatrix 4 false with
    args := [1, 0, 0x3F800000, 0x100, 0]
    recs := [[0, 0x00230000, 128, 128, 1, 1, 1, 128, 0, 0, 0, 0x800080, 0x10001, 0x10001, 0, 0x80000001]] }]
  (s.onTeam 2 (fun t => { t with asize := 0x8000 })).onArray 0 0 (fun a => { a with poison := p })

/-- A multiplication of both arrays of quad 0. -/
def benchBoth : State :=
  let a : Array := { part := some 0, queue := [benchMatrix 1 false] }
  { benchRuns [] [] with quads := [(0, { arrays := [(0, a), (1, a)] })] }

/-- The bench once its copy is at the check of its records, and once its matrix command is. -/
def benchAsks (regs : List (Nat × Word)) : State :=
  (((benchEngine regs).onCohort (fun c => { c with mark := 1 })).issue.fresh).2

def benchFirst (regs : List (Nat × Word)) : State := ((benchEngine regs).issue.fresh).2

/-- EngineCommands, EngineSteps: a handle that passes every check, a stale one, a full engine, a clear of tile 3, a
reserved bit, and a full array. -/
theorem witness_commands :
    (∃ (x z : Acting) (u : State) (recs : List (List Nat)), (benchEngine [(4, 0x1001)]).acting = some x ∧ x.plain ∧
      x.co.mask ≠ 0 ∧ x.gang.due = [] ∧ x.level < 3 ∧ x.leader = 0 ∧
      ((benchEngine [(4, 0x1001)]).quad 0).copies = [] ∧
      (benchEngine [(4, 0x1001)]).accessPending x.gid x.co.mask 2 = false ∧
      (benchEngine [(4, 0x1001)]).dueRecords x.gid x.co.mask true = [] ∧ (benchAsks [(4, 0x1001)]).acting = some z ∧
      (benchAsks [(4, 0x1001)]).checkCopy z 5 (fun j => [0x1001, 0, 0, 0].getD j 0) = (u, .ok recs)) ∧
    (∃ (x z : Acting) (u : State) (e : TrapInfo), (benchEngine [(4, 0x1002)]).acting = some x ∧ x.mayTrap ∧
      (benchAsks [(4, 0x1002)]).acting = some z ∧
      (benchAsks [(4, 0x1002)]).checkCopy z 5 (fun j => [0x1002, 0, 0, 0].getD j 0) = (u, .error e) ∧
      e.cause = 0x13 ∧ u.pageRequestTo x.team x.level e = none) ∧
    (∃ (s : State) (x : Acting), s.acting = some x ∧ x.level < 3 ∧
      ((s.quad (quadOfCore x.gang.core)).copies.filter (fun c => c.2.core == x.gang.core)).length = 16) ∧
    (∃ (x z : Acting) (u : State) (recs : List (List Nat)), (benchEngine [(4, 3)]).acting = some x ∧
      (∀ g ∈ (benchEngine [(4, 3)]).gangs, ∀ c ∈ g.2.cohorts, c.2.hold = false) ∧ (benchFirst [(4, 3)]).acting = some z ∧
      (benchFirst [(4, 3)]).checkMatrix z 3 (fun j => [3, 0].getD j 0) = (u, .ok recs)) ∧
    (∃ (z : Acting) (u : State) (e : TrapInfo), (benchFirst [(4, 8)]).acting = some z ∧
      (benchFirst [(4, 8)]).checkMatrix z 3 (fun j => [8, 0].getD j 0) = (u, .error e) ∧ e.cause = 0x15 ∧
      u.pageRequestTo z.team z.level e = none) ∧
    (∃ (s : State) (x : Acting), s.acting = some x ∧ (s.cmdQueue (s.engineOf 0) 0 (s.engineOf 0 != 0)).length = 16) ∧
    ∃ (s : State) (x : Acting), s.acting = some x ∧ x.co.hold = true ∧ x.co.args = 5 :: [0x1001, 0, 0, 0] ∧
      ∃ (u : State) (recs : List (List Nat)), (s.onCohort (fun c => { c with hold := false, args := [] })).checkCopy x 5
        (fun j => (([0x1001, 0, 0, 0] : List Word).map BitVec.toNat).getD j 0) = (u, .ok recs) :=
  ⟨⟨_, _, _, _, rfl, ⟨by decide, rfl⟩, by decide, rfl, by decide, by decide, rfl, rfl, rfl, rfl, rfl⟩,
   ⟨_, _, _, _, rfl, ⟨by decide, by decide⟩, rfl, rfl, rfl, rfl⟩,
   ⟨benchRuns ((List.range 16).map (fun i => (i, benchCopy 0 none))) [], _, rfl, by decide, by decide⟩,
   ⟨_, _, _, _, rfl, by decide, rfl, rfl⟩, ⟨_, _, _, rfl, rfl, rfl, rfl⟩,
   ⟨benchRuns [] (List.replicate 16 (benchMatrix 3 false)), _, rfl, by decide⟩,
   ⟨(benchEngine []).onCohort (fun c => { c with hold := true, args := [5, 0x1001, 0, 0, 0] }), _, rfl, rfl, rfl, _, _, rfl⟩⟩

/-- EngineCommands: an `mfence` with nothing before it, and one with writes that it marks, in the buffer and in a C-store.
AccumulatorWords: a tile as it was before a step of a command. -/
theorem witness_fenced :
    (∃ x, (bench 0 1 0 []).acting = some x ∧ (∀ y ∈ (bench 0 1 0 []).accesses, y.2.scratchOf x.gid (-1) = false) ∧
      (∀ k, ((bench 0 1 0 []).core k).olds = []) ∧ ∀ k, ((bench 0 1 0 []).array 0 k).olds = []) ∧
    ∃ (s : State) (x : Acting) (e : OldUnit), s.acting = some x ∧ (∀ y ∈ s.accesses, y.2.scratchOf x.gid (-1) = false) ∧
      x.team.paired = false ∧ (s.core x.gang.core).olds = [e] ∧ (s.array 0 1).olds = [e] ∧
      (x.lanes.map (fun l => (x.gang.lane l).vc)).any (e.before x.gid) = true ∧ (s.array 0 1).part = some x.team.part ∧
      ∃ w ∈ (s.array 0 1).was, w.2.1 = 0x3FFFC / 0x10000 :=
  let e : OldUnit := { wbuf := false, unit := 1023, bytes := [0, 0, 0, 0], mask := [0], gang := 3, party := 77, clk := 5 }
  ⟨⟨_, rfl, by decide, fun _ => rfl, fun _ => rfl⟩,
   ⟨((bench 0 1 0 []).onCore 0 (fun c => { c with olds := [e] })).onArray 0 1 (fun y => { y with part := some 0, olds := [e], was := [(7, 3, [])] }),
    _, e, rfl, by decide, rfl, rfl, rfl, by decide, rfl, (7, 3, []), by decide, rfl⟩⟩

/-- AccumulatorWords: the last offset and the one beyond it, a misaligned one, a poisoned row, an offset that meets an
error, and a C-store of another partition, where the team's tiles are those kept for it. -/
theorem witness_accumulators :
    (∃ x, (bench 0 3 0 [(4, 0x3FFFC), (5, 0x40000), (6, 2)]).acting = some x ∧ x.plain ∧ x.gang.due = [] ∧ x.mayTrap ∧
      (∀ l ∈ x.lanes, (V (bench 0 3 0 [(4, 0x3FFFC), (5, 0x40000), (6, 2)]) x l 4).toNat ≤ 0x3FFFC ∧
        (V (bench 0 3 0 [(4, 0x3FFFC), (5, 0x40000), (6, 2)]) x l 4).toNat % 4 = 0) ∧
      0x3FFFC < (V (bench 0 3 0 [(4, 0x3FFFC), (5, 0x40000), (6, 2)]) x 0 5).toNat ∧
      (V (bench 0 3 0 [(4, 0x3FFFC), (5, 0x40000), (6, 2)]) x 0 6).toNat % 4 ≠ 0 ∧
      ((bench 0 3 0 [(4, 0x3FFFC), (5, 0x40000), (6, 2)]).array 0 0).poison = []) ∧
    ∃ (s : State) (x : Acting), s.acting = some x ∧ x.lanes = [0] ∧ x.mayTrap ∧ (s.array 0 0).part = some x.team.part ∧
      128 * ((V s x 0 4).toNat / 0x10000) + (V s x 0 4).toNat % 0x10000 / 512 ∈ (s.array 0 0).poison ∧
      memCanon (s.array 0 0).cstore = true ∧ errIn [0x3FFF8] (V s x 0 4).toNat 4 = true ∧
      errIn [0x3FFF0] (V s x 0 4).toNat 4 = false ∧
      ((s.onArray 0 0 (fun y => { y with part := some 9 })).array 0 0).tiles x.team.part = {} :=
  ⟨⟨_, rfl, ⟨by decide, rfl⟩, rfl, ⟨by decide, by decide⟩, by decide, by decide, by decide, rfl⟩,
   ⟨(bench 0 1 0 [(4, 0x3FFFC)]).onArray 0 0 (fun y => { y with part := some 0, poison := [511] }), _, rfl, by decide,
    ⟨by decide, by decide⟩, rfl, by decide, rfl, by decide, by decide, rfl⟩⟩

/-- EngineSteps: a copy at its first element, at its end and stopped; a clear and a multiplication whose turn it is, with
its tile; a command that has run. -/
theorem witness_engine_steps :
    (∃ c, (benchRuns [(8, benchCopy 0 none)] []).copy? 0 8 = some c ∧ (benchRuns [(8, benchCopy 0 none)] []).copyRuns c = true ∧
      c.op = 5 ∧ c.dst.kind = 1 ∧ c.stopped = none ∧ c.asked = none ∧ c.pos < c.total ∧ c.nextTry ≤ (benchRuns [(8, benchCopy 0 none)] []).now) ∧
    (∃ c tm, (benchRuns [(8, benchCopy 4 none)] []).copy? 0 8 = some c ∧ (benchRuns [(8, benchCopy 4 none)] []).copyRuns c = true ∧
      (benchRuns [(8, benchCopy 4 none)] []).team? c.team = some tm ∧ c.writing = [] ∧ (c.arg 3).testBit 24 = false ∧
      c.arg 3 % 128 < 64 ∧ c.poisoned = none ∧ c.op ≠ 3 ∧ c.total ≤ c.pos ∧ c.arg 3 / 2 ^ 8 % 2 ^ 16 = 1) ∧
    (∃ c, (benchRuns [(8, benchCopy 2 (some (0x08, 0, 0)))] []).copy? 0 8 = some c ∧ c.stopped = some (0x08, 0, 0)) ∧
    (∃ c, (benchRuns [] [benchMatrix 3 false]).stepOf 0 0 = some c ∧ 0 = c.home ∧ c.arraysOf = [0] ∧ c.op = 3 ∧ c.tile = 1) ∧
    (∃ c, (benchRuns [] [benchMatrix 0 false]).stepOf 0 0 = some c ∧ 0 = c.home ∧ c.arraysOf = [0] ∧ c.op = 0 ∧
      ((benchRuns [] [benchMatrix 0 false]).array 0 0).faulty = false ∧
      ((benchRuns [] [benchMatrix 0 false]).array 0 0).upset = false ∧
      ((benchRuns [] [benchMatrix 0 false]).claimArray 0 0 c.ten).stepMeets { c with guest := false } 0 = false) ∧
    ∃ c tm, ((benchRuns [] [benchMatrix 3 true]).cmdsOf 0).find? (fun e => e.uid == 8) = some c ∧
      (benchRuns [] [benchMatrix 3 true]).mayRetire 0 c = true ∧ (benchRuns [] [benchMatrix 3 true]).team? c.team = some tm ∧
      c.stopped = none ∧ c.completion.testBit 24 = false ∧ c.completion % 128 < 64 ∧ c.completion / 2 ^ 8 % 2 ^ 16 = 1 :=
  ⟨⟨_, rfl, by decide, rfl, by decide, rfl, rfl, by decide, by decide⟩,
   ⟨_, _, rfl, by decide, rfl, rfl, by decide, by decide, rfl, by decide, by decide, by decide⟩, ⟨_, rfl, rfl⟩,
   ⟨_, rfl, rfl, by decide, rfl, by decide⟩, ⟨_, rfl, rfl, by decide, rfl, rfl, rfl, by decide⟩,
   ⟨_, _, rfl, by decide, rfl, rfl, by decide, by decide, by decide⟩⟩

/-- EngineSteps: a fill of words of the A-buffer, and an element copy from it to the W-buffer; a copy that met poison; an error
of a matrix command at its end. -/
theorem witness_engine_blocks :
    (∃ (c : Copy) (tm : Team), (benchRuns [(8, benchCopy 0 none)] []).copy? 0 8 = some c ∧ tm.core = c.core ∧
      (benchRuns [(8, benchCopy 0 none)] []).team? c.team = some tm ∧ c.dst.w = 32 ∧ c.dst.kind = 1 ∧ c.total = 4 ∧ c.pos = 0 ∧
      memCanon ((benchRuns [(8, benchCopy 0 none)] []).core c.core).abuf = true ∧
      ((benchRuns [(8, benchCopy 0 none)] []).core c.core).olds = [] ∧
      ∀ j < 4, c.dst.inside (c.place c.dst (c.index j)) = true ∧ c.dst.elemBit (c.place c.dst (c.index j)) / 8 + 3 < tm.asize) ∧
    (∃ (c : Copy) (tm : Team), (benchRuns [(8, benchElement)] []).copy? 0 8 = some c ∧ tm.core = c.core ∧
      (benchRuns [(8, benchElement)] []).copyRuns c = true ∧ (benchRuns [(8, benchElement)] []).team? c.team = some tm ∧ c.op = 0 ∧
      c.src.kind = 1 ∧ c.dst.kind = 2 ∧ elementRow c.src c.dst = true ∧ c.src.scaled = false ∧ c.src.w = 32 ∧ c.total = 4 ∧
      (∀ j < 4, c.dst.inside (c.place c.dst (c.index j)) = true ∧ c.dst.elemBit (c.place c.dst (c.index j)) / 8 + 3 < tm.wsize ∧
        c.src.elemBit (c.place c.src (c.index j)) / 8 + 3 < tm.asize) ∧
      ∀ j < 4, ∀ k < 4, c.dst.elemBit (c.place c.dst (c.index j)) = c.dst.elemBit (c.place c.dst (c.index k)) → j = k) ∧
    (∃ (s : State) (c : Copy), s.copy? 0 8 = some c ∧ s.copyRuns c = true ∧ c.writing = [] ∧ (c.arg 3).testBit 24 = false ∧
      c.arg 3 % 128 < 64 ∧ c.stopped = none ∧ c.poisoned = some (7, 1) ∧ c.op ≠ 3 ∧ c.total ≤ c.pos ∧ s.liveLanes c.gang c.mask ≠ 0) ∧
    ∃ (s : State) (c : MCmd), (s.cmdsOf 0).find? (fun e => e.uid == 8) = some c ∧ s.mayRetire 0 c = true ∧ c.stopped = some 0x12 ∧
      s.liveLanes c.gang c.mask ≠ 0 ∧ c.completion.testBit 24 = false ∧ c.completion % 128 < 64 ∧ c.arraysOf = [0] ∧ 0 = c.home ∧
      (s.array 0 0).part = some c.ten ∧ c.settled = false ∧ (s.array 0 0).queue.filter (fun d => d.uid == 8) = [c] ∧
      ∀ d ∈ (s.array 0 0).queue, d.uid ≠ 8 → d.done = true → d.settled = true :=
  ⟨⟨_, _, rfl, rfl, rfl, by decide, rfl, by decide, rfl, rfl, rfl, by decide⟩,
   ⟨_, _, rfl, rfl, by decide, rfl, rfl, rfl, rfl, by decide, by decide, by decide, by decide, by decide, by decide⟩,
   ⟨benchRuns [(8, { benchCopy 4 none with poisoned := some (7, 1) })] [], _, rfl, by decide, rfl, by decide, by decide, rfl, rfl,
    by decide, by decide, by decide⟩,
   ⟨benchRuns [] [{ benchMatrix 3 true with stopped := some 0x12 }], _, rfl, by decide, rfl, by decide, by decide, by decide, by decide,
    rfl, rfl, rfl, by decide, by decide⟩⟩

/-- EngineSteps: an epilogue of a tile without a poisoned row, and of one with one. -/
theorem witness_epilogue : ∀ p ∈ [[], [131]], ∃ (c : MCmd) (tm : Team), (benchEpilogue p).stepOf 0 0 = some c ∧ 0 = c.home ∧
    c.arraysOf = [0] ∧ c.op = 4 ∧ c.tile = 1 ∧ tileErrs (((benchEpilogue p).claimArray 0 0 c.ten).array 0 0) c.tile = [] ∧
    (benchEpilogue p).team? c.team = some tm ∧ tm.core = c.core ∧ memCanon ((benchEpilogue p).core c.core).abuf = true ∧
    (c.shape 0).w = 8 ∧ (c.shape 0).st 1 = 128 ∧ (c.shape 0).st 0 = 1 ∧ (c.shape 0).kind = 1 ∧
    (c.shape 0).elemBit [127, 127] / 8 < tm.asize ∧ (((benchEpilogue p).claimArray 0 0 c.ten).flagsNow 0 0).2 = p := by
  intro p h
  fin_cases h
  all_goals exact ⟨_, _, rfl, rfl, by decide, rfl, by decide, rfl, rfl, rfl, rfl, by decide, rfl, rfl, by decide, by decide, by decide⟩

/-- EngineSteps: a multiplication of both arrays whose turn it is in both. -/
theorem witness_wide : ∃ c, benchBoth.stepOf 0 0 = some c ∧ 0 = c.home ∧ c.op = 1 ∧ ∀ k < 2, (benchBoth.array 0 k).faulty = false ∧
    (benchBoth.array 0 k).upset = false ∧
    ((benchBoth.claimArray 0 0 c.ten).claimArray 0 1 c.ten).stepMeets { c with guest := false } k = false ∧
    ∃ ws ovf poison, ((benchBoth.claimArray 0 0 c.ten).claimArray 0 1 c.ten).groupStep { c with guest := false } k =
      .tile ws ovf poison := by
  refine ⟨_, rfl, rfl, rfl, ?_⟩
  have h : ((benchBoth.claimArray 0 0 0).claimArray 0 1 0).poisonMode (benchMatrix 1 false).ten = true := by decide
  have j : ((benchMatrix 1 false).shape 1).sparse = false := by decide
  intro k hk
  interval_cases k
  all_goals exact ⟨rfl, rfl, by decide, _, _, _, by
    simp only [State.groupStep]
    erw [h, j]
    rfl⟩

/-- EngineSteps: the multiplication puts a whole tile. -/
theorem witness_tile : ∃ ws ovf poison, ((benchRuns [] [benchMatrix 0 false]).claimArray 0 0 0).groupStep (benchMatrix 0 false) 0 =
    .tile ws ovf poison := by
  have h : ((benchRuns [] [benchMatrix 0 false]).claimArray 0 0 0).poisonMode (benchMatrix 0 false).ten = true := by decide
  have k : ((benchMatrix 0 false).shape 1).sparse = false := by decide
  exact ⟨_, _, _, by simp only [State.groupStep, h, k, Bool.not_true, Bool.and_false, Bool.false_and]; rfl⟩

/-- The bench without a cohort, with a clause of two words at the lanes' counters. -/
def benchSelect (f : Gang → Gang) : State :=
  { (bench 0 0 0 []).onGang 3 (fun g => f { g with cohorts := [] }) with
    mem := [(0x1000, 2), (0x1003, 0xA0), (0x10000, 0x0F), (0x10001, 0x20), (0x20000, 0x0F), (0x20001, 0x20)] }

/-- A clause fetched is of two words. -/
theorem bench_clause (r : State × Option (Except FetchFault (Nat × List Nat)))
    (h : (match r with
      | (_, some (.ok p)) => decide (p = (0xA0000002, [0, 0]))
      | _ => false) = true) : ∃ u, r = (u, some (.ok (0xA0000002, [0, 0]))) := by
  obtain ⟨u, _ | _ | p⟩ := r
  · cases h
  · cases h
  · exact ⟨u, by rw [of_decide_eq_true h]⟩

/-- GangSteps: a slice that may choose, with the clause of its lanes; waits that are over; results that are last and that
come late; a store that faulted; a gang of the register file and a swapped one. -/
theorem witness_gang_steps :
    (∃ g h ls tm u, (benchSelect id).gang? 3 = some g ∧ (benchSelect id).maySelect g 0 = true ∧
      g.headOf 0 = some (h, ls) ∧ (benchSelect id).team? g.team = some tm ∧
      (benchSelect id).fetchOutside (g.lane (ls.headD 0)).level (g.lane (ls.headD 0)).pc.addr = false ∧
      (((benchSelect id).setGang 3 (g.clearDeferred ((benchSelect id).meeting g 0 h))).beginTeam g.team).fetchClause g.team 0
        (tm.ctx ((g.clearDeferred ((benchSelect id).meeting g 0 h)).lane 0).level g.core) (g.lane (ls.headD 0)).pc.addr =
          (u, some (.ok (0xA0000002, [0, 0]))) ∧ g.sliceFree 1 = true ∧ 1 < g.width / 8 ∧ ls = g.sliceLanes 0 ∧
      g.headOf 1 = some (h, g.sliceLanes 1) ∧ ∀ p ∈ (benchSelect id).gangs, p.2.core = g.core → p.2.cohorts ≠ [] → p.2.team = g.team ∧ p.2.g = g.g) ∧
    (∃ g, (benchSelect (fun g => { g with waits := [(5, { mask := 1, kind := .prewait 3, next := ⟨0, 0⟩ }),
        (6, { mask := 2, kind := .switchPark, next := ⟨0, 0⟩ })] })).gang? 3 = some g ∧
      (benchSelect (fun g => { g with waits := [(5, { mask := 1, kind := .prewait 3, next := ⟨0, 0⟩ }),
        (6, { mask := 2, kind := .switchPark, next := ⟨0, 0⟩ })] })).prewaitMet 3 g 3 = true ∧ g.results = []) ∧
    (∃ g p q, (benchSelect (fun g => { g with
          results := [(5, ⟨0, 63, 1, some 7, false, false, false, none⟩), (6, ⟨0, 4, 0, some 7, false, false, false, none⟩)]
          lanes := g.lanes.map (fun y => { y with wseq := [(4, 1)] }) })).gang? 3 = some g ∧
      assocGet? g.results 5 = some p ∧ (g.lane 0).live = true ∧ p.reg < 8 * g.nregs ∧ g.pairMate 5 p = none ∧
      assocGet 0 (g.lane 0).wseq p.reg ≤ p.seq ∧ assocGet? g.results 6 = some q ∧ g.pairMate 6 q = none ∧
      q.seq < assocGet 0 (g.lane 0).wseq q.reg) ∧
    (∃ g p q, (benchSelect (fun g => { g with
          results := [(5, ⟨0, 6, 1, some 7, false, false, true, none⟩), (6, ⟨0, 7, 1, some 8, false, false, true, none⟩)] })).gang? 3 = some g ∧
      assocGet? g.results 5 = some p ∧ g.pairMate 5 p = some (6, q) ∧ q.val = some 8 ∧ q.reg ≠ p.reg ∧ q.reg < 8 * g.nregs ∧
      assocGet 0 (g.lane 0).wseq q.reg ≤ q.seq) ∧
    (∃ (s : State) (acc : Access), s.access? 9 = some acc ∧ acc.gang = 3 ∧ acc.phase = .faulted 0x08 0 ∧ acc.op = .store) ∧
    (∃ g, (benchSelect id).gang? 3 = some g ∧ (benchSelect id).mayEnter 3 g = false) ∧
    ∃ g, (benchSelect (fun g => { g with swapped := true })).gang? 3 = some g ∧
      (benchSelect (fun g => { g with swapped := true })).mayEnter 3 g = true :=
  ⟨⟨_, ⟨4194304, 0, false⟩, List.range 8, _, (bench_clause _ (by decide)).choose, rfl, by decide, by decide, rfl, by decide,
    (bench_clause _ (by decide)).choose_spec, by decide, by decide, by decide, by decide, by decide⟩,
   ⟨_, rfl, rfl, rfl⟩, ⟨_, _, _, rfl, rfl, rfl, by decide, rfl, by decide, rfl, rfl, by decide⟩,
   ⟨_, _, _, rfl, rfl, rfl, rfl, by decide, by decide, by decide⟩,
   ⟨{ bench 0 1 0 [] with accesses := [(9, { benchAccess .store with phase := .faulted 0x08 0 })] }, _, rfl, rfl, rfl, rfl⟩,
   ⟨_, rfl, by decide⟩, ⟨_, rfl, by decide⟩⟩

/-- The bench with an access of DRAM under way, whose line is in L2, clean or dirty. -/
def benchHome (x : Access) (dirty : Bool := false) : State :=
  { bench 0 1 0 [] with accesses := [(9, x)], l2 := [(0x80, ⟨0, dirty, false⟩)] }

/-- MemorySteps: a load, a bounded load at its view, a store and an atomic that arrive; a fill; an update of a sharer; an
acknowledgement; host accesses that end and that time out; a refused one. -/
theorem witness_memory_steps :
    (∀ p ∈ [(AccOp.load, 0), (.bounded 0, 1), (.store, 0), (.atomic 9, 0), (.red 10, 0)],
      let s := benchHome { benchAccess p.1 with mode := p.2, scope := 2 }
      ∃ x, s.access? 9 = some x ∧ s.mayArrive 9 x = true ∧ s.reaches x.ten x.core x.home = true ∧
        lineOf x.pa ∉ s.badLines ∧ s.pinOf (lineOf x.pa) = none ∧ x.pa / 2 ^ 16 ∉ s.fills ∧ x.disc = false ∧
        s.inL2 (lineOf x.pa) = true ∧ s.marks = [] ∧ x.kind = 0 ∧ x.hidden = false ∧ s.outranked x = false ∧
        x.refusals = 0 ∧ x.mode = p.2 ∧ x.ord < 2 ∧ x.scope ≠ 0 ∧ x.data.length = x.size ∧ memCanon s.mem = true ∧
        x.dst.Nodup ∧ x.cmp < 2 ^ 32) ∧
    (∀ p ∈ [Phase.fill, .updating [1], .acked, .host],
      let s := (benchHome { benchAccess .load with phase := p }).onCore 1 (fun c => { c with l1 := [(0x80, benchCopyLine 0)] })
      ∃ x, s.access? 9 = some x ∧ x.phase = p ∧ s.orderedAt 1 (lineOf x.pa) x.applied = true ∧ s.hasRoom x.core (lineOf x.pa) = true ∧
        (assocGet? (s.core 1).l1 (lineOf x.pa)).isSome = true ∧ x.size ∈ [1, 2, 4, 8, 16] ∧ s.laneWaits 9 x = false ∧
        s.mayAck x = (p == .acked)) ∧
    (∃ (s : State) (x : Access), s.access? 9 = some x ∧ s.mayPost 9 x = true ∧ x.hidden = false ∧ memCanon s.host = true) ∧
    (∃ (s : State) (x : Access) (c : Nat) (p : Pin), s.access? 9 = some x ∧ s.mayArrive 9 x = true ∧
      s.pinOf (lineOf x.pa) = some (c, p) ∧ p.team ≠ x.team ∧ x.refusals = 16382 ∧ x.op ≠ .atomic 12) ∧
    (∃ (s : State) (x : Access), s.access? 9 = some x ∧ x.phase = .host ∧ x.op = .load ∧ s.laneWaits 9 x = false ∧
      x.issued + 42500 ≤ s.now) := by
  refine ⟨?_, ?_, ⟨benchHome { benchAccess .store with phase := .host, kind := 1 }, _, rfl, by decide, rfl, rfl⟩,
    ⟨{ benchHome { benchAccess .load with refusals := 16382 } with
      cores := [(1, { pins := [(0x80, { team := 7, data := List.replicate 64 0 })] })] }, _, _, _, rfl, by decide, rfl,
      by decide, rfl, by decide⟩, ⟨{ benchHome { benchAccess .load with phase := .host } with now := 42500 }, _, rfl, rfl,
      rfl, rfl, by decide⟩⟩
  · intro p h
    fin_cases h
    all_goals exact ⟨_, rfl, by decide, by decide, by decide, rfl, by decide, rfl, rfl, rfl, rfl, rfl, rfl, rfl, rfl, by decide,
      by decide, rfl, by decide, by decide, by decide⟩
  · intro p h
    fin_cases h
    all_goals exact ⟨_, rfl, rfl, by decide, rfl, rfl, by decide, by decide, by decide⟩

/-- MemorySteps: a line that leaves L2 clean, dirty and unmetered, and dirty with a token; a page whose fill ends; a
broadcast under way; a deadline that has come; a copy whose next page is translated ahead. -/
theorem witness_memory_ends :
    (∀ dirty, ∃ (s : State) (y : L2Line), assocGet? s.l2 0x80 = some y ∧ y.dirty = dirty ∧ s.pinOf 0x80 = none ∧
      s.bucketAt (64 * 0x80) = none) ∧
    (∃ (s : State) (y : L2Line) (b : Bucket), assocGet? s.l2 0x80 = some y ∧ y.dirty = true ∧ s.pinOf 0x80 = none ∧
      s.bucketAt (64 * 0x80) = some (0, b) ∧ b.owed = 0 ∧ b.tokens = 7) ∧
    (∃ (s : State), 5 ∈ s.fills ∧ s.bucketAt (5 * 2 ^ 16) = none) ∧
    (∀ n ∈ [0, 7], ∃ (s : State) (b : Nat × Bucket), s.refillAt ≤ s.now ∧ b ∈ s.buckets ∧ (s.tenantOf (b.1 / 1024)).refill = n) ∧
    (∃ (s : State) (y : Tenant), assocGet? s.tenants (tkey 0 (min 0 16)) = some y ∧ y.bcasts.drop 0 = [(3, 4, 0)]) ∧
    (∃ (s : State) (g : Gang) (x : Wait) (m : Monitor), s.gang? 3 = some g ∧ assocGet? g.waits 6 = some x ∧ x.mask = maskOf [0] ∧
      x.kind = .monitor 4 false 100 ∧ 100 ≤ s.now ∧ (g.lane 0).monitor = some m ∧ m.lapsed = false ∧ m.fired = false) ∧
    ∃ (s : State) (c : Copy), s.copy? 0 8 = some c ∧ c.xten = some 0 ∧ c.level < 3 ∧ c.unitwise = false ∧ c.total - c.pos = 4 ∧
      ∀ x ∈ [c.src, c.dst], x.kind = 0 ∧ ∀ pos < 4,
        (s.translate c.ctx (x.elemBit (c.place x (c.index pos)) / 8) 0 false).toBool = true := by
  refine ⟨fun dirty => ⟨benchHome (benchAccess .load) dirty, _, rfl, rfl, rfl, ?_⟩,
    ⟨(benchHome (benchAccess .load) true).onTenant 0 (fun t => { t with refill := 7 }), _, _, rfl, rfl, rfl, rfl, rfl, rfl⟩,
    ⟨{ bench 0 1 0 [] with fills := [5] }, by decide, by decide⟩,
    fun n _ => ⟨{ (bench 0 1 0 []).onTenant 0 (fun t => { t with refill := n }) with buckets := [(0, ⟨1, 0⟩)] }, _, Nat.zero_le _,
      List.mem_singleton.mpr rfl, rfl⟩,
    ⟨(bench 0 1 0 []).onTenant 0 (fun t => { t with bcasts := [(3, 4, 0)] }), _, rfl, rfl⟩,
    ⟨{ (benchMonitor false false).onGang 3 (fun g =>
      { g with waits := [(6, { mask := 1, kind := .monitor 4 false 100, next := ⟨0, 0⟩ })] }) with now := 100 }, _, _, _, rfl, rfl,
      by decide, rfl, by decide, rfl, rfl, rfl⟩,
    ⟨benchRuns [(8, { benchCopy 0 none with
        op := 0
        recs := (List.replicate 2 [0x2000, 0x001B0000, 4, 1, 1, 1, 1, 0, 0, 0, 0, 0x10004, 0x10001, 1, 0, 0x80000001]) })] [], _, rfl, rfl, by decide,
      by decide, by decide, by decide⟩⟩
  cases dirty <;> rfl

/-- The bench with a queue of 16 slots at 0x3000 whose first entry names a record at 0x2000, and its record's bytes. -/
def benchTake (f : Queue → Queue) : State :=
  { (bench 0 1 0 []).onTenant 0 (fun t => { t with
      queuesW := 0x10000, queues := [(0, f { en := true, qbase := 0x3000, logsz := 4, tail := 1 })] }) with
    mem := [(0x2001, 0x10), (0x2020, 4), (0x2022, 16), (0x2024, 1), (0x2026, 1), (0x2028, 1), (0x202C, 1), (0x202E, 1),
      (0x2030, 8), (0x2031, 1), (0x2032, 1), (0x3001, 0x20), (0x10000, 0x0F),
      (0x10001, 0x20), (0x20000, 0x0F), (0x20001, 0x20)] }

/-- The bench with its file full: gang 3 holds all of it, and gang 5 is swapped and ready; gang 3 runs, or is parked while a
load of it is outstanding. -/
def benchFile (parked : Bool) (now : Nat) : State :=
  let s := benchSelect (fun g => { g with
    nregs := 512, lanes := g.lanes.map (fun y => { y with parked := parked })
    waits := if parked then [(6, { mask := 0xFFFF, kind := .switchPark, next := ⟨0, 0⟩ })] else []
    results := if parked then [(7, ⟨0, 4, 0, none, false, true, false, none⟩)] else [] })
  { s with now := now, gangs := s.gangs ++ (benchSelect (fun g => { g with swapped := true })).gangs.map (fun p => (5, p.2)) }

/-- GangSteps: a gang parked beyond 2,048 cycles leaves, and one that runs is forced after 1,024; a record 64 words back. -/
theorem witness_swaps :
    (∃ g, (benchFile true 2049).gang? 3 = some g ∧ ((benchFile true 2049).team? g.team).isSome = true ∧
      (benchFile true 2049).mayLeave 3 g = true) ∧
    (∃ g, (benchFile false 1024).gang? 3 = some g ∧ (benchFile false 1024).mustLeave 3 g = true) ∧
    ∃ (s : State) (g : Gang) (x : Acting) (r : SfRec), s.gang? 3 = some g ∧ s.acting = some x ∧ x.plain ∧ x.lanes = [0] ∧
      x.co.hold = false ∧ s.skidDue 3 g x.co.mask = true ∧ s.skidWaits 3 g x.co.mask = false ∧
      s.dueRecords 3 x.co.mask false = [r] ∧ x.mayTrap ∧ r.cause = 0x08 ∧ x.co.done = 0 :=
  ⟨⟨_, rfl, rfl, by decide⟩, ⟨_, rfl, by decide⟩,
   ⟨(benchGang 1 0 [] (fun g => { g with seq := 64 })).onCore 0 (fun c => { c with sfq := [
      { gang := 3, lane := 0, cause := 0x08, slot := 0, kind := 0, widx := 0, rep := 0, size := 4, synd := 0, clause := 0x1000,
        addr := 0x2000, value := 0, seq := 0 }] }), _, _, _, rfl, rfl, ⟨by decide, rfl⟩, by decide, rfl, by decide, by decide,
    rfl, ⟨by decide, by decide⟩, rfl, rfl⟩⟩

/-- What a hardware read answers. -/
theorem bench_read (r : State × Except (TFault × Nat) (List Byte)) (bs : List Byte)
    (h : (match r with
      | (_, .ok b) => decide (b = bs)
      | _ => false) = true) : ∃ u, r = (u, .ok bs) := by
  obtain ⟨u, _ | b⟩ := r
  · cases h
  · exact ⟨u, by rw [of_decide_eq_true h]⟩

/-- A hardware read and a write after it. -/
theorem bench_update (r : State × Except (TFault × Nat) (List Byte)) (bs : List Byte)
    (k : State → State × Except (TFault × Nat) Unit)
    (h : (match r with
      | (u, .ok b) => decide (b = bs) && (k u).2.toBool
      | _ => false) = true) : ∃ u w, r = (u, .ok bs) ∧ k u = (w, .ok ()) := by
  obtain ⟨u, _ | b⟩ := r
  · cases h
  · have hb : decide (b = bs) = true ∧ (k u).2.toBool = true := Bool.and_eq_true_iff.mp h
    cases hk : k u with
    | mk w e =>
      rw [hk] at hb
      cases e with
      | error f => cases hb.2
      | ok v => exact ⟨u, w, by rw [of_decide_eq_true hb.1], hk⟩

/-- The bench with slot 3 of its shape table at a generation. -/
def benchSlot (n : Nat) : State :=
  { bench 0 1 0 [(5, 3)] with
    mem := memSet (memSet (bench 0 1 0 []).mem 0x400FC (BitVec.ofNat 8 n)) 0x400FD (BitVec.ofNat 8 (n / 256)) }

/-- WorkWords: a slot within the tenant's shape slots, whose generation may rise and whose is spent. -/
theorem witness_shape_slots : ∀ n ∈ [0, 4095], ∃ x, (benchSlot n).acting = some x ∧ x.mayTrap ∧
    (V (benchSlot n) x x.leader 5).toNat = 3 ∧ 3 < (benchSlot n).shapeSlots x.team ∧
    (benchSlot n).shapeAddr x.team 3 = 0x400C0 ∧ x.team.shapeCtx x.gang.core false = ⟨0, some 0, 1, 0, false⟩ ∧
    (ofLeBytes (((List.replicate 60 0 ++ leBytes 4 n).drop 60).take 4) % 2 ^ 12 = n) ∧
    ∃ u w, (benchSlot n).issue.hwLoad ⟨0, some 0, 1, 0, false⟩ 0x400C0 64 3 (.atomic 13) =
      (u, .ok (List.replicate 60 0 ++ leBytes 4 n)) ∧
      u.hwStore ⟨0, some 0, 1, 0, false⟩ 0x400C0 (List.replicate 64 1) 3 = (w, .ok ()) := by
  intro n h
  fin_cases h
  all_goals exact ⟨_, rfl, ⟨by decide, by decide⟩, by decide, by decide, by decide, rfl, by decide,
    bench_update _ _ (fun u => u.hwStore ⟨0, some 0, 1, 0, false⟩ 0x400C0 (List.replicate 64 1) 3) (by decide)⟩

/-- An append that is taken at once. -/
theorem bench_append (r : State × Nat × Option (TFault × Nat)) (h : (r.2.1 == 0 && r.2.2.isNone) = true) :
    ∃ u, r = (u, 0, none) := by
  obtain ⟨u, c, f⟩ := r
  cases c <;> cases f <;> first | exact ⟨u, rfl⟩ | cases h

/-- A decrement of a word that held 0. -/
theorem bench_old (r : State × Except (TFault × Nat) (Nat × Nat)) (h : (match r.2 with
      | .ok p => p.1 == 0
      | _ => false) = true) : ∃ u w, r = (u, .ok (0, w)) := by
  obtain ⟨u, _ | ⟨c, w⟩⟩ := r
  · cases h
  · cases c <;> first | exact ⟨u, w, rfl⟩ | cases h

/-- The record of `benchTake`. -/
def benchBytes : List Byte :=
  (List.range 64).map (fun i => if i = 1 then 0x10 else if i = 32 then 4 else if i = 34 then 16 else if i = 36 then 1
    else if i = 38 then 1 else if i = 40 then 1 else if i = 44 then 1 else if i = 46 then 1 else if i = 48 then 8
    else if i = 49 then 1 else if i = 50 then 1 else 0)

/-- A launch of the bench's record, cooperative or not. -/
def benchLaunch (coop : Bool) : Launch :=
  { dom := .tenant 0 0, queue := 0, addr := 0, desc := { benchRec with coop := coop, icount := 100 } }

/-- DispatchSteps: a queue that the host reaches and one that it does not, one that takes appends, one that is disabled,
one whose head names a record; a record whose team fits; a cooperative one that waits; item values; a team that may leave;
a launch that is over, without a successor and with one whose word is not 1. -/
theorem witness_dispatch_steps :
    (((benchTake id).onTenant 0 (fun t => { t with vf := 1 })).hostReaches (.tenant 0 0) = true ∧
      (benchTake id).hostReaches (.tenant 0 0) = false ∧
      ∃ w, ((benchTake id).onTenant 0 (fun t => { t with vf := 1 })).appendCode (.tenant 0 0) 0 (0x2000 % 2 ^ 64) = (w, 0, none)) ∧
    (0 < (benchTake id).queueCount (.tenant 0 0) ∧ ((benchTake id).queueOf (.tenant 0 0) 0).en = true ∧
      (benchTake id).mayTake (.tenant 0 0) 0 = true ∧ 0 ∉ ((benchTake id).queueOf (.tenant 0 0) 0).dead ∧
      (∃ u, (benchTake id).hwLoad (domCtx (.tenant 0 0)) (((benchTake id).queueOf (.tenant 0 0) 0).slotAddr 0) 8 0 =
        (u, .ok [0x00, 0x20, 0, 0, 0, 0, 0, 0])) ∧
      (∃ w, (benchTake id).hwLoad (domCtx (.tenant 0 0)) 0x2000 64 0 = (w, .ok benchBytes)) ∧
      recordOk (dwords benchBytes) = true ∧ (benchTake id).neverFits (.tenant 0 0) (recOf (dwords benchBytes)) = false ∧
      (recOf (dwords benchBytes)).spill = 0) ∧
    (((benchTake (fun q => { q with en := false })).queueOf (.tenant 0 0) 0).en = false ∧ 4 ≤ 20 % 2 ^ 5 ∧ 20 % 2 ^ 5 ≤ 20) ∧
    (∃ a vc, ((benchTake (fun q => { q with held := [(0x2000, [])] })).queueOf (.tenant 0 0) 0).held = [(a, vc)] ∧
      ((benchTake (fun q => { q with held := [(0x2000, [])] })).queueOf (.tenant 0 0) 0).full = false) ∧
    (∃ (s : State) (y : Launch), s.dispatches (.tenant 0 0) = true ∧ s.unplaced (.tenant 0 0) = [] ∧
      s.launchesOf (.tenant 0 0) = [(1, y)] ∧ y.queue = 0 ∧ s.launch? 1 = some y ∧ y.desc.coop = false ∧ y.blocking = false ∧
      y.pending = true ∧ (s.spotFor y).isSome = true) ∧
    (∃ (s : State) (y : Launch), s.coopWaiter (.tenant 0 0) = some (1, y) ∧ s.dispatches (.tenant 0 0) = true ∧
      y.takenAt + 85000 ≤ s.now) ∧
    (∃ (s : State) (y : Launch), s.launch? 1 = some y ∧ y.returned = [] ∧ s.chunkSize 0 1 y = 64) ∧
    (∃ (s : State) (tm : Team), s.team? 2 = some tm ∧ s.mayExit 2 tm = true) ∧
    (∃ (s : State) (y : Launch), s.launch? 1 = some y ∧ s.launchOver 1 y = true ∧ y.halted = false ∧ y.desc.succ = 0) ∧
    ∃ (s : State) (y : Launch), s.launch? 1 = some y ∧ s.launchOver 1 y = true ∧ y.halted = false ∧ y.desc.succ ≠ 0 ∧
      ∃ u w, s.decrementWait (domCtx y.dom) y.desc.succ [⟨y.exitVc, 2, 0, 0, 0, 0⟩] = (u, .ok (0, w)) :=
  ⟨⟨by decide, by decide, bench_append _ (by decide)⟩, ⟨by decide, by decide, by decide, by decide, bench_read _ _ (by decide), bench_read _ _ (by decide), by decide, by decide,
    by decide⟩, ⟨by decide, by decide, by decide⟩, ⟨_, _, rfl, by decide⟩,
   ⟨{ bench 0 1 0 [] with
        launches := [(1, benchLaunch false)]
        fields := [(0, { map := (List.range 64).map (fun i => 9 * (i / 8) + i % 8 + 1) })] }, benchLaunch false, by decide, rfl, rfl, rfl, rfl, rfl, rfl,
    by decide, by decide⟩,
   ⟨{ bench 0 1 0 [] with launches := [(1, benchLaunch true)], now := 85000 }, benchLaunch true, by decide, by decide, by decide⟩,
   ⟨{ bench 0 1 0 [] with launches := [(1, benchLaunch false)] }, _, rfl, rfl, by decide⟩,
   ⟨{ bench 0 1 0 [] with gangs := [] }, _, rfl, by decide⟩,
   ⟨{ bench 0 1 0 [] with gangs := [], teams := [] }, _, rfl, by decide, rfl, rfl⟩,
   ⟨{ bench 0 1 0 [] with
        gangs := []
        teams := []
        launches := [(1, { benchLaunch false with nextTeam := 1, exited := 1, desc := { benchRec with succ := 0x2000 } })] }, _, rfl,
    by decide, rfl, by decide, bench_old _ (by decide)⟩⟩

/-- The bench on a field without defects. -/
def benchField : State :=
  { bench 0 1 0 [] with fields := [(0, { map := (List.range 64).map (fun i => 9 * (i / 8) + i % 8 + 1) })] }

/-- QuadSteps, PlatformSteps: quads in each power state, a field with a position that still works, a lease to create,
links below and at the limit of replays, a bound peer link, and functions in each state. -/
theorem witness_platform_steps :
    (∀ p ∈ [1, 2, 3], ({ State.reset with quads := [(5, { pwr := p })], now := 850000 }.quad 5).pwr = p) ∧
    (∃ (s : State), (s.quad 5).pwr = 3 ∧ (∀ t ∈ s.teams, t.2.core / 4 ≠ 5) ∧ (∀ t ∈ s.tenants, assocGet? t.2.saved 5 = none) ∧
      (s.quad 5).idleSince + 850000 ≤ s.now) ∧
    State.reset.booted = false ∧
    (∃ (s : State), s.quads = [(5, { eng := 1 }), (6, { guest := true })] ∧ s.voidQuad 5 = false ∧ s.engineOf 5 = 6 ∧
      ¬ ((s.quad 6).eng ≠ 0 ∨ s.voidQuad 6 = true)) ∧
    (∃ (s : State), s.quads = [(5, { eng := 1 }), (6, { guest := true, eng := 1 }), (7, { guest := true })] ∧ s.voidQuad 5 = false ∧
      s.voidQuad 6 = false ∧ s.engineOf 5 = 6 ∧ s.engineOf 6 = 7 ∧ (s.quad 6).eng ≠ 0 ∧
      ¬ ((s.quad 7).eng ≠ 0 ∨ s.voidQuad 7 = true) ∧ (assocGet {} s.fields (fieldOfQuad 5)).map[5]? = some (5 + 1)) ∧
    (∃ (s : State) (x : Field), x = assocGet {} s.fields 0 ∧ 0 ∉ x.defects ∧ 0 ∉ x.voided ∧ x.map[0]? = some (0 + 1) ∧
      fieldOfQuad 0 = 0 ∧ ∀ i j : Nat, x.map[i]? = some (0 + 1) → x.map[j]? = some (0 + 1) → i = j) ∧
    (∀ e ∈ [((0 : Nat), (65536 : Nat))], e.1 % 2 ^ 16 = 0 ∧ e.1 + e.2 * 2 ^ 16 ≤ 84 * 2 ^ 35) ∧
    (¬ ∀ e ∈ [((0 : Nat), 84 * 2 ^ 19 + 1)], e.1 % 2 ^ 16 = 0 ∧ e.1 + e.2 * 2 ^ 16 ≤ 84 * 2 ^ 35) ∧
    State.reset.lease? 15 = none ∧ (∃ l, (bench 0 1 0 []).lease? 0 = some l) ∧
    (∀ n ∈ [6, 7], ∃ (s : State) (x : Link), assocGet {} s.links 0 = x ∧ s.linkDead 0 = false ∧ x.fails = n) ∧
    (∃ (s : State), (s.peerXlat 0 0x2000 4 true).isSome = true) ∧ State.reset.peerXlat 0 0x2000 4 true = none ∧
    (bench 0 1 0 []).functionOf 0 0 = some (.tenant 0 0) ∧
    (∀ n ∈ [0, 1], ∃ (s : State), s.functionOf 0 0 = some (.tenant 0 0) ∧ s.tdispOf 0 0 = n ∧
      2 ≤ (s.tenantOf (tkey 0 0)).state ∧ (s.tenantOf (tkey 0 0)).state ≤ 5) := by
  refine ⟨by decide, ⟨{ State.reset with now := 850000 }, by decide, by decide, by decide, by decide⟩, rfl,
    ⟨{ State.reset with
        quads := [(5, { eng := 1 }), (6, { guest := true })]
        fields := [(0, { map := [1, 2, 3, 4, 5, 6, 7, 8] })] }, rfl, by decide, by decide, by decide⟩,
    ⟨{ State.reset with
        quads := [(5, { eng := 1 }), (6, { guest := true, eng := 1 }), (7, { guest := true })]
        fields := [(0, { map := [1, 2, 3, 4, 5, 6, 7, 8] })] }, rfl, by decide, by decide, by decide, by decide, by decide, by decide,
      by decide⟩,
    ⟨{ State.reset with fields := [(0, { map := [1] })] }, _, rfl, by decide, by decide, rfl, by decide, ?_⟩, by decide, by decide, rfl, ⟨_, rfl⟩, ?_,
    ⟨{ bench 0 1 0 [] with peerLinks := [(0, { lease := some 0 })] }, by decide⟩, rfl, by decide, ?_⟩
  · intro i j hi hj
    have h : ∀ k : Nat, ([1] : List Nat)[k]? = some (0 + 1) → k = 0 := by
      intro k hk
      cases k with
      | zero => rfl
      | succ k => simp at hk
    rw [h i hi, h j hj]
  · intro n h
    exact ⟨{ State.reset with links := [(0, { fails := n })] }, { fails := n }, rfl, rfl, rfl⟩
  · intro n h
    exact ⟨{ bench 0 1 0 [] with fns := [(0, { tdisp := n })] }, by decide +revert, rfl, by decide +revert, by decide +revert⟩

/-- QuadSteps: a failure that touches a running tenant, one that does not touch it, and the failure of a quiesce that ends. -/
theorem witness_quiesce :
    ((0, 0) ∈ ({ benchField with failing := addIn benchField.failing 0 } : State).touched ∧
      (benchField.tenantOf (tkey 0 0)).state = 3 ∧ (assocGet {} benchField.fields 0).map[0]? = some (0 + 1)) ∧
    ({ benchField with failing := addIn benchField.failing 1 } : State).touched = [] ∧
    ({ benchField with failing := [0] } : State).failing = [81 * 0 + 0] := by decide

/-- The bench with its tenant changed. -/
def benchTenant (f : Tenant → Tenant) : State := (bench 0 1 0 []).onTenant 0 f

/-- RegisterSteps: a request that waits in the tenant's buffer and is answered with the right generation, a wrong one, and
a number without a request; attribute values that are legal and that are not; new roots. -/
theorem witness_register_steps :
    (∃ (s : State) (g : Gang) (y : Wait), (s.lease? 0).isSome = true ∧ (assocGet? s.tenants (tkey 0 0)).isSome = true ∧
      assocGet? (s.getFb (.tenant 0 0)).reqs 7 = some (5, .page 3 6 0x08 0 0x2000) ∧
      (5 * 2 ^ 32 + 7 * 2 ^ 16) / 2 ^ 32 % 2 ^ 32 = (s.tenantOf (tkey 0 0)).pgen ∧
      6 * 2 ^ 32 / 2 ^ 32 % 2 ^ 32 ≠ (s.tenantOf (tkey 0 0)).pgen ∧
      s.gang? 3 = some g ∧ assocGet? g.waits 6 = some y ∧ (∀ m, s.team? g.team = some m → m.placed = true) ∧
      assocGet? (s.getFb (.tenant 0 0)).reqs 8 = none ∧ (s.getFb (.tenant 0 0)).held = [] ∧ s.fbReaches (.tenant 0 0) = true) ∧
    (bench 0 1 0 []).fbReaches (.tenant 0 0) = false ∧ (bench 0 1 0 []).attrWriteWaits 0 0 = false ∧
    (benchLoad 2 0 none (some (benchAccess (.sacc 1)))).attrWriteWaits (tkey 0 0) 0 = true ∧
    (bench 0 1 0 []).attrOk 0 0 0x05 = true ∧ (bench 0 1 0 []).attrOk 0 0 0x06 = false ∧
    ((bench 0 1 0 []).tenantOf (tkey 0 0)).state ≠ 0 ∧ 0x30001 ≠ ((bench 0 1 0 []).tenantOf (tkey 0 0)).s1root ∧
    0x30001 / 2 ^ 48 = 0 ∧ 0x30001 / 2 % 2 ^ 15 ≠ 1 := by
  refine ⟨⟨(benchGang 1 0 [] (fun g => { g with waits := [(6, { mask := 2, kind := .pageRequest (.tenant 0 0) 7, next := ⟨0, 0⟩ })] })).onTenant 0
    (fun t => { t with vf := 1, pgen := 5, fb := { base := 0x4000, count := 4, reqs := [(7, 5, .page 3 6 0x08 0 0x2000)] } }), _, _, rfl, rfl, rfl,
    by decide, by decide, rfl, rfl, ?_, rfl, rfl, by decide⟩, by decide, by decide, by decide, by decide, by decide, by decide, by decide, by decide, by decide⟩
  intro m h
  cases h
  rfl

/-- TenantSteps: a descriptor in each state, and tenants at each stage of pre-emption and of a time slice. -/
theorem witness_tenant_steps :
    (∀ n ∈ [0, 1, 2, 3, 5, 6], ∃ l x, (benchTenant (fun t => { t with state := n })).lease? 0 = some l ∧
      assocGet? (benchTenant (fun t => { t with state := n })).tenants (tkey 0 0) = some x ∧ x.state = n) ∧
    ((benchTenant (fun t => { t with state := 1, queuesW := 0 })).shapeStatus 0 0 false = 0 ∧
      (benchTenant (fun t => { t with state := 1, queuesW := 0 })).freeTags ≠ []) ∧
    (memCanon (bench 0 1 0 []).mem = true ∧ (bench 0 1 0 []).ownMemory 0 0 0x20000 = true ∧
      (bench 0 1 0 []).ownMemory 0 0 (2 ^ 32) = false ∧
      ((bench 0 1 0 []).setTenant 1 { state := 2, chmask := 1, memsize := 2 ^ 17 }).ownMemory 0 0 0x10000 = false) ∧
    (benchTenant (fun t => { t with state := 1, memsize := 2 ^ 33 })).shapeStatus 0 0 false = 5 ∧
    ({ benchTenant (fun t => { t with state := 4, ladder := some { t0 := 0 } }) with now := 850000 }.softOver 0 0 = true) ∧
    (∀ c < 6, (benchTenant (fun t => { t with state := 4, ladder := some { t0 := 0, hard := some 0 } })).classReady 0 0 c = true) ∧
    (benchTenant (fun t => { t with
      state := 4, ladder := some { t0 := 0, hard := some 0, acks := [0, 1, 2, 3, 4, 5] } })).mayFinishSave 0 0 = true ∧
    ({ benchTenant (fun t => { t with state := 4, ladder := some { t0 := 0, hard := some 0 } }) with
      now := 85000000 }.mustKill 0 0 = true) ∧
    (∃ (s : State) (u : State), s.mayRestore 0 0 = true ∧ (s.tenantOf (tkey 0 0)).answers = [] ∧ s.reshape 0 0 = (0, u)) ∧
    (∃ (s : State), s.mayRestore 0 0 = true ∧ (s.tenantOf (tkey 0 0)).rewritten = true ∧ (s.reshape 0 0).1 = 5) ∧
    (∃ (s : State), s.quantumOver 0 0 = true ∧ s.memberReady 0 0 = true ∧ s.nextMember 0 (s.sliceGroup 0 0) = some 0) ∧
    ∃ (s : State), s.quantumOver 0 0 = true ∧ s.memberReady 0 0 = false := by
  refine ⟨?_, ⟨by decide, by decide⟩, ⟨by decide, by decide, by decide, by decide⟩, by decide, by decide, by decide, by decide, by decide,
    ⟨benchTenant (fun t => { t with state := 5, restoring := true }), _, by decide, rfl, rfl⟩,
    ⟨benchTenant (fun t => { t with
      state := 5, restoring := true, rewritten := true, memsize := 2 ^ 33, draft := some ⟨[0x01010000], 1, 0, 2 ^ 33, 0x40000⟩ }), by decide, rfl, by decide⟩,
    ⟨{ benchTenant (fun t => { t with flags := 1, quantum := 20 }) with now := 17000 }, by decide, by decide, by decide⟩,
    ⟨{ benchTenant (fun t => { t with flags := 1, quantum := 20 }) with teams := [], launches := [] }, by decide, by decide⟩⟩
  intro n h
  exact ⟨_, { ((bench 0 1 0 []).tenantOf 0) with state := n }, rfl, rfl, rfl⟩

/-- ResetValues, StepKeepsMemoryForm, StepKeepsBufferForm: the state after reset, and a machine under way; a descriptor to
configure. -/
theorem witness_kept : State.reset.canon ∧ State.reset.canonBuffers ∧ (bench 0 1 0 []).canon ∧ (bench 0 1 0 []).canonBuffers ∧
    (((bench 0 1 0 []).lease? 0).isSome = true ∧ ((bench 0 1 0 []).tenantOf (tkey 0 15)).state = 0) :=
  ⟨⟨rfl, rfl⟩, ⟨by decide, by decide, by decide⟩, ⟨by decide, rfl⟩, ⟨by decide, by decide, by decide⟩, rfl, rfl⟩

/-- DecodeEncode, EncodeDecode: an instruction, its word and its encoding. -/
theorem witness_codes : (Instr.imad 10 11 12).defect = none ∧ encode (.imad 10 11 12) = some 0x02A2858C ∧
    decode 0x02A2858C = .ok (.imad 10 11 12) := ⟨rfl, rfl, rfl⟩

/-- StepRunsWord: nothing that acts, a cohort alone with a word, and an input. -/
theorem witness_step : (State.reset.passTime).acts = [] ∧
    (∀ w ∈ [0x02A2858C, 0x0A000000], let p := (State.reset.withFetchWord 32 w).passTime
      p.acts.length = 1 ∧ ∃ g c, p.gang? 2 = some g ∧ assocGet? g.cohorts 3 = some c ∧ c.word = w) ∧
    decode 0x0A000000 = .error .unassignedMajor ∧
    (∃ rest, ({ State.reset with inputs := [.boot []] } : State).passTime.inputs = .boot [] :: rest ∧
      ({ State.reset with inputs := [.boot []] } : State).passTime.acts = [.input]) ∧ Instr.isWord (.boot []) = false :=
  ⟨by decide, by
    intro w h
    fin_cases h <;> exact ⟨by decide, _, _, rfl, rfl, rfl⟩, rfl, ⟨_, rfl, by decide⟩, rfl⟩

/-! ### Worked examples -/

/-- The results that an instruction leaves outstanding in lane 0 of the bench, by register. -/
def results (i : Instr) (s : State) : List (Nat × Option Word) :=
  match exec i s with
  | .next t =>
    match t.gang? 3 with
    | some g => (g.results.filter (fun r => r.2.lane == 0)).map (fun r => (r.2.reg, r.2.val))
    | none => []
  | _ => []

/-- The results with v1 to v3 in lane 0. -/
def onRegs (i : Instr) (a b d : Word) : List (Nat × Option Word) := results i (bench 0 1 0 [(1, a), (2, b), (3, d)])

/-- 07 R139: the table of quotients and remainders. -/
theorem test_division : (onRegs (.idiv 3 1 2) 7 (-2) 0 = [(3, some (-3))]) ∧ (onRegs (.irem 3 1 2) 7 (-2) 0 = [(3, some 1)]) ∧
    (onRegs (.idiv 3 1 2) (-7) 2 0 = [(3, some (-3))]) ∧ (onRegs (.irem 3 1 2) (-7) 2 0 = [(3, some (-1))]) ∧
    (onRegs (.idiv 3 1 2) 5 0 0 = [(3, some 0xFFFFFFFF)]) ∧ (onRegs (.irem 3 1 2) 5 0 0 = [(3, some 5)]) ∧
    (onRegs (.idiv 3 1 2) 0x80000000 (-1) 0 = [(3, some 0x80000000)]) ∧ (onRegs (.irem 3 1 2) 0x80000000 (-1) 0 = [(3, some 0)]) ∧
    (onRegs (.udiv 3 1 2) 0xFFFFFFF9 2 0 = [(3, some 0x7FFFFFFC)]) ∧ (onRegs (.urem 3 1 2) 0xFFFFFFF9 2 0 = [(3, some 1)]) := by
  decide

/-- 07 R138: the high halves of products. -/
theorem test_high_products : (onRegs (.imulh 3 1 2) 0x80000000 0x80000000 0 = [(3, some 0x40000000)]) ∧
    (onRegs (.umulh 3 1 2) 0xFFFFFFFF 0xFFFFFFFF 0 = [(3, some 0xFFFFFFFE)]) := by decide

/-- 07 R145: the example of `bfx`. -/
theorem test_bit_field : onRegs (.bfx 3 1 1 11 4) 0xF800 0 0 = [(3, some 0xFFFFFFFF)] := by decide

/-- 07 R146: a fused multiplication and addition rounds once. -/
theorem test_fma : onRegs (.fma 3 1 2) 0x3F800001 0x3F800001 0xBF800002 = [(3, some 0x28800000)] := by decide

/-- 07 R152: the example of `hadd2`. -/
theorem test_hadd2 : onRegs (.hadd2 3 1 2) 0x3C007BFF 0x3C003C00 0 = [(3, some 0x40007BFF)] := by decide

/-- 07 R154: the example of `dp2h`. -/
theorem test_dp2h : onRegs (.dp2h 3 1 2) 0x3C003C00 0x00017BFF 0 = [(3, some 0x477FE000)] := by decide

/-- 02 R30: FP32 values that enter a sum range of FX64 with q = 16, and of INT32. -/
theorem test_sum_range : enterSum 16 (-2 ^ 63) (2 ^ 63 - 1) 0x37A00000 = 1 ∧ enterSum 0 (-2 ^ 31) (2 ^ 31 - 1) 0xC0200000 = -2 := by
  decide

/-- The bench at LEVEL 0 with v1 and v3 in lane 0 and an FPCR. -/
def onFpcr (i : Instr) (a d : Word) (c seed : Nat) : List (Nat × Option Word) :=
  results i (benchGang 1 0 [(1, a), (3, d)] (fun g => { g with lanes := g.lanes.map (fun y => { y with fpcr := c, seed := seed }) }))

/-- 02, worked conversions: 1.3 to the narrow formats. -/
theorem test_conversions : ([(Instr.pkb 3 1 0, 0x3FA6, 0), (.pkh 3 1 0, 0x3D33, 0), (.pk8e 3 1 0, 0x3A, 0), (.pk8e 3 1 0, 0x3B, 3),
    (.pk8f 3 1 0, 0x3D, 0), (.pk6 3 1 0, 0x0D, 0), (.pk4 3 1 0, 3, 0)] : List (Instr × Word × Nat)).all (fun p =>
      onFpcr p.1 0x3FA66666 0 p.2.2 1 == [(3, some p.2.1)]) = true := by decide

/-- 02, worked conversions: 500 to the narrow formats. -/
theorem test_saturation : ([(Instr.pk8e 3 1 0, 0x7F, 0), (.pk8e 3 1 0, 0x7E, 16), (.pk8e 3 1 0, 0x7E, 1), (.pk8f 3 1 0, 0x60, 0),
    (.pk4 3 1 0, 7, 0)] : List (Instr × Word × Nat)).all (fun p =>
      onFpcr p.1 0x43FA0000 0 p.2.2 1 == [(3, some p.2.1)]) = true := by decide

/-- 02 R41: stochastic rounding with SEED 0xC0000000, and the word that it leaves. -/
theorem test_stochastic : (onFpcr (.pkb 3 1 0) 0x3FA66666 0 4 0xC0000000 = [(3, some 0x3FA7)]) ∧
    srStep 0xC0000000 = 0xC00C6000 := by decide

/-- 06, a break out of two regions: lanes 2 and 3 leave, and the entry at which lanes 0 and 1 wait is popped. -/
theorem test_break_out :
    (match exec (.jdrop 1) (benchGang 0xC 0 [] (fun g => { g with stack := [(0x000F, 3), (0x00FF, 0), (0xFFFF, 0)] })) with
     | .next t => (t.gang? 3).map (fun g => (g.stack, (g.lane 0).released, (g.lane 1).released, (g.lane 2).released))
     | _ => none) = some ([(0x00F3, 0), (0xFFFF, 0)], true, true, false) := by decide

/-- 17, a user-trap handler: `trap #5` at LEVEL 0 enters the vector at LEVEL 1 with cause 0x10 and the code. -/
theorem test_user_trap :
    (match exec (.trapv 5) ((bench 0xE2000005 1 0 []).onTenant 0 (fun t => { t with tvec := 0x7F0000009000 })) with
     | .next t => (t.gang? 3).map (fun g => (g.frames.map (fun f => (f.2.cause, f.2.tinfo, f.2.tword)), (g.lane 0).pc, (g.lane 0).level))
     | _ => none) = some ([(0x10, 5, 0xE2000005)], ⟨0x7F0000009000, 0⟩, 1) := by decide

/-- The machine of the example of 08: the tables of a tenant whose pages lie in the second extent, and the low byte but
one of the leaf of stage 1. -/
def benchTables (flags : Byte) : State :=
  { (bench 0 1 0 []).onTenant 0 (fun t => { t with s1root := 0x2000001, s2root := 1, memsize := 2 ^ 33, chmask := 3, attrs := [(0, 29 * 2 ^ 16 + 2 ^ 15)] }) with
    leases := [(0, { createdAt := 0, rows := 1, cols := 1, row0 := 0, col0 := 0, qbase := 0, qcnt := 4
                     extents := [(0, 65536), (0xEA00000000, 65536)] })]
    mem := [(0, 0x0F), (1, 0x20), (4, 1), (0xEA0203F800, 1), (0xEA0203F802, 0x10), (0xEA0203F803, 2), (0xEA02100000, 1),
      (0xEA02100002, 0x11), (0xEA02100003, 2), (0xEA02110200, flags), (0xEA02110201, 0x20), (0xEA02110202, 0x23),
      (0xEA02110203, 1)] }

/-- 08, one store, translated: the wafer address, its home slice, and the fault had W been clear. -/
theorem test_translation :
    (match (benchTables 0x0B).translate ⟨0, some 0, 0, 0, false⟩ 0x7F0000401234 1 false with
     | .ok x => some (x.pa, (benchTables 0x0B).homeOf ⟨0, some 0, 0, 0, false⟩ x)
     | .error _ => none) = some (0xEA01231234, 32 * 29 + 9) ∧
    (match (benchTables 0x09).translate ⟨0, some 0, 0, 0, false⟩ 0x7F0000401234 1 false with
     | .ok _ => none
     | .error f => some (f.cause, f.synd)) = some (0x07, 0x7240) := by decide

/-- 04, a field with three defects: where its logical positions lie, as 9 x row + column plus one. -/
theorem test_defects : (fun m : List Nat => (m.getD (8 * 3 + 2) 0, m.getD (8 * 5 + 2) 0, m.getD (8 * 6 + 2) 0))
    (rawMap [9 * 3 + 2, 9 * 6 + 1, 9 * 6 + 5]) = (9 * 3 + 3 + 1, 9 * 5 + 2 + 1, 9 * 7 + 2 + 1) := by decide

/-- 12, a detour and a break: 42 of 192 words are lost, and 22 are still there to take. -/
theorem test_route_break : (match exec (.routeBreak 0 0 0 1) (benchRoute 1
      { flight := [(1, List.replicate 42 7)], fifos := [(1, List.replicate 22 7)] } 0) with
    | .next t => some (((t.route 0 0 0).lost, (t.route 0 0 0).broken), results (.rtstat 3 0) { t with cur := (3, 4) })
    | _ => none) = some (([(1, 42)], true), [(3, some (BitVec.ofNat 32 (2 ^ 31 + 2 ^ 30 + 2 ^ 29 + 42 * 2 ^ 18 + 22)))]) := by decide

/-- 07 R162: `fredadd` of 2^24, 1, 1 and +0 in lanes 0 to 3. -/
theorem test_fredadd : results (.fredadd 3 1) (benchGang 0xF 0 [] (fun g => { g with
    lanes := (g.lanes.zip ((List.range 16).map (fun l => if l = 0 then 0x4B800000 else if l < 3 then 0x3F800000 else 0))).map
      (fun p => { p.1 with regs := [(1, p.2)] }) })) = [(3, some 0x4B800001)] := by decide

/-- 07 R158: `fxf` of 0x28000 with q = 16. -/
theorem test_fxf : results (.fxf 4 2 16) (bench 0 1 0 [(2, 0x28000)]) = [(4, some 0x40200000)] := by decide

/-- 02, the group order at work: 64 products of 0.5 upon 2^24. -/
theorem test_group : (groupElement false false 0x4B800000 (List.replicate 64 (.fin false 1 (-1)))).1 = 0x4B800010 := by decide

/-- 17 R346: with SAVE 180, a quantum of 200 reads back as 380, and one of 500 as 500. -/
theorem test_quantum : ([(200, 380), (500, 500)] : List (Nat × Nat)).all (fun p =>
    match exec (.quantumWrite 0 0 p.1) { bench 0 1 0 [] with
      leases := [(0, { createdAt := 0, rows := 1, cols := 1, row0 := 0, col0 := 0, qbase := 0, qcnt := 4, extents := []
                       save := 180 })] } with
    | .next t => (t.tenantOf 0).quantum == p.2
    | _ => false) = true := by decide

end Sys2Proof.Tests
end

section
/-! What the memory system and the posts of faults leave alone: one frame for the work on memory in coherence order, one for
the posts into fault buffers, and one that holds both, with a lemma for each operation. -/
namespace Sys2Proof.Machine

/-! ### Parts that exist -/

/-- A tenant that exists is the one that its key reads. -/
theorem tenantOf_of_present {s : State} {k : Nat} (h : (assocGet? s.tenants k).isSome) :
    assocGet? s.tenants k = some (s.tenantOf k) := by
  obtain ⟨x, hx⟩ := Option.isSome_iff_exists.mp h
  simp [State.tenantOf, assocGet, hx]

/-- A key without a tenant reads as the descriptor after reset. -/
theorem tenantOf_of_absent {s : State} {k : Nat} (h : ¬ (assocGet? s.tenants k).isSome) : s.tenantOf k = {} := by
  simp only [Option.isSome_iff_ne_none, not_not] at h
  simp [State.tenantOf, assocGet, h]

/-- What a change of one tenant does to the one that a key reads. -/
theorem onTenant_tenantOf (s : State) (k i : Nat) (f : Tenant → Tenant) :
    (s.onTenant k f).tenantOf i =
      if i = k ∧ (assocGet? s.tenants k).isSome then f (s.tenantOf i) else s.tenantOf i := by
  by_cases h : (assocGet? s.tenants k).isSome
  · rw [onTenant_eq s k f (tenantOf_of_present h), setTenant_tenant]
    by_cases e : i = k <;> simp [h, e]
  · simp only [h, and_false, if_false, Bool.false_eq_true]
    simp only [Option.isSome_iff_ne_none, not_not] at h
    simp [State.onTenant, h]

/-- A change of a tenant touches the list of tenants alone. -/
theorem onTenant_rest (s : State) (k : Nat) (f : Tenant → Tenant) :
    s.onTenant k f = { s with tenants := (s.onTenant k f).tenants } := by
  unfold State.onTenant
  split <;> rfl

/-- A change of a gang touches the list of gangs alone. -/
theorem onGang_rest (s : State) (k : Nat) (f : Gang → Gang) :
    s.onGang k f = { s with gangs := (s.onGang k f).gangs } := by
  unfold State.onGang
  split <;> rfl

theorem setTenant_present {s : State} {k i : Nat} {x : Tenant} (h : (assocGet? s.tenants i).isSome) :
    (assocGet? (s.setTenant k x).tenants i).isSome := by
  show (assocGet? (assocSet s.tenants k x) i).isSome
  rw [assocGet?_assocSet]
  split
  · rfl
  · exact h

theorem onTenant_present {s : State} {k i : Nat} {f : Tenant → Tenant} (h : (assocGet? s.tenants i).isSome) :
    (assocGet? (s.onTenant k f).tenants i).isSome := by
  unfold State.onTenant
  split
  · exact h
  · exact setTenant_present h

/-! ### Work on memory in coherence order -/

/-- A tenant without what the race checks and the counters note of it. -/
def Tenant.unnoted (x : Tenant) : Tenant := { x with incomplete := false, drops := 0, counters := [] }

/-- What work on memory in coherence order may change: the memory with what the caches and homes hold of it, the accesses
under way, the monitors of lanes, translations, and of a tenant the notes of the race checks and its counters. -/
structure CoherenceStep (s t : State) : Prop where
  rest : t = { s with
    nextId := t.nextId, mem := t.mem, badLines := t.badLines, l2 := t.l2, sharers := t.sharers, holders := t.holders
    marks := t.marks, monRegs := t.monRegs, accesses := t.accesses, syncs := t.syncs, fills := t.fills
    buckets := t.buckets, refillAt := t.refillAt, versions := t.versions, quads := t.quads, tenants := t.tenants
    gangs := t.gangs, cores := t.cores }
  tenants : ∀ k, (t.tenantOf k).unnoted = (s.tenantOf k).unnoted
  present : ∀ k, (assocGet? s.tenants k).isSome → (assocGet? t.tenants k).isSome

namespace CoherenceStep

theorem refl (s : State) : CoherenceStep s s := ⟨rfl, fun _ => rfl, fun _ h => h⟩

theorem trans {s t u : State} (h : CoherenceStep s t) (k : CoherenceStep t u) : CoherenceStep s u where
  rest := by rw [k.rest, h.rest]
  tenants i := (k.tenants i).trans (h.tenants i)
  present i hi := k.present i (h.present i hi)

theorem foldl {α : Type} {f : State → α → State} (hf : ∀ s x, CoherenceStep s (f s x)) (xs : List α) (s : State) :
    CoherenceStep s (xs.foldl f s) := by
  induction xs generalizing s with
  | nil => exact refl s
  | cons x xs ih => exact (hf s x).trans (ih (f s x))

/-- A step that leaves every tenant as it is. -/
theorem of_rest {s t : State}
    (h : t = { s with
      nextId := t.nextId, mem := t.mem, badLines := t.badLines, l2 := t.l2, sharers := t.sharers, holders := t.holders
      marks := t.marks, monRegs := t.monRegs, accesses := t.accesses, syncs := t.syncs, fills := t.fills
      buckets := t.buckets, refillAt := t.refillAt, versions := t.versions, quads := t.quads, gangs := t.gangs
      cores := t.cores }) : CoherenceStep s t := by
  have e : t.tenants = s.tenants := by rw [h]
  refine ⟨by rw [h], fun k => ?_, fun k hk => by rwa [e]⟩
  unfold State.tenantOf
  rw [e]

theorem leases {s t : State} (h : CoherenceStep s t) : t.leases = s.leases := by rw [h.rest]
theorem launches {s t : State} (h : CoherenceStep s t) : t.launches = s.launches := by rw [h.rest]
theorem teams {s t : State} (h : CoherenceStep s t) : t.teams = s.teams := by rw [h.rest]

end CoherenceStep

theorem coherenceStep_caches {s t : State} (h : CachesOnly s t) : CoherenceStep s t :=
  .of_rest (by rw [h])

theorem coherenceStep_onPart (s : State) (k : Nat) (f : Tenant → Tenant) (hf : ∀ x, (f x).unnoted = x.unnoted) :
    CoherenceStep s (s.onPart k f) := by
  refine ⟨rfl, fun i => ?_, fun _ h => setTenant_present h⟩
  unfold State.onPart
  rw [setTenant_tenant]
  split
  · rename_i e
    rw [e]
    exact hf _
  · rfl

theorem coherenceStep_onTenant (s : State) (k : Nat) (f : Tenant → Tenant) (hf : ∀ x, (f x).unnoted = x.unnoted) :
    CoherenceStep s (s.onTenant k f) := by
  refine ⟨by rw [onTenant_rest], fun i => ?_, fun _ h => onTenant_present h⟩
  rw [onTenant_tenantOf]
  split
  · exact hf _
  · rfl

theorem coherenceStep_tally (s : State) (part i n : Nat) : CoherenceStep s (s.tally part i n) :=
  coherenceStep_onTenant s part _ (fun x => by split <;> rfl)

theorem coherenceStep_onGang (s : State) (k : Nat) (f : Gang → Gang) : CoherenceStep s (s.onGang k f) :=
  .of_rest (by rw [onGang_rest])

theorem coherenceStep_fireMonitorsIf (s : State) (line : Nat) (p : Nat → Bool) :
    CoherenceStep s (s.fireMonitorsIf line p) :=
  .foldl (fun s _ => coherenceStep_onGang s _ _) _ s

theorem coherenceStep_fireMonitors (s : State) (line : Nat) : CoherenceStep s (s.fireMonitors line) :=
  coherenceStep_fireMonitorsIf s line _

theorem coherenceStep_lapseMonitors (s : State) (p : MonReg → Bool) : CoherenceStep s (s.lapseMonitors p) :=
  (CoherenceStep.of_rest (t := { s with monRegs := s.monRegs.filter (fun r => !p r) }) rfl).trans
    (.foldl (fun s _ => coherenceStep_onGang s _ _) _ _)

theorem coherenceStep_trimMarks (s : State) (place n : Nat) : CoherenceStep s (s.trimMarks place n) := by
  induction n generalizing s with
  | zero => exact .refl s
  | succ n ih =>
    unfold State.trimMarks
    dsimp only
    split
    · exact .refl s
    · split
      · exact .of_rest rfl
      · split
        · exact .of_rest rfl
        · refine .trans (.trans ?_ (coherenceStep_tally _ _ _ _)) (ih _)
          exact (CoherenceStep.of_rest rfl).trans (coherenceStep_onPart _ _ _ (fun _ => rfl))

theorem coherenceStep_moveMarks (s : State) (line : Nat) (p : Nat → Bool) (place : Nat) :
    CoherenceStep s (s.moveMarks line p place) :=
  (CoherenceStep.of_rest rfl).trans (coherenceStep_trimMarks _ _ _)

theorem coherenceStep_publishPin (s : State) (core line : Nat) (p : Pin) (pub : List Sync) :
    CoherenceStep s (s.publishPin core line p pub) :=
  ((CoherenceStep.of_rest rfl).trans (coherenceStep_moveMarks _ _ _ _)).trans (coherenceStep_fireMonitors _ _)

/-- The publication of a team's pins is work on memory (11 R268). -/
theorem coherenceStep_publishPins (s : State) (team : Nat) (pub : List Sync) :
    CoherenceStep s (s.publishPins team pub) := by
  unfold State.publishPins
  split
  · exact .refl s
  · exact .foldl (fun s _ => coherenceStep_publishPin s _ _ _ _) _ s

theorem coherenceStep_hwPut (s : State) (a : Nat) (bs : List Byte) : CoherenceStep s (s.hwPut a bs) := by
  unfold State.hwPut
  dsimp only
  split
  · exact .of_rest rfl
  · split <;> exact .of_rest rfl

theorem coherenceStep_hwSet (s : State) (a : Nat) (bs : List Byte) : CoherenceStep s (s.hwSet a bs) :=
  .foldl (fun s _ => coherenceStep_hwPut s _ _) _ s

theorem coherenceStep_combine (s : State) (line : Nat) : CoherenceStep s (s.combine line) := by
  unfold State.combine State.combineCores
  dsimp only
  split
  · exact .of_rest rfl
  · exact (CoherenceStep.of_rest rfl).trans (coherenceStep_fireMonitors _ _)

theorem coherenceStep_touchNow (s : State) (home line : Nat) (fixed write : Bool) :
    CoherenceStep s (s.touchNow home line fixed write) :=
  coherenceStep_caches (touchNow_does s home line fixed write).1

theorem coherenceStep_owe (s : State) (a n : Nat) : CoherenceStep s (s.owe a n) :=
  coherenceStep_caches (owe_tokensOnly s a n).caches

theorem coherenceStep_hwTouch (s : State) (c : Ctx) (x : Xlat) (n : Nat) (write : Bool) :
    CoherenceStep s (s.hwTouch c x n write) := by
  refine .foldl (fun s line => ?_) _ s
  dsimp only
  split
  · exact (coherenceStep_touchNow _ _ _ _ _).trans (coherenceStep_combine _ _)
  · exact coherenceStep_touchNow _ _ _ _ _

theorem coherenceStep_endFill (s : State) (page : Nat) : CoherenceStep s (s.endFill page) :=
  (CoherenceStep.of_rest rfl).trans (.foldl coherenceStep_fireMonitors _ _)

theorem coherenceStep_clearDisc {s t : State} {x : Leaves} (h : s.clearDisc x = some t) : CoherenceStep s t := by
  have fix : ∀ (s : State) (l a : Nat), CoherenceStep s
      (if l != 0 && bit (s.hwNat a 8) 10 then
        s.hwPut a (leBytes 8 ((s.hwNat a 8 - 2 ^ 10) ||| (2 ^ 11 + 2 ^ 12))) else s) := by
    intro s l a
    split
    · exact coherenceStep_hwPut _ _ _
    · exact .refl s
  unfold State.clearDisc at h
  dsimp only at h
  split at h
  · cases h
    exact (fix _ _ _).trans (fix _ _ _)
  · cases h

theorem coherenceStep_reviveNow (s : State) (x : Xlat) : CoherenceStep s (s.reviveNow x) := by
  have fill : ∀ s : State, CoherenceStep s ((s.owe (x.pa / 2 ^ 16 * 2 ^ 16) 1024).endFill (x.pa / 2 ^ 16)) :=
    fun s => (coherenceStep_owe _ _ _).trans (coherenceStep_endFill _ _)
  unfold State.reviveNow
  dsimp only
  split
  · exact fill s
  · split
    · split
      · rename_i u hu
        split
        · exact (coherenceStep_clearDisc hu).trans (fill u)
        · exact coherenceStep_clearDisc hu
      · exact .refl s
    · exact .refl s

theorem coherenceStep_orEntry (s : State) (a e b : Nat) : CoherenceStep s (s.orEntry a e b) := by
  unfold State.orEntry
  dsimp only
  split
  · exact coherenceStep_hwPut _ _ _
  · exact .refl s

theorem coherenceStep_markLeaves (s : State) (x : Leaves) (write : Bool) : CoherenceStep s (s.markLeaves x write) := by
  unfold State.markLeaves
  dsimp only
  have first : CoherenceStep s (if x.l1 = 0 then s else s.orEntry x.a1 x.e1 (2 ^ 11 + (if write then 2 ^ 12 else 0))) := by
    split
    · exact .refl s
    · exact coherenceStep_orEntry _ _ _ _
  split
  · exact first
  · exact first.trans (coherenceStep_orEntry _ _ _ _)

theorem coherenceStep_walked (s : State) (c : Ctx) (n : Nat) (rs : List WalkRead) :
    CoherenceStep s (s.walked c n rs) := by
  unfold State.walked
  dsimp only
  have reads : CoherenceStep s (rs.foldl (fun s r =>
      if r.cached || s.inL2 (lineOf r.addr) then s
      else s.touchNow (s.homeOf c { pa := r.addr, attr := r.attr.getD 0, tabled := r.attr.isSome }) (lineOf r.addr)
        (bit (r.attr.getD 0) 15) false) s) := by
    refine .foldl (fun s r => ?_) rs s
    split
    · exact .refl s
    · exact coherenceStep_touchNow _ _ _ _ _
  split
  · exact reads
  · split
    · exact reads
    · exact reads.trans (.of_rest rfl)

theorem coherenceStep_walkNow (s : State) (c : Ctx) (va acc : Nat) (peerOk : Bool) :
    CoherenceStep s (s.walkNow c va acc peerOk).1 := by
  unfold State.walkNow
  dsimp only
  split
  · split
    · exact .refl s
    · exact (coherenceStep_walked _ _ _ _).trans (coherenceStep_tally _ _ _ _)
  · exact .refl s

/-! ### Posts into fault buffers -/

/-- A lease without its fault buffer. -/
def Lease.unposted (x : Lease) : Lease := { x with fb := {} }

/-- What posts into fault buffers may change: the buffers, the rings in host memory and the interrupts. -/
structure PostStep (s t : State) : Prop where
  rest : t = { s with
    tenants := t.tenants, leases := t.leases, ownerFb := t.ownerFb, host := t.host, outbox := t.outbox }
  tenants : ∀ k, { t.tenantOf k with fb := {} } = { s.tenantOf k with fb := {} }
  present : ∀ k, (assocGet? s.tenants k).isSome → (assocGet? t.tenants k).isSome
  leases : ∀ l, (t.lease? l).map Lease.unposted = (s.lease? l).map Lease.unposted

namespace PostStep

theorem refl (s : State) : PostStep s s := ⟨rfl, fun _ => rfl, fun _ h => h, fun _ => rfl⟩

theorem trans {s t u : State} (h : PostStep s t) (k : PostStep t u) : PostStep s u where
  rest := by rw [k.rest, h.rest]
  tenants i := (k.tenants i).trans (h.tenants i)
  present i hi := k.present i (h.present i hi)
  leases i := (k.leases i).trans (h.leases i)

theorem foldl {α : Type} {f : State → α → State} (hf : ∀ s x, PostStep s (f s x)) (xs : List α) (s : State) :
    PostStep s (xs.foldl f s) := by
  induction xs generalizing s with
  | nil => exact refl s
  | cons x xs ih => exact (hf s x).trans (ih (f s x))

/-- A post made under a condition. -/
theorem ite {s t : State} {p : Prop} [Decidable p] (h : PostStep s t) : PostStep s (if p then t else s) := by
  split
  · exact h
  · exact refl s

theorem mem {s t : State} (h : PostStep s t) : t.mem = s.mem := by rw [h.rest]
theorem gangs {s t : State} (h : PostStep s t) : t.gangs = s.gangs := by rw [h.rest]
theorem teams {s t : State} (h : PostStep s t) : t.teams = s.teams := by rw [h.rest]

end PostStep

/-- A host write or an interrupt beside a post. -/
theorem postStep_outside (s : State) (m : Mem) (o : List Output) : PostStep s { s with host := m, outbox := o } :=
  ⟨rfl, fun _ => rfl, fun _ h => h, fun _ => rfl⟩

theorem postStep_onTenant (s : State) (k : Nat) (f : Tenant → Tenant)
    (hf : ∀ x, { f x with fb := {} } = { x with fb := {} }) : PostStep s (s.onTenant k f) := by
  refine ⟨by rw [onTenant_rest], fun i => ?_, fun _ h => onTenant_present h, fun i => by rw [onTenant_rest]; rfl⟩
  rw [onTenant_tenantOf]
  split
  · exact hf _
  · rfl

theorem postStep_setFb (s : State) (r : FbRef) (f : FaultBuffer) : PostStep s (s.setFb r f) := by
  cases r with
  | tenant l n => exact postStep_onTenant s _ _ (fun _ => rfl)
  | lease l =>
    unfold State.setFb
    dsimp only
    split
    · rename_i x hx
      refine ⟨rfl, fun _ => rfl, fun _ h => h, fun i => ?_⟩
      rw [setLease_lease]
      split
      · rename_i e
        rw [e, hx]
        rfl
      · rfl
    · exact .refl s
  | owner => exact ⟨rfl, fun _ => rfl, fun _ h => h, fun _ => rfl⟩

theorem postStep_postWords (s : State) (r : FbRef) (ws : List Nat) : PostStep s (s.postWords r ws) := by
  unfold State.postWords
  dsimp only
  split
  · exact (postStep_setFb _ _ _).trans (.ite (postStep_outside _ _ _))
  · exact ((postStep_outside s _ s.outbox).trans (postStep_setFb _ _ _)).trans (.ite (postStep_outside _ _ _))

theorem postStep_post (s : State) (r : FbRef) (e : Entry) : PostStep s (s.post r e) := postStep_postWords s r _

theorem postStep_postRequest (s : State) (r : FbRef) (e : Entry) (k : ReqKind) :
    PostStep s (s.postRequest r e k).2 :=
  (postStep_setFb _ _ _).trans (postStep_post _ _ _)

/-- A faulted access of a dispatcher posts and waits (03 R382). -/
theorem postStep_hwFault (s : State) (d : Dom) (f : TFault) (va : Nat) (acc : HwAccess) :
    PostStep s (s.hwFault d f va acc) := postStep_postRequest s _ _ _

theorem postStep_migrateHint (s : State) (c : Ctx) (slot l va : Nat) (f : TFault) :
    PostStep s (s.migrateHint c slot l va f) := by
  unfold State.migrateHint
  split
  · split
    · exact .refl s
    · split
      · exact .refl s
      · exact .ite (postStep_postRequest _ _ _ _)
  · exact .refl s

/-! ### Accesses that the hardware makes on its own -/

/-- A tenant without its fault buffer and what the race checks and the counters note of it. -/
def Tenant.quiet (x : Tenant) : Tenant := { x.unnoted with fb := {} }

/-- What an access of the hardware may change: what work on memory and posts may, with host memory and its errors. -/
structure HardwareStep (s t : State) : Prop where
  rest : t = { s with
    nextId := t.nextId, mem := t.mem, badLines := t.badLines, l2 := t.l2, sharers := t.sharers, holders := t.holders
    marks := t.marks, monRegs := t.monRegs, accesses := t.accesses, syncs := t.syncs, fills := t.fills
    buckets := t.buckets, refillAt := t.refillAt, versions := t.versions, quads := t.quads, tenants := t.tenants
    gangs := t.gangs, cores := t.cores, leases := t.leases, ownerFb := t.ownerFb, host := t.host
    hostErrors := t.hostErrors, outbox := t.outbox }
  tenants : ∀ k, (t.tenantOf k).quiet = (s.tenantOf k).quiet
  present : ∀ k, (assocGet? s.tenants k).isSome → (assocGet? t.tenants k).isSome
  leases : ∀ l, (t.lease? l).map Lease.unposted = (s.lease? l).map Lease.unposted

namespace HardwareStep

theorem refl (s : State) : HardwareStep s s := ⟨rfl, fun _ => rfl, fun _ h => h, fun _ => rfl⟩

theorem trans {s t u : State} (h : HardwareStep s t) (k : HardwareStep t u) : HardwareStep s u where
  rest := by rw [k.rest, h.rest]
  tenants i := (k.tenants i).trans (h.tenants i)
  present i hi := k.present i (h.present i hi)
  leases i := (k.leases i).trans (h.leases i)

theorem foldl {α : Type} {f : State → α → State} (hf : ∀ s x, HardwareStep s (f s x)) (xs : List α) (s : State) :
    HardwareStep s (xs.foldl f s) := by
  induction xs generalizing s with
  | nil => exact refl s
  | cons x xs ih => exact (hf s x).trans (ih (f s x))

/-- Steps that carry a result along. -/
theorem foldl_fst {α β : Type} {f : State × β → α → State × β} (hf : ∀ r x, HardwareStep r.1 (f r x).1) (xs : List α)
    (r : State × β) : HardwareStep r.1 (xs.foldl f r).1 := by
  induction xs generalizing r with
  | nil => exact refl r.1
  | cons x xs ih => exact (hf r x).trans (ih (f r x))

theorem launches {s t : State} (h : HardwareStep s t) : t.launches = s.launches := by rw [h.rest]

end HardwareStep

theorem CoherenceStep.hardware {s t : State} (h : CoherenceStep s t) : HardwareStep s t where
  rest := by rw [h.rest]
  tenants k := congrArg (fun x : Tenant => { x with fb := {} }) (h.tenants k)
  present := h.present
  leases l := by unfold State.lease?; rw [h.leases]

theorem PostStep.hardware {s t : State} (h : PostStep s t) : HardwareStep s t where
  rest := by rw [h.rest]
  tenants k := congrArg Tenant.unnoted (h.tenants k)
  present := h.present
  leases := h.leases

/-- A change of host memory, its errors and the releases of words. -/
theorem hardwareStep_host (s : State) (m : Mem) (e : List Nat) : HardwareStep s { s with host := m, hostErrors := e } :=
  ⟨rfl, fun _ => rfl, fun _ h => h, fun _ => rfl⟩

theorem hardwareStep_hostAnswer (s : State) (c : Ctx) (acc : Nat) : HardwareStep s (s.hostAnswer c acc).1 := by
  unfold State.hostAnswer
  dsimp only
  split
  · exact hardwareStep_host s s.host _
  · exact .refl s

theorem hardwareStep_hwXlat (s : State) (c : Ctx) (va acc : Nat) (op : AccOp) :
    HardwareStep s (s.hwXlat c va acc op).1 := by
  have walk := (coherenceStep_walkNow s c va acc false).hardware
  unfold State.hwXlat
  generalize s.walkNow c va acc false = r at walk ⊢
  obtain ⟨u, e | x⟩ := r
  · exact walk.trans (postStep_migrateHint _ _ _ _ _ _).hardware
  · dsimp only
    split
    · exact walk
    · exact walk.trans (coherenceStep_markLeaves _ _ _).hardware

theorem hardwareStep_hwLoad (s : State) (c : Ctx) (va n acc : Nat) (op : AccOp) :
    HardwareStep s (s.hwLoad c va n acc op).1 := by
  refine HardwareStep.foldl_fst (fun r p => ?_) _ (s, _)
  obtain ⟨u, e | bs⟩ := r
  · exact .refl u
  · dsimp only
    have walk := hardwareStep_hwXlat u c p.1 acc op
    generalize u.hwXlat c p.1 acc op = r at walk ⊢
    obtain ⟨v, e | x⟩ := r
    · exact walk
    · dsimp only
      split
      · exact walk
      · split
        · have answer := walk.trans (hardwareStep_hostAnswer v c acc)
          generalize v.hostAnswer c acc = r at answer ⊢
          obtain ⟨w, f | _⟩ := r <;> exact answer
        · exact walk.trans (coherenceStep_hwTouch _ _ _ _ _).hardware

/-- Bytes written for the hardware at one translated page. -/
theorem hardwareStep_writePage (s : State) (x : Xlat) (c : Ctx) (part : List Byte) (n : Nat) (m : Mem)
    (y : List (Nat × WordSync)) : HardwareStep s (if x.kind = 1 then { s.reviveNow x with host := m }
      else (linesOf x.pa n).foldl State.fireMonitors
        { ((s.reviveNow x).hwTouch c x n true).hwSet x.pa part with syncs := y }) := by
  have revive := (coherenceStep_reviveNow s x).hardware
  split
  · exact revive.trans (hardwareStep_host _ _ _)
  · have put := ((coherenceStep_hwTouch (s.reviveNow x) c x n true).trans (coherenceStep_hwSet _ x.pa part)).hardware
    exact (revive.trans put).trans ((CoherenceStep.of_rest rfl).trans (.foldl coherenceStep_fireMonitors _ _)).hardware

theorem hardwareStep_hwStore (s : State) (c : Ctx) (va : Nat) (bs : List Byte) (acc : Nat) :
    HardwareStep s (s.hwStore c va bs acc).1 := by
  unfold State.hwStore
  split
  rename_i u r hr
  have xlats : HardwareStep s u := by
    rw [show u = _ from (congrArg Prod.fst hr).symm]
    refine HardwareStep.foldl_fst (fun r p => ?_) _ (s, _)
    obtain ⟨u, e | xs⟩ := r
    · exact .refl u
    · dsimp only
      have walk := hardwareStep_hwXlat u c p.1 acc .store
      generalize u.hwXlat c p.1 acc .store = r at walk ⊢
      obtain ⟨v, e | x⟩ := r
      · exact walk
      · dsimp only
        have answer : HardwareStep u (if x.kind = 1 then v.hostAnswer c acc else (v, none)).1 := by
          split
          · exact walk.trans (hardwareStep_hostAnswer v c acc)
          · exact walk
        generalize (if x.kind = 1 then v.hostAnswer c acc else (v, none)) = r at answer ⊢
        obtain ⟨w, f | _⟩ := r <;> exact answer
  split
  · exact xlats
  · exact xlats.trans (.foldl (fun s (p : Nat × Nat × Xlat) => hardwareStep_writePage s p.2.2 c _ _ _ _) _ u)

end Sys2Proof.Machine
end

section
/-! Queues and their domains: what a write of a queue control block leaves, appends, the taking of a record, hold lists. -/
namespace Sys2Proof.Machine

/-! ### Bits of numbers -/

theorem bit_eq_testBit (x i : Nat) : bit x i = x.testBit i := by
  rw [Nat.testBit_eq_decide_div_mod_eq]
  rfl

/-- A bit that is set outside a field does not change it. -/
theorem bits_or_outside (x : Nat) {n hi lo : Nat} (hl : lo ≤ hi) (h : n < lo ∨ hi < n) :
    bits (x ||| 2 ^ n) hi lo = bits x hi lo := by
  apply Nat.eq_of_testBit_eq
  intro i
  simp only [bits, Nat.testBit_mod_two_pow, Nat.testBit_div_two_pow, Nat.testBit_or, Nat.testBit_two_pow]
  by_cases k : i < hi - lo + 1
  · have e : ¬ n = i + lo := by omega
    simp [e]
  · simp [k]

/-! ### The domain of a queue -/

/-- Whether the tenant or the lease of a domain exists. -/
def State.hasDom (s : State) (d : Dom) : Prop :=
  match d with
  | .tenant l n => (assocGet? s.tenants (tkey l n)).isSome
  | .lsq l => (s.lease? l).isSome

/-- A domain that has a queue exists. -/
theorem hasDom_of_count {s : State} {d : Dom} {q : Nat} (hq : q < s.queueCount d)
    (hl : ∀ l, d = .lsq l → (s.lease? l).isSome) : s.hasDom d := by
  cases d with
  | tenant l n =>
    by_contra h
    have e := tenantOf_of_absent (k := tkey l n) h
    unfold State.queueCount at hq
    dsimp only at hq
    rw [e] at hq
    exact absurd hq (Nat.not_lt_zero q)
  | lsq l => exact hl l rfl

theorem hasDom_lsq {s : State} {l : Nat} (h : s.hasDom (.lsq l)) : ∃ x, s.lease? l = some x :=
  Option.isSome_iff_exists.mp h

theorem HardwareStep.hasDom {s t : State} {d : Dom} (h : HardwareStep s t) (hd : s.hasDom d) : t.hasDom d := by
  cases d with
  | tenant l n => exact h.present _ hd
  | lsq l =>
    have e := congrArg Option.isSome (h.leases l)
    rw [Option.isSome_map, Option.isSome_map] at e
    exact e.trans hd

theorem queueOf_lsq (s : State) (l q : Nat) : s.queueOf (.lsq l) q = ((s.lease? l).map Lease.lsq).getD {} := by
  unfold State.queueOf
  cases h : s.lease? l <;> simp [h]

/-- No access of the hardware changes a queue control block. -/
theorem HardwareStep.queueOf {s t : State} (h : HardwareStep s t) (d : Dom) (q : Nat) :
    t.queueOf d q = s.queueOf d q := by
  cases d with
  | tenant l n => exact congrArg (fun x : Tenant => assocGet {} x.queues q) (h.tenants (tkey l n))
  | lsq l =>
    have e := congrArg (fun o : Option Lease => (o.map Lease.lsq).getD {}) (h.leases l)
    simp only [Option.map_map] at e
    rw [queueOf_lsq, queueOf_lsq]
    exact e

theorem setQueue_rest (s : State) (d : Dom) (q : Nat) (x : Queue) :
    s.setQueue d q x = { s with tenants := (s.setQueue d q x).tenants, leases := (s.setQueue d q x).leases } := by
  cases d with
  | tenant l n =>
    unfold State.setQueue
    dsimp only
    rw [onTenant_rest]
  | lsq l =>
    unfold State.setQueue
    dsimp only
    split <;> rfl

@[simp] theorem setQueue_mem (s : State) (d : Dom) (q : Nat) (x : Queue) : (s.setQueue d q x).mem = s.mem := by
  rw [setQueue_rest]

@[simp] theorem setQueue_launch (s : State) (d : Dom) (q : Nat) (x : Queue) (i : Nat) :
    (s.setQueue d q x).launch? i = s.launch? i := by
  unfold State.launch?
  rw [setQueue_rest]

theorem setQueue_hasDom {s : State} {d : Dom} {q : Nat} {x : Queue} (h : s.hasDom d) : (s.setQueue d q x).hasDom d := by
  cases d with
  | tenant l n => exact onTenant_present h
  | lsq l =>
    obtain ⟨y, hy⟩ := hasDom_lsq h
    simp [State.hasDom, State.setQueue, hy]

theorem setQueue_queueOf {s : State} {d : Dom} {q : Nat} {x : Queue} (h : s.hasDom d) :
    (s.setQueue d q x).queueOf d q = x := by
  cases d with
  | tenant l n =>
    show assocGet {} ((s.onTenant (tkey l n) _).tenantOf (tkey l n)).queues q = x
    rw [onTenant_tenantOf, if_pos ⟨rfl, h⟩]
    exact assocGet_assocSet_self _ _ _ _
  | lsq l =>
    obtain ⟨y, hy⟩ := hasDom_lsq h
    simp [State.queueOf, State.setQueue, hy]

@[simp] theorem onQueue_mem (s : State) (d : Dom) (q : Nat) (f : Queue → Queue) : (s.onQueue d q f).mem = s.mem :=
  setQueue_mem s d q _

@[simp] theorem onQueue_launch (s : State) (d : Dom) (q : Nat) (f : Queue → Queue) (i : Nat) :
    (s.onQueue d q f).launch? i = s.launch? i := setQueue_launch s d q _ i

theorem onQueue_hasDom {s : State} {d : Dom} {q : Nat} {f : Queue → Queue} (h : s.hasDom d) :
    (s.onQueue d q f).hasDom d := setQueue_hasDom h

theorem onQueue_queueOf {s : State} {d : Dom} {q : Nat} {f : Queue → Queue} (h : s.hasDom d) :
    (s.onQueue d q f).queueOf d q = f (s.queueOf d q) := setQueue_queueOf h

/-! ### Writes by a host (03 R51 to R57) -/

theorem hostQueue_unreached {s : State} {d : Dom} (h : s.hostReaches d = false) (q : Nat) (k : State → State) :
    s.hostQueue d q k = s := by simp [State.hostQueue, h]

theorem hostQueue_reached {s : State} {d : Dom} {q : Nat} (h : s.hostReaches d = true) (hq : q < s.queueCount d)
    (k : State → State) : s.hostQueue d q k = k s := by simp [State.hostQueue, h, hq]

/-- A control doubleword with EN set and every field in range enables a queue, and empties it. -/
theorem control_enable {x : Queue} {v : Nat} (he : x.en = false) (h4 : 4 ≤ v % 2 ^ 5) (h20 : v % 2 ^ 5 ≤ 20)
    (hhi : v % 2 ^ 64 / 2 ^ 32 = 0) (hmid : v / 2 ^ 14 % 2 ^ 17 = 0) (hlow : v / 2 ^ 5 % 2 ^ 3 = 0)
    (hb : x.qbase / 2 ^ 48 % 2 ^ 16 = 0) (ha : x.qbase % 64 = 0) :
    x.control (v % 2 ^ 64 ||| 2 ^ 31) = { x with
      en := true, head := 0, tail := 0, held := [], stalled := false, waiting := [], dead := [], vcs := []
      wm1 := v / 2 ^ 10 % 2 ^ 4, prio := v / 2 ^ 8 % 2 ^ 2, logsz := v % 2 ^ 5 } := by
  have f : ∀ hi lo, lo ≤ hi → 31 < lo ∨ hi < 31 → bits (v % 2 ^ 64 ||| 2 ^ 31) hi lo = bits (v % 2 ^ 64) hi lo :=
    fun hi lo => bits_or_outside _
  have wm1 : bits (v % 2 ^ 64) 13 10 = v / 2 ^ 10 % 2 ^ 4 := by unfold bits; omega
  have prio : bits (v % 2 ^ 64) 9 8 = v / 2 ^ 8 % 2 ^ 2 := by unfold bits; omega
  have logsz : bits (v % 2 ^ 64) 4 0 = v % 2 ^ 5 := by unfold bits; omega
  have high : bits (v % 2 ^ 64) 63 32 = 0 := by unfold bits; omega
  have mid : bits (v % 2 ^ 64) 30 14 = 0 := by unfold bits; omega
  have low : bits (v % 2 ^ 64) 7 5 = 0 := by unfold bits; omega
  have base : bits x.qbase 63 48 = 0 := hb
  have line : bits x.qbase 5 0 = 0 := by unfold bits; omega
  have en : bit (v % 2 ^ 64 ||| 2 ^ 31) 31 = true := by
    rw [bit_eq_testBit, Nat.testBit_or, Nat.testBit_two_pow_self, Bool.or_true]
  generalize v % 2 ^ 64 ||| 2 ^ 31 = w at f en ⊢
  unfold Queue.control
  rw [he, f 13 10 (by decide) (by decide), f 9 8 (by decide) (by decide), f 4 0 (by decide) (by decide),
    f 63 32 (by decide) (by decide), f 30 14 (by decide) (by decide), f 7 5 (by decide) (by decide), en, wm1, prio, logsz,
    high, mid, low, base, line]
  simpa using And.intro h4 h20

theorem bit_sub_and (x : Nat) : bit (x - (x &&& 2 ^ 31)) 31 = false := by
  rw [Nat.and_two_pow, ← bit_eq_testBit]
  unfold bit
  by_cases h : x / 2 ^ 31 % 2 = 1
  · have e : (x - 2 ^ 31) / 2 ^ 31 % 2 = 0 := by omega
    rw [h, beq_self_eq_true, Bool.toNat_true, Nat.one_mul, e]
    rfl
  · rw [beq_false_of_ne h, Bool.toNat_false, Nat.zero_mul, Nat.sub_zero, beq_false_of_ne h]

/-- A control doubleword with EN clear disables a queue that is enabled. -/
theorem control_disable {x : Queue} (v : Nat) (he : x.en = true) :
    x.control (v % 2 ^ 64 - (v % 2 ^ 64 &&& 2 ^ 31)) = { x with en := false } := by
  unfold Queue.control
  rw [he, if_pos rfl, bit_sub_and]

/-- The accesses that an enabled ring disowns stand in fault buffers and in answers that wait. -/
theorem disown_cases (s : State) (d : Dom) (q : Nat) : ∃ u, PostStep s u ∧ (s.disown d q = u ∨
    ∃ (k : Nat) (f : Tenant → Tenant), (∀ x, (f x).queues = x.queues) ∧ s.disown d q = u.onTenant k f) := by
  unfold State.disown
  cases d with
  | tenant l n =>
    refine ⟨_, PostStep.foldl ?_ [1, 2, 3] s, .inr ⟨tkey l n, _, ?_, rfl⟩⟩
    · exact fun _ _ => postStep_setFb _ _ _
    · exact fun _ => rfl
  | lsq l =>
    refine ⟨_, PostStep.foldl ?_ [1, 2, 3] s, .inl rfl⟩
    exact fun _ _ => postStep_setFb _ _ _

theorem disown_mem (s : State) (d : Dom) (q : Nat) : (s.disown d q).mem = s.mem := by
  obtain ⟨u, post, e | ⟨k, f, -, e⟩⟩ := disown_cases s d q
  · rw [e, post.mem]
  · rw [e, onTenant_rest, ← post.mem]

/-- What is outstanding for a ring is no part of its control block. -/
theorem disown_queueOf (s : State) (d : Dom) (q i : Nat) : (s.disown d q).queueOf d i = s.queueOf d i := by
  obtain ⟨u, post, e | ⟨k, f, hf, e⟩⟩ := disown_cases s d q
  · rw [e, post.hardware.queueOf]
  · rw [e, ← post.hardware.queueOf]
    cases d with
    | tenant l n =>
      unfold State.queueOf
      dsimp only
      rw [onTenant_tenantOf]
      split
      · rw [hf]
      · rfl
    | lsq l => rw [queueOf_lsq, queueOf_lsq, onTenant_rest]; rfl

theorem queueCtl_mem (s : State) (d : Dom) (q v : Nat) : (s.queueCtl d q v).mem = s.mem := by
  unfold State.queueCtl
  dsimp only
  split
  · rw [disown_mem, setQueue_mem]
  · rw [setQueue_mem]

theorem queueCtl_queueOf {s : State} {d : Dom} (h : s.hasDom d) (q v : Nat) :
    (s.queueCtl d q v).queueOf d q = (s.queueOf d q).control v := by
  unfold State.queueCtl
  dsimp only
  split
  · rw [disown_queueOf, setQueue_queueOf h]
  · rw [setQueue_queueOf h]

/-! ### Appends (03 R54 to R58) -/

theorem hardwareStep_readForFit (s : State) (d : Dom) (addr : Nat) : HardwareStep s (s.readForFit d addr).1 := by
  have load := hardwareStep_hwLoad s (domCtx d) addr 64 0 .load
  unfold State.readForFit
  generalize s.hwLoad (domCtx d) addr 64 0 = r at load ⊢
  obtain ⟨u, e | bs⟩ := r <;> exact load

/-- To find the code of an append is to read the record at most. -/
theorem hardwareStep_appendCode (s : State) (d : Dom) (q addr : Nat) : HardwareStep s (s.appendCode d q addr).1 := by
  unfold State.appendCode
  dsimp only
  split
  · exact .refl s
  · split
    · exact .refl s
    · split
      · exact .refl s
      · have read := hardwareStep_readForFit s d addr
        generalize s.readForFit d addr = r at read ⊢
        obtain ⟨u, e | r⟩ := r <;> exact read

/-- An address that takes the next slot of a ring moves TAIL by one; a fault of the ring write marks the slot as waiting. -/
theorem ringPut_queueOf {s : State} {d : Dom} (h : s.hasDom d) (q addr : Nat) (vc : Clock) :
    (s.ringPut d q addr vc).hasDom d ∧ ∃ slots, (s.ringPut d q addr vc).queueOf d q = { s.queueOf d q with
      tail := ((s.queueOf d q).tail + 1) % 2 ^ 32
      vcs := assocSet (s.queueOf d q).vcs (s.queueOf d q).tail vc, waiting := slots } := by
  have store := hardwareStep_hwStore s (domCtx d) ((s.queueOf d q).slotAddr (s.queueOf d q).tail) (leBytes 8 addr) 1
  unfold State.ringPut
  dsimp only
  generalize s.hwStore (domCtx d) _ _ _ = r at store ⊢
  obtain ⟨u, ⟨f, va⟩ | _⟩ := r
  · have hu := store.hasDom h
    have fault := fun t : State => (postStep_hwFault t d f va (.ringWrite q (s.queueOf d q).tail addr)).hardware
    refine ⟨(fault _).hasDom (onQueue_hasDom (onQueue_hasDom hu)),
      (s.queueOf d q).waiting ++ [(s.queueOf d q).tail], ?_⟩
    dsimp only
    rw [(fault _).queueOf, onQueue_queueOf (onQueue_hasDom hu), onQueue_queueOf hu, store.queueOf]
  · have hu := store.hasDom h
    refine ⟨onQueue_hasDom hu, (s.queueOf d q).waiting, ?_⟩
    dsimp only
    rw [onQueue_queueOf hu, store.queueOf]

/-- What an append leaves of the control block: its code, and one more entry or one more drop (03 R55). -/
theorem appendAs_queueOf {s : State} {d : Dom} (h : s.hasDom d) (q addr : Nat) {code : Nat} (hc : code ≠ 3) (vc : Clock) :
    let x := s.queueOf d q
    let y := (s.appendAs d q addr code vc true).queueOf d q
    y.last = code ∧ (code = 0 → y.tail = (x.tail + 1) % 2 ^ 32) ∧
      (code ≠ 0 → y.drops = min 0xFFFF (x.drops + 1) ∧ y.tail = x.tail) := by
  unfold State.appendAs
  by_cases h0 : code = 0
  · obtain ⟨hd, slots, put⟩ := ringPut_queueOf h q addr vc
    simp [h0, onQueue_queueOf hd, put]
  · simp [h0, hc, onQueue_queueOf (onQueue_hasDom h), onQueue_queueOf h]

/-- The only held entry of a ring with room moves into it (03 R58). -/
theorem drainHeld_single {s : State} {d : Dom} (h : s.hasDom d) {q a : Nat} {vc : Clock}
    (hh : (s.queueOf d q).held = [(a, vc)]) (hf : (s.queueOf d q).full = false) (he : (s.queueOf d q).en = true) (n : Nat) :
    ((s.drainHeld d q (n + 1)).queueOf d q).held = [] ∧
      ((s.drainHeld d q (n + 1)).queueOf d q).tail = ((s.queueOf d q).tail + 1) % 2 ^ 32 := by
  obtain ⟨-, slots, put⟩ := ringPut_queueOf (onQueue_hasDom (f := fun y => { y with held := [] }) h) q a vc
  rw [onQueue_queueOf h] at put
  have stop : ∀ (t : State) n, (t.queueOf d q).held = [] → t.drainHeld d q n = t := by
    intro t n ht
    cases n <;> simp [State.drainHeld, ht]
  unfold State.drainHeld
  simp only [hh, hf, he, Bool.not_true, Bool.or_false, if_false, Bool.false_eq_true]
  rw [stop _ n (by rw [put]), put]
  exact ⟨rfl, rfl⟩

/-! ### Taking a record (03 R59) -/

/-- A record that is checked, fits and has no spill area is taken as a launch. -/
theorem takeEntry_takes {s u w : State} {d : Dom} {q : Nat} {bs rs : List Byte} (h : s.hasDom d)
    (hdead : (s.queueOf d q).head ∉ (s.queueOf d q).dead)
    (hb : s.hwLoad (domCtx d) ((s.queueOf d q).slotAddr (s.queueOf d q).head) 8 0 = (u, .ok bs))
    (hr : u.hwLoad (domCtx d) (ofLeBytes bs) 64 0 = (w, .ok rs)) (hok : recordOk (dwords rs) = true)
    (hfit : w.neverFits d (recOf (dwords rs)) = false) (hspill : (recOf (dwords rs)).spill = 0) :
    (s.takeEntry d q).mem = w.mem ∧ ((s.takeEntry d q).queueOf d q).head = ((s.queueOf d q).head + 1) % 2 ^ 32 ∧
      (s.takeEntry d q).launch? w.nextId = some
        { dom := d, queue := q, addr := ofLeBytes bs, desc := recOf (dwords rs), takenAt := w.now,
          vc := assocGet [] (w.queueOf d q).vcs (w.queueOf d q).head } := by
  have load1 := hardwareStep_hwLoad s (domCtx d) ((s.queueOf d q).slotAddr (s.queueOf d q).head) 8 0 .load
  have load2 := hardwareStep_hwLoad u (domCtx d) (ofLeBytes bs) 64 0 .load
  rw [hb] at load1
  rw [hr] at load2
  have load := load1.trans load2
  have live : isIn (s.queueOf d q).dead (s.queueOf d q).head = false := by
    rw [isIn, List.any_eq_false]
    intro x hx e
    exact hdead (eq_of_beq e ▸ hx)
  unfold State.takeEntry
  dsimp only
  rw [live, hb]
  unfold State.takeRecord State.takeFrame State.takeHead
  simp only [hr, hok, hfit, hspill, Bool.false_eq_true, if_false, if_true, Bool.not_true, Bool.or_false]
  refine ⟨onQueue_mem _ _ _ _, ?_, by rw [onQueue_launch, setLaunch_launch, if_pos rfl]; rfl⟩
  have hd : (State.setLaunch { w with nextId := w.nextId + 1 } w.nextId
      { dom := d, queue := q, addr := ofLeBytes bs, desc := recOf (dwords rs), takenAt := w.now,
        vc := assocGet [] (w.queueOf d q).vcs (w.queueOf d q).head }).hasDom d := load.hasDom h
  rw [← load.queueOf d q]
  exact congrArg Queue.head (onQueue_queueOf hd)

end Sys2Proof.Machine
end

section
/-! The release of a team that fits from the only launch that waits: the rotation, the team and its gangs (03 R60, 04 R72 to
R75, 06 R108). -/
namespace Sys2Proof.Machine

/-! ### Cores and quads that a team takes over -/

/-- Only what cores and quads hold differs. -/
def CoresOnly (s t : State) : Prop := t = { s with cores := t.cores, quads := t.quads }

theorem CoresOnly.trans {s t u : State} (h : CoresOnly s t) (k : CoresOnly t u) : CoresOnly s u := by
  unfold CoresOnly at *
  rw [k, h]

theorem CoresOnly.foldl {α : Type} {f : State → α → State} (hf : ∀ s x, CoresOnly s (f s x)) (xs : List α) (s : State) :
    CoresOnly s (xs.foldl f s) := by
  induction xs generalizing s with
  | nil => rfl
  | cons x xs ih => exact (hf s x).trans (ih (f s x))

theorem takeCore_coresOnly (s : State) (core part : Nat) : CoresOnly s (s.takeCore core part) := rfl

theorem takeArray_coresOnly (s : State) (core part : Nat) : CoresOnly s (s.takeArray core part) := rfl

theorem startWindow_coresOnly (s : State) (core tag : Nat) (a w : Nat × Nat) :
    CoresOnly s (s.startWindow core tag a w) := rfl

theorem powerOn_coresOnly (s : State) (quad : Nat) : CoresOnly s (s.powerOn quad) := rfl

/-! ### The gangs of a team -/

/-- Gang number i of a team at its start (06 R108). -/
structure Started (g : Gang) (gid team i : Nat) (t : Team) (y : Launch) : Prop where
  team : g.team = team
  number : g.g = i
  nregs : g.nregs = y.desc.regs
  stack : g.stack = []
  lanes : g.lanes = startLanes gid y.desc.width y.desc.entry t.level y.vc

theorem Started.lane {g : Gang} {gid team i : Nat} {t : Team} {y : Launch} (h : Started g gid team i t y) {l : Nat}
    (hl : l < y.desc.width) : g.lane l =
      { fresh := some gid, pc := ⟨y.desc.entry, 0⟩, level := t.level, vc := assocSet y.vc (laneParty gid l) 1 } := by
  unfold Gang.lane
  rw [h.lanes, startLanes, List.getD_eq_getElem?_getD, List.getElem?_map, List.getElem?_range hl]
  rfl

/-- The gangs of a team start one after the other, under the next identifiers, and nothing else changes. -/
theorem startGangs (s : State) (team : Nat) (core : Nat → Nat) (t : Team) (y : Launch) (n : Nat) :
    let u := (List.range n).foldl (fun s i => s.startGang team (core i) i t y) s
    u = { s with nextId := s.nextId + n, gangs := u.gangs } ∧
      ∀ i, i < n → ∃ g, u.gang? (s.nextId + i) = some g ∧ Started g (s.nextId + i) team i t y := by
  induction n with
  | zero => exact ⟨rfl, fun i hi => absurd hi (Nat.not_lt_zero i)⟩
  | succ n ih =>
    simp only [List.range_succ, List.foldl_append, List.foldl_cons, List.foldl_nil]
    obtain ⟨rest, gangs⟩ := ih
    generalize (List.range n).foldl (fun s i => s.startGang team (core i) i t y) s = u at rest gangs ⊢
    have next : u.nextId = s.nextId + n := by rw [rest]
    refine ⟨?_, fun i hi => ?_⟩
    · unfold State.startGang State.setGang
      dsimp only
      rw [next, rest]
      rfl
    · unfold State.startGang
      dsimp only
      rw [setGang_gang, next]
      by_cases e : i = n
      · rw [if_pos (by rw [e]), e]
        exact ⟨_, rfl, rfl, rfl, rfl, rfl, rfl⟩
      · rw [if_neg (by omega)]
        exact gangs i (by omega)

/-! ### The team -/

/-- The lease and the tenant of a launch's teams. -/
def Launch.owner (y : Launch) : Nat × Option Nat :=
  match y.dom with
  | .tenant l n => (l, some n)
  | .lsq l => (l, none)

/-- The next team of a launch at a place (04 R72 to R75). -/
def State.teamAt (s : State) (launch : Nat) (y : Launch) (p : Spot) : Team :=
  { launch := launch, t := y.nextTeam, lease := y.owner.1, tenant := y.owner.2, xten := s.xtenFor y.dom p.core,
    core := p.core, paired := y.desc.paired, abase := p.win.1, asize := 4096 * y.desc.abuf, wbase := p.win.2,
    wsize := 4096 * y.desc.wbuf, abase2 := p.win2.1, wbase2 := p.win2.2, level := if y.owner.2.isSome then 0 else 2 }

/-- The cores, arrays and windows of a team taken over for it. -/
def State.coresTaken (s : State) (t : Team) (y : Launch) (p : Spot) : State :=
  let s : State := t.cores.foldl (fun s c => (s.takeCore c t.part).takeArray c t.part) s
  let s : State := s.startWindow p.core 0 (t.abase, t.asize) (t.wbase, t.wsize)
  if y.desc.paired then s.startWindow (p.core + 1) (2 ^ 21) (t.abase2, t.asize) (t.wbase2, t.wsize) else s

theorem coresTaken_coresOnly (s : State) (t : Team) (y : Launch) (p : Spot) : CoresOnly s (s.coresTaken t y p) := by
  have taken := CoresOnly.foldl (fun s c => (takeCore_coresOnly s c t.part).trans (takeArray_coresOnly _ c t.part)) t.cores s
  have started := taken.trans (startWindow_coresOnly _ p.core 0 (t.abase, t.asize) (t.wbase, t.wsize))
  unfold State.coresTaken
  dsimp only
  split
  · exact started.trans (startWindow_coresOnly _ _ _ _ _)
  · exact started

/-- The release of a team as its parts: cores and windows, the team and its launch, the gangs, and the power of the quad. -/
theorem placeTeam_eq (s : State) (launch : Nat) (y : Launch) (p : Spot) :
    s.placeTeam launch y p =
      ((List.range y.desc.gangs).foldl (fun u i =>
          u.startGang s.nextId (if i < y.desc.gangsPerCore then p.core else p.core + 1) i (s.teamAt launch y p) y)
        (((State.coresTaken { s with nextId := s.nextId + 1 } (s.teamAt launch y p) y p).setTeam s.nextId
          (s.teamAt launch y p)).setLaunch launch { y with nextTeam := y.nextTeam + 1 })).powerOn (quadOfCore p.core) := by
  rcases y with ⟨dom⟩
  cases dom <;> rfl

/-- A team that is placed stands under the next identifier, and its gangs under those that follow; the launch has released
one team more, and cores, quads and the supply of identifiers apart nothing else changes. -/
theorem placeTeam_places (s : State) (launch : Nat) (y : Launch) (p : Spot) :
    let u := s.placeTeam launch y p
    u = { s with
      cores := u.cores, quads := u.quads, nextId := u.nextId, teams := u.teams, launches := u.launches, gangs := u.gangs } ∧
      u.team? s.nextId = some (s.teamAt launch y p) ∧ u.launch? launch = some { y with nextTeam := y.nextTeam + 1 } ∧
      ∀ i, i < y.desc.gangs → ∃ g, u.gang? (s.nextId + 1 + i) = some g ∧
        Started g (s.nextId + 1 + i) s.nextId i (s.teamAt launch y p) y := by
  rw [placeTeam_eq]
  have taken := coresTaken_coresOnly { s with nextId := s.nextId + 1 } (s.teamAt launch y p) y p
  generalize State.coresTaken { s with nextId := s.nextId + 1 } (s.teamAt launch y p) y p = u at taken ⊢
  have next : u.nextId = s.nextId + 1 := by rw [taken]
  obtain ⟨rest, gangs⟩ := startGangs ((u.setTeam s.nextId (s.teamAt launch y p)).setLaunch launch
    { y with nextTeam := y.nextTeam + 1 }) s.nextId (fun i => if i < y.desc.gangsPerCore then p.core else p.core + 1)
    (s.teamAt launch y p) y y.desc.gangs
  simp only [setLaunch_nextId, setTeam_nextId, next] at gangs
  generalize (List.range y.desc.gangs).foldl _ _ = v at rest gangs ⊢
  refine ⟨?_, ?_, ?_, gangs⟩
  · rw [powerOn_coresOnly, rest, taken]
    rfl
  · show v.team? s.nextId = _
    rw [rest]
    exact assocGet?_assocSet_self _ _ _
  · show v.launch? launch = _
    rw [rest]
    exact assocGet?_assocSet_self _ _ _

/-! ### The rotation (03 R60) -/

theorem sortNats_single (q : Nat) : sortNats [q] = [q] := by simp [sortNats]

/-- A rotation of one queue is that queue, wherever it begins. -/
theorem rotateFrom_single (q p : Nat) (after : Bool) : rotateFrom [q] p after = [q] := by
  unfold rotateFrom
  rcases Nat.lt_trichotomy p q with h | h | h
  · simp [h, Nat.not_lt_of_gt h, Nat.ne_of_gt h]
  · cases after <;> simp [h]
  · simp [h, Nat.not_lt_of_gt h, Nat.ne_of_lt h]

theorem offer_single {s : State} {id : Nat} {y : Launch} {spot : Spot} (hc : y.desc.coop = false)
    (hs : s.spotFor y = some spot) : s.offer id y = some (s.placeTeam id y spot, 1) := by
  simp [State.offer, hc, hs]

theorem releaseAt_none {s : State} {d : Dom} {p : Nat} (h : s.waitingAt d p = []) : s.releaseAt d p = none := by
  simp [State.releaseAt, h, sortNats]

/-- The only launch that waits at a priority releases its next team, when a place fits it. -/
theorem releaseAt_single {s : State} {d : Dom} {p id : Nat} {y : Launch} {spot : Spot} (h : s.waitingAt d p = [(id, y)])
    (hc : y.desc.coop = false) (hs : s.spotFor y = some spot) :
    ∃ x, s.releaseAt d p = some ((s.placeTeam id y spot).setDisp d x) := by
  unfold State.releaseAt
  simp only [h, List.map_cons, List.map_nil, sortNats_single, rotateFrom_single, List.findSome?_cons, List.find?_cons,
    beq_self_eq_true, Option.bind_some, offer_single hc hs, Option.map_some]
  repeat' split
  all_goals exact ⟨_, rfl⟩

/-- A queue's priority is the only one at which its launch waits. -/
theorem waitingAt_single {s : State} {d : Dom} {id : Nat} {y : Launch} (h : s.launchesOf d = [(id, y)])
    (hp : y.pending = true) (p : Nat) :
    s.waitingAt d p = if (s.queueOf d y.queue).prio = p then [(id, y)] else [] := by
  unfold State.waitingAt
  rw [h]
  split <;> simp [*]

/-- The only launch of a domain, not cooperative, releases its next team when a place fits it (03 R60). -/
theorem release_single {s : State} {d : Dom} {id : Nat} {y : Launch} {spot : Spot} (hu : s.unplaced d = [])
    (h : s.launchesOf d = [(id, y)]) (hc : y.desc.coop = false) (hb : y.blocking = false) (hp : y.pending = true)
    (hq : (s.queueOf d y.queue).prio < 4) (hs : s.spotFor y = some spot) :
    ∃ x, s.release d = some ((s.placeTeam id y spot).setDisp d x) := by
  have noBlock : s.beginBlock d = s := by
    simp [State.beginBlock, State.coopDue, State.coopWaiter, h, hc, minBy]
  have rotation : s.release d = [0, 1, 2, 3].findSome? (s.releaseAt d) := by
    unfold State.release
    cases d <;> simp [hu, noBlock, h, hb]
  obtain ⟨x, released⟩ := releaseAt_single (by rw [waitingAt_single h hp, if_pos rfl]) hc hs
  refine ⟨x, ?_⟩
  have others : ∀ p, (s.queueOf d y.queue).prio ≠ p → s.releaseAt d p = none := fun p hne =>
    releaseAt_none (by rw [waitingAt_single h hp, if_neg hne])
  rw [rotation]
  generalize (s.queueOf d y.queue).prio = p at hq released others
  have cases4 : p = 0 ∨ p = 1 ∨ p = 2 ∨ p = 3 := by omega
  rcases cases4 with rfl | rfl | rfl | rfl <;> simp [released, others]

/-- The rotation of a domain is kept with its tenant or its lease. -/
theorem setDisp_rest (s : State) (d : Dom) (x : Disp) :
    s.setDisp d x = { s with tenants := (s.setDisp d x).tenants, leases := (s.setDisp d x).leases } := by
  cases d with
  | tenant l n =>
    unfold State.setDisp
    dsimp only
    rw [onTenant_rest]
  | lsq l =>
    unfold State.setDisp
    dsimp only
    split <;> rfl

end Sys2Proof.Machine
end

section
/-! Cooperative blocks, items, and the ends of teams and launches (01 R20, 03 R62, 06 R129, R131). -/
namespace Sys2Proof.Machine

/-! ### Lists of pairs -/

theorem isIn_of_mem {xs : List Nat} {x : Nat} (h : x ∈ xs) : isIn xs x = true :=
  List.any_eq_true.mpr ⟨x, h, beq_self_eq_true x⟩

/-- A change of every value of a list of pairs. -/
theorem assocGet?_map {α β : Type} (f : α → β) (xs : List (Nat × α)) (k : Nat) :
    assocGet? (xs.map (fun p => (p.1, f p.2))) k = (assocGet? xs k).map f := by
  induction xs with
  | nil => rfl
  | cons p xs ih =>
    obtain ⟨j, v⟩ := p
    simp only [List.map_cons, assocGet?, ih]
    split <;> rfl

theorem assocGet_map {α : Type} {f : α → α} {d : α} (hf : f d = d) (xs : List (Nat × α)) (k : Nat) :
    assocGet d (xs.map (fun p => (p.1, f p.2))) k = f (assocGet d xs k) := by
  unfold assocGet
  rw [assocGet?_map]
  cases assocGet? xs k with
  | none => exact hf.symm
  | some v => rfl

/-! ### Cooperative blocks (03 R62) -/

/-- The block begins for the record that has waited long enough. -/
theorem beginBlock_due {s : State} {d : Dom} {id : Nat} {y : Launch} (h : s.coopWaiter d = some (id, y))
    (hn : y.takenAt + 85000 ≤ s.now) : (s.beginBlock d).mem = s.mem ∧
      (s.beginBlock d).launch? id = some { y with blocking := true } := by
  have due : s.coopDue d = some (id, y) := by simp [State.coopDue, h, hn]
  unfold State.beginBlock
  rw [due]
  exact ⟨onQueue_mem _ _ _ _, by rw [onQueue_launch, setLaunch_launch, if_pos rfl]⟩

/-! ### Items (06 R129) -/

theorem chunkSize_le {s : State} {core id : Nat} {y : Launch} (h : y.returned = []) :
    s.chunkSize core id y ≤ y.desc.icount - y.nextItem := by
  unfold State.chunkSize
  dsimp only
  split
  · rw [h, List.length_nil]
    omega
  · exact Nat.zero_le _

/-- A deal from values that were never dealt takes them in order. -/
theorem deal_fresh {y : Launch} (h : y.returned = []) {n : Nat} (hn : n ≤ y.desc.icount - y.nextItem) :
    y.deal n = ((List.range n).map (fun i => BitVec.ofNat 32 (y.desc.ibase + y.nextItem + i)),
      { y with nextItem := y.nextItem + n }) := by
  rcases y with ⟨dom⟩
  dsimp only at h hn
  simp [Launch.deal, h, Nat.min_eq_left hn]

/-! ### The exit of a team (06 R131) -/

/-- What the leaving of cores changes: what they and their quads hold, and the item values that launches get back. -/
structure LeaveStep (s t : State) : Prop where
  rest : t = { s with cores := t.cores, quads := t.quads, launches := t.launches }
  launches : ∀ i y, s.launch? i = some y → ∃ vs, t.launch? i = some { y with returned := vs }

theorem LeaveStep.refl (s : State) : LeaveStep s s := ⟨rfl, fun _ y h => ⟨y.returned, h⟩⟩

theorem LeaveStep.trans {s t u : State} (h : LeaveStep s t) (k : LeaveStep t u) : LeaveStep s u where
  rest := by rw [k.rest, h.rest]
  launches i y hy := by
    obtain ⟨vs, ht⟩ := h.launches i y hy
    obtain ⟨ws, hu⟩ := k.launches i _ ht
    exact ⟨ws, hu⟩

theorem LeaveStep.foldl {α : Type} {f : State → α → State} (hf : ∀ s x, LeaveStep s (f s x)) (xs : List α) (s : State) :
    LeaveStep s (xs.foldl f s) := by
  induction xs generalizing s with
  | nil => exact .refl s
  | cons x xs ih => exact (hf s x).trans (ih (f s x))

theorem leaveStep_leaveWindows (s : State) (t : Team) (core : Nat) : LeaveStep s (s.leaveWindows t core) :=
  ⟨rfl, fun _ y h => ⟨y.returned, h⟩⟩

theorem leaveStep_returnItems (s : State) (core launch : Nat) : LeaveStep s (s.returnItems core launch) := by
  have drop : ∀ f, LeaveStep s (s.onCore core f) := fun f => ⟨rfl, fun _ y h => ⟨y.returned, h⟩⟩
  unfold State.returnItems
  split
  · exact .refl s
  · dsimp only
    split
    · rename_i y hy
      split
      · exact drop _
      · refine (drop _).trans ⟨rfl, fun i z hz => ?_⟩
        rw [setLaunch_launch]
        split
        · rename_i e
          rw [e, hy] at hz
          cases hz
          exact ⟨_, rfl⟩
        · exact ⟨z.returned, hz⟩
    · exact drop _

/-- The machine without a team, its gangs, and what they had in flight in buffers. -/
def State.withoutTeam (s : State) (team : Nat) : State :=
  let s : State := s.publishPins team []
  let gs := (s.gangsOf team).map (·.1)
  { s with
    gangs := s.gangs.filter (fun g => !isIn gs g.1)
    teams := assocErase s.teams team
    accesses := s.accesses.filter (fun p => !(p.2.phase == .scratch && isIn gs p.2.gang))
    cores := s.cores.map (fun c => (c.1, { c.2 with sfq := c.2.sfq.filter (fun r => !isIn gs r.gang) })) }

/-- The cores of a team that is gone, left: windows and item values, and the moment at which its quad became idle. -/
def State.leftBy (s : State) (t : Team) : State :=
  let s : State := if t.placed then t.cores.foldl (fun s c => (s.leaveWindows t c).returnItems c t.launch) s else s
  if !t.placed || s.teams.any (fun x => quadOfCore x.2.core == quadOfCore t.core) then s
  else s.onQuad (quadOfCore t.core) (fun x => { x with idleSince := s.now })

theorem exitTeam_eq (s : State) (team : Nat) (t : Team) : s.exitTeam team t =
    match ((s.withoutTeam team).leftBy t).launch? t.launch with
    | some y => ((s.withoutTeam team).leftBy t).setLaunch t.launch { y with exited := y.exited + 1, tails := y.tails ++ [team] }
    | none => (s.withoutTeam team).leftBy t := rfl

theorem withoutTeam_gone (s : State) (team : Nat) : (s.withoutTeam team).team? team = none ∧
    (∀ g ∈ (s.withoutTeam team).gangs, g.2.team ≠ team) ∧ (s.withoutTeam team).launches = s.launches := by
  refine ⟨assocGet?_assocErase_self _ _, fun g hg e => ?_, (coherenceStep_publishPins s team []).launches⟩
  obtain ⟨hmem, hout⟩ := List.mem_filter.mp hg
  have own : g.1 ∈ (State.gangsOf (s.publishPins team []) team).map (·.1) :=
    List.mem_map.mpr ⟨g, List.mem_filter.mpr ⟨hmem, by simp [e]⟩, rfl⟩
  rw [isIn_of_mem own] at hout
  cases hout

theorem leaveStep_leftBy (s : State) (t : Team) : LeaveStep s (s.leftBy t) := by
  have cores : LeaveStep s (if t.placed then
      t.cores.foldl (fun s c => (s.leaveWindows t c).returnItems c t.launch) s else s) := by
    split
    · exact .foldl (fun s c => (leaveStep_leaveWindows s t c).trans (leaveStep_returnItems _ c t.launch)) t.cores s
    · exact .refl s
  unfold State.leftBy
  dsimp only
  generalize (if t.placed then t.cores.foldl (fun s c => (s.leaveWindows t c).returnItems c t.launch) s else s) = v
    at cores ⊢
  split
  · exact cores
  · exact cores.trans ⟨rfl, fun _ y h => ⟨y.returned, h⟩⟩

/-- A team that exits is gone with its gangs, and its launch has one more team that has exited. -/
theorem exitTeam_exits (s : State) (id : Nat) (tm : Team) :
    (s.exitTeam id tm).team? id = none ∧ (∀ g ∈ (s.exitTeam id tm).gangs, g.2.team ≠ id) ∧
      ∀ y, s.launch? tm.launch = some y →
        ∃ z, (s.exitTeam id tm).launch? tm.launch = some z ∧ z.exited = y.exited + 1 := by
  obtain ⟨team, gangs, launches⟩ := withoutTeam_gone s id
  have left := leaveStep_leftBy (s.withoutTeam id) tm
  rw [exitTeam_eq]
  generalize (s.withoutTeam id).leftBy tm = v at left ⊢
  have teams : v.teams = (s.withoutTeam id).teams := by rw [left.rest]
  have kept : v.gangs = (s.withoutTeam id).gangs := by rw [left.rest]
  have gone : v.team? id = none := by
    unfold State.team?
    rw [teams]
    exact team
  have launch : ∀ y, s.launch? tm.launch = some y → ∃ vs, v.launch? tm.launch = some { y with returned := vs } := by
    intro y hy
    refine left.launches _ y ?_
    unfold State.launch?
    rw [launches]
    exact hy
  split
  · rename_i z hz
    refine ⟨gone, fun g hg => gangs g (kept ▸ hg), fun y hy => ⟨_, by rw [setLaunch_launch, if_pos rfl], ?_⟩⟩
    obtain ⟨vs, hv⟩ := launch y hy
    rw [hv] at hz
    cases hz
    rfl
  · rename_i hz
    refine ⟨gone, fun g hg => gangs g (kept ▸ hg), fun y hy => ?_⟩
    obtain ⟨vs, hv⟩ := launch y hy
    rw [hv] at hz
    cases hz

/-! ### The end of a launch (01 R20) -/

/-- A launch is gone, and no core holds an item of it. -/
def State.launchGone (t : State) (id : Nat) : Prop := t.launch? id = none ∧ ∀ c, ∀ p ∈ (t.core c).items, p.1 ≠ id

theorem endLaunch_gone (s : State) (id : Nat) : (s.endLaunch id).launchGone id := by
  refine ⟨assocGet?_assocErase_self _ _, fun c p hp => ?_⟩
  have core : (s.endLaunch id).core c = { s.core c with items := (s.core c).items.filter (fun p => p.1 != id) } :=
    assocGet_map (f := fun c : Core => { c with items := c.items.filter (fun p => p.1 != id) }) (d := {}) rfl s.cores c
  rw [core] at hp
  simpa using (List.mem_filter.mp hp).2

/-- What a launch releases to its successor (01 R20). -/
def Launch.joinPub (y : Launch) : Sync := ⟨y.exitVc, 2, 0, 0, y.owner.1, y.part⟩

/-- A wait count that had not come to its last join leaves the launch gone and starts nothing. -/
theorem ended_unless_last (u v : State) (id : Nat) {old : Nat} (ho : old ≠ 1) (vcs : List (Nat × Clock)) :
    let t : State := if old = 1 then v else if old = 0 then u.endLaunch id else { u.endLaunch id with joinVcs := vcs }
    t.mem = u.mem ∧ t.tenants = u.tenants ∧ t.launchGone id := by
  rw [if_neg ho]
  dsimp only
  split
  · exact ⟨rfl, rfl, endLaunch_gone u id⟩
  · exact ⟨rfl, rfl, endLaunch_gone u id⟩

/-- A join that is not the last ends the launch at the decrement of its successor's wait count. -/
theorem joinSuccessor_ends {s u : State} {id : Nat} {y : Launch} {old w : Nat}
    (h : s.decrementWait (domCtx y.dom) y.desc.succ [y.joinPub] = (u, .ok (old, w))) (ho : old ≠ 1) :
    (s.joinSuccessor id y).mem = u.mem ∧ (s.joinSuccessor id y).tenants = u.tenants ∧
      (s.joinSuccessor id y).launchGone id := by
  have join : ∃ v vcs, s.joinSuccessor id y =
      if old = 1 then v else if old = 0 then u.endLaunch id else { u.endLaunch id with joinVcs := vcs } := by
    rcases y with ⟨dom⟩
    cases dom <;>
    · unfold State.joinSuccessor
      dsimp only [Launch.joinPub, Launch.owner, Launch.part] at h ⊢
      rw [h]
      exact ⟨_, _, rfl⟩
  obtain ⟨v, vcs, e⟩ := join
  rw [e]
  exact ended_unless_last u v id ho vcs

end Sys2Proof.Machine
end

section
/-! The steps of queues and dispatchers, each from the rule for its operation, and O49. -/
namespace Sys2Proof.Machine

/-! ### Writes by a host -/

section
variable {s : State} {dom : Dom} {q : Nat}

/-- No write of a host reaches a queue through a function that takes no MMIO (03 R51, R52). -/
theorem queueWrites_unreached (hr : s.hostReaches dom = false) (addr n v : Nat) :
    ∀ i ∈ [Instr.queueAppend dom q addr n, .queueEnable dom q v, .queueDisable dom q v, .queueClr dom q],
      exec i s = .next s := by
  intro i hi
  simp only [List.mem_cons, List.not_mem_nil, or_false] at hi
  rcases hi with rfl | rfl | rfl | rfl
  · exact congrArg Host.Outcome.next (hostQueue_unreached hr q _)
  · exact congrArg Host.Outcome.next (hostQueue_unreached hr q _)
  · exact congrArg Host.Outcome.next (hostQueue_unreached hr q _)
  · exact congrArg Host.Outcome.next (hostQueue_unreached hr q _)

variable (hr : s.hostReaches dom = true) (hq : q < s.queueCount dom)
include hr hq

/-- An append of eight bytes (03 R55). -/
theorem exec_queueAppend {addr code : Nat} {w : State} {f : Option (TFault × Nat)}
    (h : s.appendCode dom q (addr % 2 ^ 64) = (w, code, f)) :
    exec (.queueAppend dom q addr 8) s = .next (w.appendAs dom q (addr % 2 ^ 64) code [] true) := by
  refine congrArg Host.Outcome.next ((hostQueue_reached hr hq _).trans ?_)
  simp only [State.append, h, ne_eq, not_true_eq_false, if_false]

/-- A write of APPEND that is not of eight bytes (03 R55). -/
theorem exec_queueAppend_badWidth (addr : Nat) {n : Nat} (hn : n ≠ 8) :
    exec (.queueAppend dom q addr n) s = .next (s.onQueue dom q (fun x => { x with badw := true })) :=
  congrArg Host.Outcome.next ((hostQueue_reached hr hq _).trans (if_pos hn))

theorem exec_queueEnable (v : Nat) :
    exec (.queueEnable dom q v) s = .next (s.queueCtl dom q (v % 2 ^ 64 ||| 2 ^ 31)) :=
  congrArg Host.Outcome.next (hostQueue_reached hr hq _)

theorem exec_queueDisable (v : Nat) :
    exec (.queueDisable dom q v) s = .next (s.queueCtl dom q (v % 2 ^ 64 - (v % 2 ^ 64 &&& 2 ^ 31))) :=
  congrArg Host.Outcome.next (hostQueue_reached hr hq _)

theorem exec_queueClr : exec (.queueClr dom q) s = .next (s.onQueue dom q (fun x => { x with drops := 0, badw := false })) :=
  congrArg Host.Outcome.next (hostQueue_reached hr hq _)

end

/-! ### Dispatchers -/

/-- Where the only launch that waits has a place for its next team, the team and its gangs start there (03 R60, 04 R72 to
R75, 06 R108). -/
theorem teamRelease_single {s : State} {dom : Dom} {id : Nat} {y : Launch} {spot : Spot} (hdis : s.dispatches dom = true)
    (hu : s.unplaced dom = []) (h : s.launchesOf dom = [(id, y)]) (hc : y.desc.coop = false) (hb : y.blocking = false)
    (hp : y.pending = true) (hprio : (s.queueOf dom y.queue).prio < 4) (hs : s.spotFor y = some spot) :
    ∃ t, exec (.teamRelease dom) s = .next t ∧ t.mem = s.mem ∧ t.launch? id = some { y with nextTeam := y.nextTeam + 1 } ∧
      t.team? s.nextId = some (s.teamAt id y spot) ∧
      ∀ i, i < y.desc.gangs → ∃ g, t.gang? (s.nextId + 1 + i) = some g ∧
        Started g (s.nextId + 1 + i) s.nextId i (s.teamAt id y spot) y := by
  obtain ⟨x, released⟩ := release_single hu h hc hb hp hprio hs
  obtain ⟨rest, team, launch, gangs⟩ := placeTeam_places s id y spot
  refine ⟨(s.placeTeam id y spot).setDisp dom x, ?_, ?_, ?_, ?_, ?_⟩
  · show Host.Outcome.next _ = _
    rw [hdis, if_pos rfl, released]
    rfl
  · rw [setDisp_rest, rest]
  · rw [setDisp_rest]
    exact launch
  · rw [setDisp_rest]
    exact team
  · rw [setDisp_rest]
    exact gangs

/-- A dealt chunk stands at the end of the core's queue (06 R129). -/
theorem itemChunkDeal_fresh {s : State} {core id : Nat} {y : Launch} (h : s.launch? id = some y) (hr : y.returned = [])
    (hn : s.chunkSize core id y ≠ 0) : exec (.itemChunkDeal core id) s = .next
      ((s.setLaunch id { y with nextItem := y.nextItem + s.chunkSize core id y }).onCore core (fun c => { c with
        items := c.items ++ (List.range (s.chunkSize core id y)).map (fun i =>
          (id, BitVec.ofNat 32 (y.desc.ibase + y.nextItem + i))) })) := by
  show Host.Outcome.next _ = _
  simp only [h, hn, if_false, deal_fresh hr (chunkSize_le hr), List.map_map]
  rfl

/-- The launch of a domain is one of those that the rotation sees. -/
theorem dom_of_launchesOf {s : State} {dom : Dom} {id : Nat} {y : Launch} (h : s.launchesOf dom = [(id, y)]) :
    y.dom = dom := by
  have hy : (id, y) ∈ s.launchesOf dom := by rw [h]; exact List.mem_singleton_self _
  exact eq_of_beq (List.mem_filter.mp hy).2

/-- Settles O49: each step by the rule for its operation, with what the accesses of the hardware leave of a queue. -/
theorem dispatchSteps : Obligations.DispatchSteps := by
  unfold Obligations.DispatchSteps
  refine ⟨fun s dom q hq hl => ?_, fun s => ⟨?_, ?_, ?_, ?_⟩⟩
  · have hd := hasDom_of_count hq hl
    refine ⟨fun addr n v hr => queueWrites_unreached hr addr n v, ?append, ?badWidth, ?enable, ?disable, ?clear, ?take, ?drain,
      ?release⟩
    case append =>
      intro addr w code f hr hw hc
      have read := hardwareStep_appendCode s dom q (addr % 2 ^ 64)
      rw [hw] at read
      exact ⟨_, exec_queueAppend hr hq hw, appendAs_queueOf (read.hasDom hd) q (addr % 2 ^ 64) hc []⟩
    case badWidth =>
      exact fun addr n hr hn => ⟨_, exec_queueAppend_badWidth hr hq addr hn, onQueue_mem _ _ _ _, onQueue_queueOf hd⟩
    case enable =>
      intro v hr he h4 h20 hhi hmid hlow hb ha
      exact ⟨_, exec_queueEnable hr hq v, queueCtl_mem _ _ _ _,
        (queueCtl_queueOf hd q _).trans (control_enable he h4 h20 hhi hmid hlow hb ha)⟩
    case disable =>
      exact fun v hr he => ⟨_, exec_queueDisable hr hq v, queueCtl_mem _ _ _ _,
        (queueCtl_queueOf hd q _).trans (control_disable v he)⟩
    case clear => exact fun hr => ⟨_, exec_queueClr hr hq, onQueue_mem _ _ _ _, onQueue_queueOf hd⟩
    case take =>
      intro u bs w rs hmay hdead hb hr hok hfit hspill
      obtain ⟨mem, head, launch⟩ := takeEntry_takes hd hdead hb hr hok hfit hspill
      exact ⟨_, congrArg Host.Outcome.next (if_pos hmay), mem, head, _, _, launch, rfl, rfl, rfl, rfl, rfl, rfl, rfl⟩
    case drain => exact fun a vc hh hf he => ⟨_, rfl, drainHeld_single hd hh hf he 63⟩
    case release =>
      intro id y spot hdis hu h hyq _ hc hb hp hprio hs
      have hdom := dom_of_launchesOf h
      obtain ⟨t, step, mem, launch, team, gangs⟩ := teamRelease_single hdis hu h hc hb hp (hyq ▸ hprio) hs
      refine ⟨t, step, mem, ⟨_, launch, rfl⟩, ⟨_, team, rfl, rfl, rfl, rfl, rfl, rfl, rfl, rfl⟩, fun i hi => ?_⟩
      obtain ⟨g, hg, start⟩ := gangs i hi
      refine ⟨g, hg, start.team, start.number, ?_, start.nregs, start.stack, fun l hlt => ?_⟩
      · rw [start.lanes, startLanes, List.length_map, List.length_range]
      · rw [start.lane hlt]
        refine ⟨rfl, rfl, rfl, rfl, rfl, ?_⟩
        subst hdom
        unfold State.teamAt Launch.owner
        cases y.dom <;> rfl
  · intro dom id y hw hdis hn
    exact ⟨_, congrArg Host.Outcome.next (if_pos hdis), beginBlock_due hw hn⟩
  · intro core id y h hr n hn
    refine ⟨_, itemChunkDeal_fresh h hr hn, rfl, ?_, ?_⟩
    · exact (setLaunch_launch _ _ _ _).trans (if_pos rfl)
    · exact congrArg Core.items ((setCore_core _ _ _ _).trans (if_pos rfl))
  · intro id tm htm hmay
    refine ⟨s.exitTeam id tm, ?_, exitTeam_exits s id tm⟩
    show Host.Outcome.next _ = _
    simp only [htm, hmay, if_true]
  · intro id y h hover
    refine ⟨fun hend => ⟨s.endLaunch id, ?_, rfl, endLaunch_gone s id⟩, fun hh hsucc u old w hdec ho =>
      ⟨s.joinSuccessor id y, ?_, ?_⟩⟩
    · show Host.Outcome.next _ = _
      simp only [h, hover, hend, if_true]
    · show Host.Outcome.next _ = _
      simp only [h, hover, hh, hsucc, if_true, Bool.false_eq_true, or_self, if_false]
    · refine joinSuccessor_ends (w := w) ?_ ho
      rw [← hdec]
      unfold Launch.joinPub Launch.owner Launch.part
      cases y.dom <;> rfl

end Sys2Proof.Machine
end

section
/-! The writes of registers from outside the lanes: fault-buffer blocks, `attrs` entries, roots, quanta, and O52. -/
namespace Sys2Proof.Machine

/-! ### Fault buffers (17 R337 to R339) -/

/-- Whether the owner, lease or tenant of a fault buffer exists. -/
def State.hasFb (s : State) (r : FbRef) : Prop :=
  match r with
  | .tenant l n => (assocGet? s.tenants (tkey l n)).isSome
  | .lease l => (s.lease? l).isSome
  | .owner => True

/-- A block written reads as it was written; a tenant's BASE and COUNT are words of its descriptor. -/
theorem setFb_getFb {s : State} {r : FbRef} (h : s.hasFb r) {f : FaultBuffer} (hb : f.base = (s.getFb r).base)
    (hc : f.count = (s.getFb r).count) : (s.setFb r f).getFb r = f := by
  cases r with
  | tenant l n =>
    unfold State.getFb at hb hc ⊢
    unfold State.setFb
    dsimp only at hb hc ⊢
    rw [onTenant_tenantOf, if_pos ⟨rfl, h⟩]
    dsimp only
    rw [← hb, ← hc]
  | lease l =>
    obtain ⟨x, hx⟩ := Option.isSome_iff_exists.mp h
    simp [State.getFb, State.setFb, hx]
  | owner => rfl

theorem assocGet?_filter_ne {α : Type} (xs : List (Nat × α)) (k : Nat) :
    assocGet? (xs.filter (fun p => p.1 != k)) k = none := assocGet?_assocErase_self xs k

/-- A held sub-gang that issues its word again: its wait is over, and its lanes stand where they stood (17 R339). -/
theorem unpark_again {s : State} {gid w : Nat} {g : Gang} {y : Wait} (hg : s.gang? gid = some g)
    (hw : assocGet? g.waits w = some y) : (s.unpark gid w false).mem = s.mem ∧
      (∀ r, (s.unpark gid w false).getFb r = s.getFb r) ∧ Then (s.unpark gid w false) gid (fun h =>
        assocGet? h.waits w = none ∧ ∀ l, l < g.lanes.length → y.mask.getLsbD l = true →
          (h.lane l).parked = false ∧ (h.lane l).pc = (g.lane l).pc) := by
  unfold State.unpark
  simp only [hg, hw, Bool.false_eq_true, if_false]
  refine ⟨rfl, fun r => by cases r <;> rfl, _, by rw [setGang_gang, if_pos rfl], assocGet?_assocErase_self _ _,
    fun l hl hm => ?_⟩
  rw [mapLanes_lane, if_pos ⟨hl, hm⟩]
  exact ⟨rfl, rfl⟩

/-- A block after a response that it drops (17 R339). -/
def FaultBuffer.dropped (f : FaultBuffer) : FaultBuffer := { f with dropresp := min 0xFFFF (f.dropresp + 1) }

/-- A dropped response is counted, and changes nothing else. -/
theorem dropped_does {s : State} {r : FbRef} (h : s.hasFb r) :
    (s.setFb r (s.getFb r).dropped).mem = s.mem ∧ (s.setFb r (s.getFb r).dropped).gangs = s.gangs ∧
      ((s.setFb r (s.getFb r).dropped).getFb r).dropresp = min 0xFFFF ((s.getFb r).dropresp + 1) ∧
      ((s.setFb r (s.getFb r).dropped).getFb r).reqs = (s.getFb r).reqs := by
  have post := postStep_setFb s r (s.getFb r).dropped
  rw [setFb_getFb h (f := (s.getFb r).dropped) rfl rfl]
  exact ⟨post.mem, post.gangs, rfl, rfl⟩

/-- A response with a number that no request has is dropped. -/
theorem respond_unknown {s : State} {r : FbRef} {v : Nat} (h : assocGet? (s.getFb r).reqs (bits v 31 16) = none) :
    s.respond r v = s.setFb r (s.getFb r).dropped := by
  unfold State.respond
  simp only [h]
  rfl

/-- A response under another generation than the tenant's is dropped. -/
theorem respond_stale {s : State} {l n v gen : Nat} {k : ReqKind}
    (h : assocGet? (s.getFb (.tenant l n)).reqs (bits v 31 16) = some (gen, k))
    (hg : bits v 63 32 ≠ (s.tenantOf (tkey l n)).pgen) :
    s.respond (.tenant l n) v = s.setFb (.tenant l n) (s.getFb (.tenant l n)).dropped := by
  unfold State.respond
  simp only [h]
  exact if_pos hg

/-- The generation that a response has to name: the tenant's, or the one that the entry shows (log entry 28). -/
def State.responseGen (s : State) (r : FbRef) (gen : Nat) : Nat :=
  match r with
  | .tenant _ _ => s.fbPgen r
  | _ => gen

/-- A page request that is answered with a retry while its team holds a core. -/
theorem takeAnswer_retry {s : State} {gid w cause synd va : Nat} {g : Gang} {y : Wait} (hg : s.gang? gid = some g)
    (hw : assocGet? g.waits w = some y) (hp : ∀ m, s.team? g.team = some m → m.placed = true) :
    s.takeAnswer gid w 0 cause synd va = s.unpark gid w false := by
  have here : s.answerPage gid w 0 cause synd va = s.unpark gid w false := by
    unfold State.answerPage
    simp only [hg, hw]
  unfold State.takeAnswer
  simp only [hg, here]
  cases hm : s.team? g.team with
  | none => rfl
  | some m => simp [hp m hm]

/-- A retry ends the wait of a page request whose team holds a core (17 R339). -/
theorem respond_retry {s : State} {r : FbRef} {v gen gid w cause synd va : Nat} {g : Gang} {y : Wait}
    (h : assocGet? (s.getFb r).reqs (bits v 31 16) = some (gen, .page gid w cause synd va))
    (hgen : bits v 63 32 = s.responseGen r gen) (ha : bits v 1 0 = 0) (hg : s.gang? gid = some g)
    (hw : assocGet? g.waits w = some y) (hp : ∀ m, s.team? g.team = some m → m.placed = true) :
    s.respond r v = (s.setFb r { s.getFb r with
      reqs := (s.getFb r).reqs.filter (fun p => p.1 != bits v 31 16) }).unpark gid w false := by
  have post := postStep_setFb s r { s.getFb r with reqs := (s.getFb r).reqs.filter (fun p => p.1 != bits v 31 16) }
  unfold State.respond
  simp only [h]
  rw [if_neg (not_not.mpr (hgen.trans (by cases r <;> rfl))), ha]
  refine takeAnswer_retry (g := g) (y := y) ?_ hw ?_
  · unfold State.gang?
    rw [post.gangs]
    exact hg
  · unfold State.team?
    rw [post.teams]
    exact hp

/-- A block after a write of FBHEAD, when it holds no entry (17 R339). -/
theorem writeFbHead_empty {s : State} {r : FbRef} (h : (s.getFb r).held = []) (v : Nat) :
    s.writeFbHead r v = s.setFb r { s.getFb r with head := v % 2 ^ 32 } := by
  unfold State.writeFbHead
  simp only [h, List.length_nil, State.postHeld]

/-! ### Entries of `attrs` (01 R26, R27) -/

theorem coherenceStep_fillsPass (s : State) (p : Access → Bool) : CoherenceStep s (s.fillsPass p) := .of_rest rfl

theorem coherenceStep_dropCopies (s : State) (line : Nat) : CoherenceStep s (s.dropCopies line) := .of_rest rfl

theorem coherenceStep_dropTlb (s : State) (p : TlbEntry → Bool) : CoherenceStep s (s.dropTlb p) := .of_rest rfl

/-- A write that changes an `attrs` entry is work on memory, and then the entry. -/
theorem writeAttr_changes {s : State} {lease n i v : Nat} (hok : s.attrOk lease n v = true)
    (hne : v ≠ assocGet 0 (s.tenantOf (tkey lease n)).attrs i) : ∃ u, CoherenceStep s u ∧
      s.writeAttr lease n i v = u.onPart (tkey lease n) (fun t => { t with attrs := assocSet t.attrs i v }) := by
  unfold State.writeAttr
  rw [hok, if_neg (by decide), if_neg hne]
  refine ⟨_, ?_, rfl⟩
  refine .trans (.trans (.trans (.trans (.trans (.trans (.foldl coherenceStep_combine _ s)
    (.foldl (fun s t => coherenceStep_publishPins s t []) _ _)) (coherenceStep_fillsPass _ _)) (.of_rest rfl))
    (.foldl coherenceStep_dropCopies _ _)) (coherenceStep_lapseMonitors _ _)) (coherenceStep_dropTlb _ _)

/-- A tenant but for the notes of the race checks and its counters. -/
theorem eq_of_unnoted {x y : Tenant} (h : x.unnoted = y.unnoted) :
    { x with incomplete := y.incomplete, drops := y.drops, counters := y.counters } = y :=
  congrArg (fun z : Tenant => { z with incomplete := y.incomplete, drops := y.drops, counters := y.counters }) h

/-- A legal value stands in its entry, and no other entry and no other tenant's register changes. -/
theorem writeAttr_does {s : State} {lease n i v : Nat} (hok : s.attrOk lease n v = true) :
    let k := tkey lease n
    let t := s.writeAttr lease n i v
    (∀ j, j ≠ k → (t.tenantOf j).unnoted = (s.tenantOf j).unnoted) ∧ assocGet 0 (t.tenantOf k).attrs i = v ∧
      ∀ j, j ≠ i → assocGet 0 (t.tenantOf k).attrs j = assocGet 0 (s.tenantOf k).attrs j := by
  by_cases hne : v = assocGet 0 (s.tenantOf (tkey lease n)).attrs i
  · have e : s.writeAttr lease n i v = s := by
      unfold State.writeAttr
      rw [hok, if_neg (by decide), if_pos hne]
    rw [e]
    exact ⟨fun _ _ => rfl, hne.symm, fun _ _ => rfl⟩
  · obtain ⟨u, work, e⟩ := writeAttr_changes hok hne
    have attrs : (u.tenantOf (tkey lease n)).attrs = (s.tenantOf (tkey lease n)).attrs := by
      have kept := congrArg Tenant.attrs (work.tenants (tkey lease n))
      exact kept
    rw [e]
    unfold State.onPart
    refine ⟨fun j hj => ?_, ?_, fun j hj => ?_⟩
    · rw [setTenant_tenant, if_neg hj]
      exact work.tenants j
    · rw [setTenant_tenant, if_pos rfl]
      exact assocGet_assocSet_self _ _ _ _
    · rw [setTenant_tenant, if_pos rfl, ← attrs]
      exact assocGet_assocSet_ne _ _ _ hj

/-- An illegal value sets the status alone. -/
theorem writeAttr_refused {s : State} {lease n v : Nat} (h : s.attrOk lease n v = false) (i : Nat) :
    s.writeAttr lease n i v = s.onTenant (tkey lease n) (fun t => { t with status := 1 }) := by
  unfold State.writeAttr
  rw [h]
  rfl

/-! ### Roots and quanta (08 R179, 17 R346) -/

/-- No TLB, walk-ahead TLB or walk cache holds an entry of a tenant. -/
def State.untranslated (t : State) (k : Nat) : Prop :=
  (∀ c, ∀ e ∈ (t.core c).tlb, e.ten ≠ k) ∧
    ∀ q, (∀ e ∈ (t.quad q).walkAhead, e.ten ≠ k) ∧ ∀ e ∈ (t.quad q).walks, e.ten ≠ k

/-- A machine without the translations of a tenant. -/
def State.endTranslations (s : State) (k : Nat) : State := (s.dropTlb (fun e => e.ten == k)).dropWalks k

theorem endTranslations_core (s : State) (k c : Nat) : (s.endTranslations k).core c =
    { s.core c with tlb := (s.core c).tlb.filter (fun e => !(e.ten == k)) } :=
  assocGet_map (f := fun c : Core => { c with tlb := c.tlb.filter (fun e => !(e.ten == k)) }) (d := {}) rfl s.cores c

theorem endTranslations_quad (s : State) (k q : Nat) : (s.endTranslations k).quad q = { s.quad q with
    walkAhead := (s.quad q).walkAhead.filter (fun e => !(e.ten == k))
    walks := (s.quad q).walks.filter (fun e => e.ten != k) } :=
  (assocGet_map (f := fun q : Quad => { q with walks := q.walks.filter (fun e => e.ten != k) }) (d := {}) rfl
    (s.dropTlb (fun e => e.ten == k)).quads q).trans
    (congrArg (fun q : Quad => { q with walks := q.walks.filter (fun e => e.ten != k) })
      (assocGet_map (f := fun q : Quad => { q with walkAhead := q.walkAhead.filter (fun e => !(e.ten == k)) }) (d := {}) rfl
        s.quads q))

theorem endTranslations_untranslated (s : State) (k : Nat) : (s.endTranslations k).untranslated k := by
  refine ⟨fun c e he => ?_, fun q => ⟨fun e he => ?_, fun e he => ?_⟩⟩
  · rw [endTranslations_core] at he
    simpa using (List.mem_filter.mp he).2
  · rw [endTranslations_quad] at he
    simpa using (List.mem_filter.mp he).2
  · rw [endTranslations_quad] at he
    simpa using (List.mem_filter.mp he).2

theorem rootOk_of_fields {v : Nat} (hhi : v / 2 ^ 48 = 0) (hlo : v / 2 % 2 ^ 15 = 0) : rootOk v = true := by
  have high : bits v 63 48 = 0 := by unfold bits; omega
  have low : bits v 15 1 = 0 := by unfold bits; omega
  simp [rootOk, high, low]

theorem writeS1root_changes {s : State} {lease n v : Nat} (hok : rootOk v = true)
    (hne : v ≠ (s.tenantOf (tkey lease n)).s1root) : s.writeS1root lease n v =
      (s.setTenant (tkey lease n) { s.tenantOf (tkey lease n) with s1root := v }).endTranslations (tkey lease n) := by
  unfold State.writeS1root
  dsimp only
  rw [hok, if_neg (by simpa using hne)]
  rfl

theorem writeS2root_changes {s : State} {lease n v : Nat} (hok : rootOk v = true)
    (hst : (s.tenantOf (tkey lease n)).state ≠ 0) (hne : v ≠ (s.tenantOf (tkey lease n)).s2root) :
    s.writeS2root lease n v =
      (s.onTenant (tkey lease n) (fun t => { t with s2root := v })).endTranslations (tkey lease n) := by
  unfold State.writeS2root
  dsimp only
  rw [hok, if_neg (by simpa using hst), if_neg hne]
  rfl

theorem writeQuantum_eq {s : State} {lease n : Nat} {l : Lease} (hl : s.lease? lease = some l) (v : Nat) :
    s.writeQuantum lease n v = s.onTenant (tkey lease n) (fun t =>
      if t.state = 0 then t else if v = 0 then { t with status := 3 }
      else { t with quantum := max v (2 * l.save + 20) }) := by
  unfold State.writeQuantum
  simp only [hl]

/-! ### The configuration space (17 R332) -/

section
variable {s : State} {lease : Nat} {l : Lease} {own : Option Nat} {off : Nat}

/-- A write in the `attrs` tables and stage-1 roots of the tenants. -/
theorem cfgWrite_tables (hl : s.lease? lease = some l) (hlo : 0x30000 ≤ off) (hhi : off < 0x31000)
    (hown : (own.isNone || own == some ((off - 0x30000) / 0x100)) = true) (v : Nat) (vc : Clock) :
    s.cfgWrite lease own off v vc =
      if off % 0x100 < 0x80 then s.writeAttr lease ((off - 0x30000) / 0x100) (off % 0x100 / 8) v
      else if off % 0x100 = 0x80 then s.writeS1root lease ((off - 0x30000) / 0x100) v else s := by
  unfold State.cfgWrite
  simp only [hl]
  rw [if_neg (by omega), if_neg (by omega), if_neg (by omega), if_neg (by omega), if_neg (by omega), if_neg (by omega),
    if_neg (by omega), if_neg (by omega), if_pos hhi]
  simp only [hown, Bool.not_true, Bool.false_eq_true, if_false]

/-- A write in the descriptors. -/
theorem cfgWrite_descriptors (hl : s.lease? lease = some l) (hlo : 0x10000 ≤ off) (hhi : off < 0x11000) (v : Nat)
    (vc : Clock) : s.cfgWrite lease none off v vc = s.descWrite lease ((off - 0x10000) / 0x100) (off % 0x100) v := by
  unfold State.cfgWrite
  simp only [hl]
  rw [if_neg (by omega), if_neg (by omega), if_neg (by omega), if_neg (by omega), if_pos hhi]
  rfl

/-- A write of an `attrs` entry waits with the entry, and no other write below the routes waits. -/
theorem cfgWriteWaits_tables (hoff : off < 0x60000) (v : Nat) : s.cfgWriteWaits lease own off v =
    (decide (0x30000 ≤ off ∧ off < 0x31000 ∧ off % 0x100 < 0x80) &&
      (own.isNone || own == some ((off - 0x30000) / 0x100)) &&
      s.attrWriteWaits (tkey lease ((off - 0x30000) / 0x100)) (off % 0x100 / 8)) := by
  have routes : ¬ (0x60000 ≤ off ∧ off < 0x80000) := by omega
  simp [State.cfgWriteWaits, routes]

end

/-! ### The steps -/

section
variable {s : State} {lease n : Nat}

/-- The writes of a block that its function does not carry change nothing (03 R52). -/
theorem fbWrites_unreached {fb : FbRef} (h : s.fbReaches fb = false) (v : Nat) :
    ∀ i ∈ [Instr.faultResponse fb v, .fbheadWrite fb v, .clrovfWrite fb v], exec i s = .next s := by
  intro i hi
  simp only [List.mem_cons, List.not_mem_nil, or_false] at hi
  rcases hi with rfl | rfl | rfl
  · exact congrArg Host.Outcome.next (if_neg (by rw [h]; decide))
  · exact congrArg Host.Outcome.next (if_neg (by rw [h]; decide))
  · exact congrArg Host.Outcome.next (if_neg (by rw [h]; decide))

theorem exec_faultResponse {fb : FbRef} (h : s.fbReaches fb = true) (v : Nat) :
    exec (.faultResponse fb v) s = .next (s.respond fb (v % 2 ^ 64)) := congrArg Host.Outcome.next (if_pos h)

theorem exec_fbheadWrite {fb : FbRef} (h : s.fbReaches fb = true) (v : Nat) :
    exec (.fbheadWrite fb v) s = .next (s.writeFbHead fb v) := congrArg Host.Outcome.next (if_pos h)

theorem exec_clrovfWrite {fb : FbRef} (h : s.fbReaches fb = true) (v : Nat) :
    exec (.clrovfWrite fb v) s = .next (s.writeFbCtl fb v) := congrArg Host.Outcome.next (if_pos h)

theorem named_of (hl : (s.lease? lease).isSome) (hn : n < 16) : s.named lease n = true := by simp [State.named, hl, hn]

theorem exec_attrEntryWrite (h : s.named lease n = true) {i : Nat} (hi : i < 16) (v : Nat) :
    exec (.attrEntryWrite lease n i v) s = .next
      (if s.attrWriteWaits (tkey lease n) i then s else s.writeAttr lease n i (v % 2 ^ 64)) := by
  refine congrArg Host.Outcome.next ?_
  cases s.attrWriteWaits (tkey lease n) i <;> simp [h, hi]

theorem exec_s1rootWrite (h : s.named lease n = true) (v : Nat) :
    exec (.s1rootWrite lease n v) s = .next (s.writeS1root lease n (v % 2 ^ 64)) := congrArg Host.Outcome.next (if_pos h)

theorem exec_s2rootWrite (h : s.named lease n = true) (v : Nat) :
    exec (.s2rootWrite lease n v) s = .next (s.writeS2root lease n (v % 2 ^ 64)) := congrArg Host.Outcome.next (if_pos h)

theorem exec_quantumWrite (h : s.named lease n = true) (v : Nat) :
    exec (.quantumWrite lease n v) s = .next (s.writeQuantum lease n (v % 2 ^ 32)) := congrArg Host.Outcome.next (if_pos h)

/-- Offsets of register writes are doubleword aligned (17 R332). -/
theorem exec_registerWrite {off : Nat} (h : off % 8 = 0) (who : Writer) (v : Nat) :
    exec (.registerWrite who off v) s = .next (s.registerWrite who off (v % 2 ^ 64)) := congrArg Host.Outcome.next (if_pos h)

/-- A change of one tenant that exists, seen from every key. -/
theorem onTenant_changes {k : Nat} (h : (assocGet? s.tenants k).isSome) (f : Tenant → Tenant) :
    (s.onTenant k f).mem = s.mem ∧ (∀ j, j ≠ k → (s.onTenant k f).tenantOf j = s.tenantOf j) ∧
      (s.onTenant k f).tenantOf k = f (s.tenantOf k) :=
  ⟨by rw [onTenant_rest], fun j hj => by rw [onTenant_tenantOf, if_neg (fun e => hj e.1)],
    by rw [onTenant_tenantOf, if_pos ⟨rfl, h⟩]⟩

/-- A tenant's write of an `attrs` entry through its configuration space (17 R332). -/
theorem registerWrite_attr {l : Lease} (hl : s.lease? lease = some l) {i : Nat} (hn : n < 16) (hi : i < 16) (v : Nat) :
    s.registerWrite (.tenant lease n) (0x30000 + 0x100 * n + 8 * i) v =
      if s.attrWriteWaits (tkey lease n) i then s else s.writeAttr lease n i v := by
  have block : (0x30000 + 0x100 * n + 8 * i - 0x30000) / 0x100 = n := by omega
  have low : (0x30000 + 0x100 * n + 8 * i) % 0x100 = 8 * i := by omega
  have entry : 8 * i / 8 = i := by omega
  have inside : 0x30000 ≤ 0x30000 + 0x100 * n + 8 * i ∧ 0x30000 + 0x100 * n + 8 * i < 0x31000 ∧ 8 * i < 0x80 := by omega
  have own : ((some n).isNone || some n == some n) = true := by simp
  unfold State.registerWrite
  dsimp only
  rw [cfgWriteWaits_tables (by omega), cfgWrite_tables hl inside.1 inside.2.1 (by rw [block]; exact own), block, low, entry,
    if_pos inside.2.2, decide_eq_true inside, own]
  rfl

/-- A tenant's write of its stage-1 root. -/
theorem registerWrite_s1root {l : Lease} (hl : s.lease? lease = some l) (hn : n < 16) (v : Nat) :
    s.registerWrite (.tenant lease n) (0x30000 + 0x100 * n + 0x80) v = s.writeS1root lease n v := by
  have block : (0x30000 + 0x100 * n + 0x80 - 0x30000) / 0x100 = n := by omega
  have low : (0x30000 + 0x100 * n + 0x80) % 0x100 = 0x80 := by omega
  have free : s.cfgWriteWaits lease (some n) (0x30000 + 0x100 * n + 0x80) v = false := by
    rw [cfgWriteWaits_tables (by omega), low]
    simp
  unfold State.registerWrite
  dsimp only
  rw [free, if_neg (by decide), cfgWrite_tables hl (by omega) (by omega) (by rw [block]; simp), block, low]
  rfl

/-- A lease's write of the stage-2 root of a tenant. -/
theorem registerWrite_s2root {l : Lease} (hl : s.lease? lease = some l) (hn : n < 16) (v : Nat) :
    s.registerWrite (.lease lease) (0x10000 + 0x100 * n + 0x58) v = s.writeS2root lease n v := by
  have block : (0x10000 + 0x100 * n + 0x58 - 0x10000) / 0x100 = n := by omega
  have low : (0x10000 + 0x100 * n + 0x58) % 0x100 = 0x58 := by omega
  have free : s.cfgWriteWaits lease none (0x10000 + 0x100 * n + 0x58) v = false := by
    have outside : ¬ 0x30000 ≤ 0x10000 + 0x100 * n + 0x58 := by omega
    rw [cfgWriteWaits_tables (by omega)]
    simp [outside]
  unfold State.registerWrite
  dsimp only
  rw [free, if_neg (by decide), cfgWrite_descriptors hl (by omega) (by omega), block, low]
  rfl

end

/-- The fields of a response in the doubleword written (17 R339). -/
theorem response_fields (v : Nat) : bits (v % 2 ^ 64) 31 16 = v / 2 ^ 16 % 2 ^ 16 ∧
    bits (v % 2 ^ 64) 63 32 = v / 2 ^ 32 % 2 ^ 32 ∧ bits (v % 2 ^ 64) 1 0 = v % 4 := by
  unfold bits
  omega

/-- A block that a write names exists: the owner's does, a lease's with the lease, a tenant's with the tenant. -/
theorem hasFb_of_named {s : State} {lease n : Nat} {fb : FbRef} (hlease : (s.lease? lease).isSome)
    (h : fb = .owner ∨ fb = .lease lease ∨ (fb = .tenant lease n ∧ (assocGet? s.tenants (tkey lease n)).isSome)) :
    s.hasFb fb := by
  rcases h with rfl | rfl | ⟨rfl, hten⟩
  · trivial
  · exact hlease
  · exact hten

/-- The generation of a response is the tenant's when the block is a tenant's, else the entry's. -/
theorem responseGen_of_named {s : State} {lease n : Nat} {fb : FbRef}
    (h : fb = .owner ∨ fb = .lease lease ∨ (fb = .tenant lease n ∧ (assocGet? s.tenants (tkey lease n)).isSome))
    (gen : Nat) :
    s.responseGen fb gen = if fb = .tenant lease n then (s.tenantOf (tkey lease n)).pgen else gen := by
  rcases h with rfl | rfl | ⟨rfl, -⟩
  · rfl
  · rfl
  · rw [if_pos rfl]
    rfl

/-- A page request answered with a retry leaves its block, and its sub-gang goes on (17 R339). -/
theorem respond_retry_does {s : State} {r : FbRef} (hfb : s.hasFb r) {v gen gid w cause synd va : Nat} {g : Gang} {y : Wait}
    (h : assocGet? (s.getFb r).reqs (bits v 31 16) = some (gen, .page gid w cause synd va))
    (hgen : bits v 63 32 = s.responseGen r gen) (ha : bits v 1 0 = 0) (hg : s.gang? gid = some g)
    (hw : assocGet? g.waits w = some y) (hp : ∀ m, s.team? g.team = some m → m.placed = true) :
    (s.respond r v).mem = s.mem ∧ assocGet? ((s.respond r v).getFb r).reqs (bits v 31 16) = none ∧
      Then (s.respond r v) gid (fun h => assocGet? h.waits w = none ∧ ∀ l, l < g.lanes.length →
        y.mask.getLsbD l = true → (h.lane l).parked = false ∧ (h.lane l).pc = (g.lane l).pc) := by
  rw [respond_retry h hgen ha hg hw hp]
  generalize hf : { s.getFb r with reqs := (s.getFb r).reqs.filter (fun p => p.1 != bits v 31 16) } = f
  have post := postStep_setFb s r f
  have here : (s.setFb r f).gang? gid = some g := by
    unfold State.gang?
    rw [post.gangs]
    exact hg
  obtain ⟨mem, blocks, goes⟩ := unpark_again here hw
  refine ⟨mem.trans post.mem, ?_, goes⟩
  rw [blocks, setFb_getFb hfb (f := f) (by rw [← hf]) (by rw [← hf]), ← hf]
  exact assocGet?_filter_ne _ _

/-- A write of FBHEAD to a block that holds no entry moves its head alone. -/
theorem writeFbHead_does {s : State} {r : FbRef} (hfb : s.hasFb r) (h : (s.getFb r).held = []) (v : Nat) :
    (s.writeFbHead r v).mem = s.mem ∧ ((s.writeFbHead r v).getFb r).head = v % 2 ^ 32 ∧
      ((s.writeFbHead r v).getFb r).tail = (s.getFb r).tail := by
  rw [writeFbHead_empty h, setFb_getFb hfb (f := { s.getFb r with head := v % 2 ^ 32 }) rfl rfl]
  exact ⟨(postStep_setFb ..).mem, rfl, rfl⟩

/-- A write of the control word sets the two enables, and clears OVF when bit 31 is written and nothing is held. -/
theorem writeFbCtl_does {s : State} {r : FbRef} (hfb : s.hasFb r) (v : Nat) : (s.writeFbCtl r v).mem = s.mem ∧
    ((s.writeFbCtl r v).getFb r).entie = v.testBit 0 ∧ ((s.writeFbCtl r v).getFb r).ovfie = v.testBit 1 ∧
    ((s.writeFbCtl r v).getFb r).ovf = if v.testBit 31 = true ∧ (s.getFb r).held = [] then false else (s.getFb r).ovf := by
  unfold State.writeFbCtl
  dsimp only
  rw [setFb_getFb hfb (f := { s.getFb r with
    ovf := if bit v 31 && (s.getFb r).held.isEmpty then false else (s.getFb r).ovf, ovfie := bit v 1, entie := bit v 0 }) rfl rfl]
  refine ⟨(postStep_setFb ..).mem, bit_eq_testBit .., bit_eq_testBit .., ?_⟩
  simp [bit_eq_testBit]

/-- A root written: the word stands, every other tenant is as it was, and no translation of the tenant is left. -/
theorem writeS1root_does {s : State} {lease n v : Nat} (hok : rootOk v = true)
    (hne : v ≠ (s.tenantOf (tkey lease n)).s1root) :
    (s.writeS1root lease n v).mem = s.mem ∧
      (∀ j, j ≠ tkey lease n → (s.writeS1root lease n v).tenantOf j = s.tenantOf j) ∧
      (s.writeS1root lease n v).tenantOf (tkey lease n) = { s.tenantOf (tkey lease n) with s1root := v } ∧
      (s.writeS1root lease n v).untranslated (tkey lease n) := by
  rw [writeS1root_changes hok hne]
  exact ⟨rfl, fun j hj => (setTenant_tenant ..).trans (if_neg hj), (setTenant_tenant ..).trans (if_pos rfl),
    endTranslations_untranslated _ _⟩

theorem writeS2root_does {s : State} {lease n v : Nat} (hten : (assocGet? s.tenants (tkey lease n)).isSome)
    (hok : rootOk v = true) (hst : (s.tenantOf (tkey lease n)).state ≠ 0)
    (hne : v ≠ (s.tenantOf (tkey lease n)).s2root) :
    (s.writeS2root lease n v).mem = s.mem ∧
      (∀ j, j ≠ tkey lease n → (s.writeS2root lease n v).tenantOf j = s.tenantOf j) ∧
      (s.writeS2root lease n v).tenantOf (tkey lease n) = { s.tenantOf (tkey lease n) with s2root := v } ∧
      (s.writeS2root lease n v).untranslated (tkey lease n) := by
  rw [writeS2root_changes hok hst hne]
  obtain ⟨mem, others, own⟩ := onTenant_changes hten (fun t => { t with s2root := v })
  exact ⟨mem, others, own, endTranslations_untranslated _ _⟩

/-- Settles O52: each write by the rule for its register. -/
theorem registerSteps : Obligations.RegisterSteps := by
  unfold Obligations.RegisterSteps
  intro s lease n hlease hn
  have named := named_of hlease hn
  obtain ⟨l, hl⟩ := Option.isSome_iff_exists.mp hlease
  refine ⟨fun fb v hfb => ⟨fun hr => fbWrites_unreached hr v, fun hr => ⟨?unknown, ?stale, ?retry, ?head, ?control⟩⟩,
    fun hten => ⟨fun i v hi => ⟨?waits, ?legal, ?illegal⟩, fun v hv hhi hlo => ⟨?s1root, ?s2root⟩, ?quantum⟩,
    ?unaligned, ?attr, ?root1, ?root2⟩
  case unknown =>
    intro hreq
    rw [← (response_fields v).1] at hreq
    exact ⟨_, exec_faultResponse hr v, respond_unknown hreq ▸ dropped_does (hasFb_of_named hlease hfb)⟩
  case stale =>
    rintro gen r hreq rfl hgen
    rw [← (response_fields v).1] at hreq
    rw [← (response_fields v).2.1] at hgen
    exact ⟨_, exec_faultResponse hr v, respond_stale hreq hgen ▸ dropped_does (hasFb_of_named hlease hfb)⟩
  case retry =>
    intro gen gid w cause synd va g y hreq hgen hv hg hw hp
    obtain ⟨req, generation, action⟩ := response_fields v
    rw [← responseGen_of_named hfb, ← generation] at hgen
    rw [← req] at hreq ⊢
    exact ⟨_, exec_faultResponse hr v, respond_retry_does (hasFb_of_named hlease hfb) hreq hgen (action.trans hv) hg hw hp⟩
  case head => exact fun hheld => ⟨_, exec_fbheadWrite hr v, writeFbHead_does (hasFb_of_named hlease hfb) hheld v⟩
  case control => exact ⟨_, exec_clrovfWrite hr v, writeFbCtl_does (hasFb_of_named hlease hfb) v⟩
  case waits => exact fun hw => (exec_attrEntryWrite named hi v).trans (congrArg Host.Outcome.next (if_pos hw))
  case legal =>
    intro hw hok
    obtain ⟨others, entry, rest⟩ := writeAttr_does hok (i := i)
    exact ⟨_, (exec_attrEntryWrite named hi v).trans (congrArg Host.Outcome.next (if_neg (by rw [hw]; decide))),
      fun j hj => eq_of_unnoted (others j hj), entry, rest⟩
  case illegal =>
    intro hw hok
    refine ⟨_, (exec_attrEntryWrite named hi v).trans (congrArg Host.Outcome.next (if_neg (by rw [hw]; decide))), ?_⟩
    rw [writeAttr_refused hok]
    exact onTenant_changes hten _
  case s1root =>
    intro hne
    have run := exec_s1rootWrite named v
    rw [hv] at run
    exact ⟨_, run, writeS1root_does (rootOk_of_fields hhi hlo) hne⟩
  case s2root =>
    intro hst hne
    have run := exec_s2rootWrite named v
    rw [hv] at run
    exact ⟨_, run, writeS2root_does hten (rootOk_of_fields hhi hlo) hst hne⟩
  case quantum =>
    intro l v hl hst
    obtain ⟨mem, others, own⟩ := onTenant_changes hten (fun t =>
      if t.state = 0 then t else if v % 2 ^ 32 = 0 then { t with status := 3 }
      else { t with quantum := max (v % 2 ^ 32) (2 * l.save + 20) })
    exact ⟨_, (exec_quantumWrite named v).trans (congrArg Host.Outcome.next (writeQuantum_eq hl _)), mem, others,
      own.trans (if_neg hst)⟩
  case unaligned => exact fun who off v hoff => congrArg Host.Outcome.next (if_neg hoff)
  case attr =>
    intro i v hi
    rw [exec_registerWrite (by omega), registerWrite_attr hl hn hi, exec_attrEntryWrite named hi]
  case root1 =>
    intro v
    rw [exec_registerWrite (by omega), registerWrite_s1root hl hn, exec_s1rootWrite named]
  case root2 =>
    intro v
    rw [exec_registerWrite (by omega), registerWrite_s2root hl hn, exec_s2rootWrite named]

end Sys2Proof.Machine
end

section
/-! Rounding on a grid: where each mode puts an exact magnitude between its two neighbours (02 R36), and O12. -/
namespace Sys2Proof.Machine

/-! ### The grid point of each mode -/

/-- Whether a mode takes the neighbour of `m` further from zero, `u` being the spacing of the grid. -/
def roundsAway (mode : RMode) (neg : Bool) (m u : Nat) : Bool :=
  match mode with
  | .rne => decide (u < 2 * (m % u) ∨ 2 * (m % u) = u ∧ m / u % 2 = 1)
  | .rna => decide (u ≤ 2 * (m % u))
  | .rtz => false
  | .rdn => neg && decide (m % u ≠ 0)
  | .rup => !neg && decide (m % u ≠ 0)

/-- A magnitude that is a grid point stays where it is. -/
theorem not_roundsAway_of_mod_eq_zero {m u : Nat} (hu : 0 < u) (exact : m % u = 0) (mode : RMode) (neg : Bool) :
    roundsAway mode neg m u = false := by
  cases mode <;> simp [roundsAway, exact, hu.ne, hu.ne']

section
variable {m u : Nat} {e q : Int} (mode : RMode) (neg : Bool)

/-- On a grid coarser than the magnitude's unit: the lower neighbour or the one after it, and the remainder is lost. -/
theorem roundGrid_of_lt (h : e < q) (hu : u = 2 ^ (q - e).toNat) :
    roundGrid mode neg m e q =
      (if roundsAway mode neg m u then m / u + 1 else m / u, decide (m % u ≠ 0)) := by
  subst hu
  unfold roundGrid
  rw [if_neg (not_le.mpr h)]
  cases mode <;> simp [roundsAway, bne, Bool.beq_eq_decide_eq]

/-- The grid point in the magnitude's unit: the remainder below it, or what is missing to the next one. -/
theorem roundGrid_mul (h : e < q) (hu : u = 2 ^ (q - e).toNat) :
    (roundGrid mode neg m e q).1 * u + m % u = m + if roundsAway mode neg m u then u else 0 := by
  have division := Nat.div_add_mod' m u
  rw [roundGrid_of_lt mode neg h hu]
  cases roundsAway mode neg m u
  · simpa using division
  · simp only [if_true, Nat.succ_mul]
    omega

/-- Every mode gives a neighbour of the magnitude, and the magnitude itself where nothing is lost. -/
theorem roundGrid_neighbour (h : e < q) (hu : u = 2 ^ (q - e).toNat) :
    (roundGrid mode neg m e q).2 = decide (m % u ≠ 0) ∧
      ((roundGrid mode neg m e q).2 = false → (roundGrid mode neg m e q).1 * u = m) ∧
      (roundGrid mode neg m e q).1 * u < m + u ∧ m < (roundGrid mode neg m e q).1 * u + u := by
  have hpos : 0 < u := hu ▸ Nat.two_pow_pos _
  have below := Nat.mod_lt m hpos
  have point := roundGrid_mul (m := m) mode neg h hu
  have lost : (roundGrid mode neg m e q).2 = decide (m % u ≠ 0) := by rw [roundGrid_of_lt mode neg h hu]
  rw [lost]
  by_cases exact : m % u = 0
  · rw [not_roundsAway_of_mod_eq_zero hpos exact, exact] at point
    simp only [Bool.false_eq_true, if_false, Nat.add_zero] at point
    exact ⟨rfl, fun _ => point, by omega, by omega⟩
  · refine ⟨rfl, fun kept => absurd kept (by simpa using exact), ?_⟩
    split at point <;> omega

end

/-! ### Each mode of 02 R36 -/

section
variable {m u : Nat} {e q : Int}

/-- RNE: no grid point is nearer. -/
theorem roundGrid_rne_nearest (neg : Bool) (h : e < q) (hu : u = 2 ^ (q - e).toNat) :
    2 * ((roundGrid .rne neg m e q).1 * u) ≤ 2 * m + u ∧ 2 * m ≤ 2 * ((roundGrid .rne neg m e q).1 * u) + u := by
  have point := roundGrid_mul (m := m) .rne neg h hu
  have below := Nat.mod_lt m (hu ▸ Nat.two_pow_pos _ : 0 < u)
  simp only [roundsAway, decide_eq_true_eq] at point
  split at point <;> omega

/-- RNE: on a tie the point is even. -/
theorem roundGrid_rne_tie (neg : Bool) (h : e < q) (hu : u = 2 ^ (q - e).toNat)
    (tie : 2 * m + u = 2 * ((roundGrid .rne neg m e q).1 * u) ∨ 2 * m = 2 * ((roundGrid .rne neg m e q).1 * u) + u) :
    (roundGrid .rne neg m e q).1 % 2 = 0 := by
  have point := roundGrid_mul (m := m) .rne neg h hu
  have below := Nat.mod_lt m (hu ▸ Nat.two_pow_pos _ : 0 < u)
  have half : 2 * (m % u) = u := by split at point <;> omega
  have away : roundsAway .rne neg m u = decide (m / u % 2 = 1) := by simp [roundsAway, half]
  rw [roundGrid_of_lt .rne neg h hu, away]
  simp only [decide_eq_true_eq]
  split <;> omega

/-- RTZ: never further from zero. -/
theorem roundGrid_rtz_le (neg : Bool) (h : e < q) (hu : u = 2 ^ (q - e).toNat) : (roundGrid .rtz neg m e q).1 * u ≤ m := by
  have point := roundGrid_mul (m := m) .rtz neg h hu
  simp only [roundsAway, Bool.false_eq_true, if_false] at point
  omega

/-- RDN on a negative value: never nearer zero. -/
theorem le_roundGrid_rdn_neg (h : e < q) (hu : u = 2 ^ (q - e).toNat) : m ≤ (roundGrid .rdn true m e q).1 * u := by
  have point := roundGrid_mul (m := m) .rdn true h hu
  have below := Nat.mod_lt m (hu ▸ Nat.two_pow_pos _ : 0 < u)
  simp only [roundsAway, Bool.true_and, decide_eq_true_eq] at point
  split at point <;> omega

/-- RDN on a value that is not negative: never further from zero, as under RTZ. -/
theorem roundGrid_rdn_nonneg_le (h : e < q) (hu : u = 2 ^ (q - e).toNat) : (roundGrid .rdn false m e q).1 * u ≤ m :=
  roundGrid_rtz_le false h hu

/-- RUP of a value is RDN of its opposite. -/
theorem roundGrid_rup (neg : Bool) (m : Nat) (e q : Int) : roundGrid .rup neg m e q = roundGrid .rdn (!neg) m e q := by
  cases neg <;> rfl

end

/-- Settles O12: each mode by the neighbour that it takes. -/
theorem roundingModes : Obligations.RoundingModes := by
  unfold Obligations.RoundingModes
  intro neg m e q h u r
  refine ⟨fun mode => roundGrid_neighbour mode neg h rfl, roundGrid_rne_nearest neg h rfl, roundGrid_rne_tie neg h rfl,
    roundGrid_rtz_le neg h rfl, ?rdn, ?rup⟩
  case rdn =>
    cases neg
    · exact roundGrid_rdn_nonneg_le h rfl
    · exact le_roundGrid_rdn_neg h rfl
  case rup =>
    simp only [r, roundGrid_rup]
    cases neg
    · exact le_roundGrid_rdn_neg h rfl
    · exact roundGrid_rdn_nonneg_le h rfl

end Sys2Proof.Machine
end

section
/-! The values right after reset, the words of a descriptor that is configured, and O54. -/
namespace Sys2Proof.Machine

/-! ### The parts of the machine after reset -/

/-- After reset every buffer and every C-store is absent, so its canonical form holds (10 R243). -/
theorem reset_canonBuffers : State.reset.canonBuffers :=
  ⟨List.forall_mem_nil _, List.forall_mem_nil _, List.forall_mem_nil _⟩

/-- After reset every quad has its registers at the values of 04 R67 and 19 R373. -/
theorem reset_quad (q : Nat) : State.reset.quad q = {} := rfl

/-- After reset no tenant is listed, so every descriptor is a free one (19 R355). -/
theorem reset_tenantOf (k : Nat) : State.reset.tenantOf k = {} := rfl

/-- The control block of a queue that was never enabled reads zero at every offset: it is not full, since its ring has
one entry and none is used (03 R53). -/
theorem queue_read_reset (off : Nat) : Queue.read {} off = 0 := by
  unfold Queue.read
  split <;> rfl

/-- The block of a fault buffer that was never written reads zero at every offset (17 R337). -/
theorem faultBuffer_read_reset (off : Nat) : FaultBuffer.read {} off 0 = 0 := by
  unfold FaultBuffer.read
  split <;> rfl

/-! ### The words of a descriptor (19 R355, R356) -/

/-- In state 0 every field of the descriptor reads 0. -/
theorem descWord_of_free {x : Tenant} (h : x.state = 0) (off : Nat) : x.descWord off = 0 := by
  unfold Tenant.descWord
  rw [h, if_pos rfl, ite_self]

/-- A descriptor that enters state 1 shows the reset values of the table: T1 and T2, and zero in every other field. -/
theorem descWord_configured (x : Tenant) (off : Nat) :
    Tenant.descWord { x.resetWords with state := 1 } off =
      if off = 0 then 1 else if off = 0x98 then 1000 else if off = 0x9C then 100 else 0 := by
  by_cases state : off = 0
  · subst state
    rfl
  rw [if_neg state]
  unfold Tenant.descWord
  rw [if_neg state, if_neg Nat.one_ne_zero]
  simp only [Tenant.resetWords, Nat.zero_and, Nat.zero_mod, Nat.zero_div, List.getD_nil, ite_self]
  split
  case h_29 notT1 notT2 _ => rw [if_neg notT1, if_neg notT2]
  all_goals rfl

/-! ### The step to state 1 (19 R355) -/

/-- DESC_CONFIGURE on a free descriptor of a lease: its words take their reset values, in state 1. -/
theorem exec_descConfigure {s : State} {lease n : Nat} (h : s.named lease n = true)
    (free : (s.tenantOf (tkey lease n)).state = 0) :
    exec (.descConfigure lease n) s = .next (s.descConfigure lease n) := by
  refine congrArg Host.Outcome.next (if_pos ?_)
  rw [h, free]
  rfl

theorem descConfigure_tenantOf (s : State) (lease n : Nat) : (s.descConfigure lease n).tenantOf (tkey lease n) =
    { (s.tenantOf (tkey lease n)).resetWords with state := 1 } :=
  (setTenant_tenant ..).trans (if_pos rfl)

/-- Settles O54: the reset state part by part, and a configured descriptor word by word. -/
theorem resetValues : Obligations.ResetValues := by
  unfold Obligations.ResetValues
  intro z
  refine ⟨⟨⟨rfl, rfl⟩, reset_canonBuffers, rfl, rfl, rfl, rfl, rfl, rfl⟩, ?quads, ?tenants, fun _ => rfl,
    queue_read_reset, faultBuffer_read_reset, ?configured⟩
  case quads =>
    intro q
    rw [reset_quad]
    exact ⟨rfl, rfl, rfl, rfl, rfl, rfl, rfl⟩
  case tenants =>
    intro k
    rw [reset_tenantOf]
    exact ⟨rfl, descWord_of_free rfl⟩
  case configured =>
    intro s lease n hlease hn free
    refine ⟨_, exec_descConfigure (named_of hlease hn) free, fun off => ?_⟩
    rw [descConfigure_tenantOf, descWord_configured]

end Sys2Proof.Machine
end

section
/-! The steps of leases, links, attestation and measurements (04 R70, 10 R235, 19 R359 to R374), and O51. -/
namespace Sys2Proof.Machine

/-! ### Readings that a fold keeps -/

/-- A reading that no single step changes is as it was after all of them. -/
theorem foldl_reads {σ α β : Type} (read : σ → β) {f : σ → α → σ} (hf : ∀ s x, read (f s x) = read s)
    (xs : List α) (s : σ) : read (xs.foldl f s) = read s := by
  induction xs generalizing s with
  | nil => rfl
  | cons x xs ih => exact (ih (f s x)).trans (hf s x)

/-! ### Leases (19 R359) -/

theorem extentsOk_iff (ex : List (Nat × Nat)) :
    extentsOk ex = true ↔ ex.length ≤ 16 ∧ ∀ e ∈ ex, e.1 % 2 ^ 16 = 0 ∧ e.1 + e.2 * 2 ^ 16 ≤ 84 * 2 ^ 35 := by
  unfold extentsOk
  rw [Bool.and_eq_true, decide_eq_true_eq, List.all_eq_true]
  simp only [decide_eq_true_eq]

/-- A lease health word that counts one more (19 R374). -/
theorem countHealth_health (l : Lease) (j : Nat) :
    assocGet 0 (l.countHealth j 1).health j = (assocGet 0 l.health j + 1) % 2 ^ 64 := assocGet_assocSet_self ..

/-- A lease with the module power and the hottest quad noted (19 R374). -/
def Lease.sampled (l : Lease) (watts decidegrees : Nat) : Lease :=
  { l with health := assocSet (assocSet l.health 6 watts) 7 decidegrees }

/-- A sample of the module power reaches every lease. -/
theorem powerSample_lease (s : State) (w c k : Nat) :
    ({ s with leases := s.leases.map (fun l => (l.1, l.2.sampled w c)) } : State).lease? k =
      (s.lease? k).map (fun l => l.sampled w c) := assocGet?_map (fun l : Lease => l.sampled w c) s.leases k

theorem sampled_health (l : Lease) (w c : Nat) :
    assocGet 0 (l.sampled w c).health 6 = w ∧ assocGet 0 (l.sampled w c).health 7 = c :=
  ⟨(assocGet_assocSet_ne _ _ _ (by decide)).trans (assocGet_assocSet_self ..), assocGet_assocSet_self ..⟩

/-- The end of a sweep notes the map generation that the matrix holds for (04 R70). -/
theorem latmatSweep_lease {s : State} {lease : Nat} {l : Lease} (h : s.lease? lease = some l) (ns : List Nat) :
    ∃ t z, exec (.latmatSweep lease ns) s = .next t ∧ t.lease? lease = some z ∧ z.latGen = l.mapgen := by
  show ∃ t z, execLatmatSweep lease ns s = .next t ∧ _
  unfold execLatmatSweep
  rw [h]
  exact ⟨_, _, rfl, assocGet?_assocSet_self .., rfl⟩

/-- A packet that is dropped for its tag is counted by its lease (19 R363). -/
theorem packetTagDrop_lease {s : State} {lease : Nat} {l : Lease} (h : s.lease? lease = some l) :
    ∃ t, exec (.packetTagDrop lease) s = .next t ∧ t.mem = s.mem ∧ t.lease? lease = some (l.countHealth 4 1) := by
  show ∃ t, execPacketTagDrop lease s = .next t ∧ _
  unfold execPacketTagDrop
  rw [h]
  dsimp only
  split <;> exact ⟨_, rfl, rfl, assocGet?_assocSet_self ..⟩

/-! ### Fabric links (19 R371) -/

/-- A link set with the liveness that it had leaves the liveness of every link. -/
theorem dead_assocSet {xs : List (Nat × Link)} {link : Nat} {x : Link} (h : x.dead = (assocGet {} xs link).dead)
    (k : Nat) : (assocGet {} (assocSet xs link x) k).dead = (assocGet {} xs k).dead := by
  by_cases e : k = link
  · rw [e, assocGet_assocSet_self, h]
  · rw [assocGet_assocSet_ne _ _ _ e]

theorem linkDead_congr {s t : State} (h : ∀ k, (assocGet {} t.links k).dead = (assocGet {} s.links k).dead) (l : Nat) :
    t.linkDead l = s.linkDead l := by
  unfold State.linkDead
  simp only [h]

theorem linkDead_of_dead {s : State} {l : Nat} (h : (assocGet {} s.links l).dead = true) : s.linkDead l = true := by
  unfold State.linkDead
  rw [h, Bool.true_or]

/-- The health words of a link's leases are kept with the leases. -/
theorem linkHealth_rest (s : State) (link j : Nat) :
    s.linkHealth link j = { s with leases := (s.linkHealth link j).leases } := by
  have kept := foldl_reads (fun t : State => { t with leases := [] }) (f := fun s l => match s.lease? l with
      | some x => s.setLease l (x.countHealth j 1)
      | none => s) (fun t l => by split <;> rfl) (s.linkLeases link) s
  exact (congrArg (fun t : State => { t with leases := (s.linkHealth link j).leases }) kept)

@[simp] theorem linkHealth_mem (s : State) (link j : Nat) : (s.linkHealth link j).mem = s.mem := by rw [linkHealth_rest]
@[simp] theorem linkHealth_links (s : State) (link j : Nat) : (s.linkHealth link j).links = s.links := by
  rw [linkHealth_rest]

@[simp] theorem post_mem (s : State) (r : FbRef) (e : Entry) : (s.post r e).mem = s.mem := (postStep_post s r e).mem
@[simp] theorem post_links (s : State) (r : FbRef) (e : Entry) : (s.post r e).links = s.links := by
  rw [(postStep_post s r e).rest]

@[simp] theorem reroute_mem (s : State) (link : Nat) : (s.reroute link).mem = s.mem := by
  unfold State.reroute
  dsimp only
  split
  · rfl
  · split <;> rfl

/-- No link dies, and none comes back, where the packets of a dead link go. -/
@[simp] theorem reroute_dead (s : State) (link k : Nat) :
    (assocGet {} (s.reroute link).links k).dead = (assocGet {} s.links k).dead := by
  have emptied := dead_assocSet (xs := s.links) (link := link) (x := { assocGet {} s.links link with sent := [] }) rfl k
  unfold State.reroute
  dsimp only
  split
  · rfl
  · split
    · exact emptied
    · refine (dead_assocSet ?_ k).trans emptied
      rfl

/-- A link that is killed is dead, and memory is as it was. -/
theorem killLink_does (s : State) (link : Nat) :
    (s.killLink link).mem = s.mem ∧ (s.killLink link).linkDead link = true := by
  unfold State.killLink
  split
  · exact ⟨rfl, ‹_›⟩
  · dsimp only
    refine ⟨?_, linkDead_of_dead ?_⟩
    · show (State.linkHealth _ link 3).mem = _
      rw [linkHealth_mem, post_mem]
      split <;> simp only [reroute_mem]
    · show (assocGet {} (State.linkHealth _ link 3).links link).dead = true
      rw [linkHealth_links, post_links]
      split <;> simp only [reroute_dead, assocGet_assocSet_self]

/-- A link after a failed flit of its oldest packet, or of one that comes to stand there with it. -/
def State.failedLink (s : State) (link : Nat) : Link :=
  let x : Link := assocGet {} s.links link
  { x with fails := x.fails + 1, sent := x.sent.headD s.nextId :: x.sent.tail }

/-- A failed flit counted and its packet sent again. -/
def State.replayed (s : State) (link : Nat) : State :=
  State.linkHealth { s with
    nextId := s.nextId + 1
    links := assocSet s.links link (s.failedLink link)
    outbox := s.outbox ++ [.replay link ((assocGet {} s.links link).sent.headD s.nextId)] } link 2

theorem exec_flitReplay {s : State} {link : Nat} (h : s.linkDead link = false) :
    exec (.flitReplay link) s = .next (if 8 ≤ (assocGet {} s.links link).fails + 1 then (s.replayed link).killLink link
      else s.replayed link) := congrArg Host.Outcome.next (if_neg (by rw [h]; decide))

theorem replayed_mem (s : State) (link : Nat) : (s.replayed link).mem = s.mem := linkHealth_mem ..

theorem replayed_links (s : State) (link : Nat) : (s.replayed link).links = assocSet s.links link (s.failedLink link) :=
  linkHealth_links ..

theorem replayed_outbox (s : State) (link : Nat) :
    Output.replay link ((assocGet {} s.links link).sent.headD s.nextId) ∈ (s.replayed link).outbox := by
  unfold State.replayed
  rw [linkHealth_rest]
  exact List.mem_append_right _ (List.mem_singleton_self _)

theorem replayed_linkDead (s : State) (link l : Nat) : (s.replayed link).linkDead l = s.linkDead l :=
  linkDead_congr (fun k => by rw [replayed_links]; exact dead_assocSet (x := s.failedLink link) rfl k) l

/-! ### Peer links (10 R235) -/

/-- A copy that stops is marked, and a fault that a handler level takes is posted (10 R223). -/
theorem stopCopy_keeps (s : State) (q uid : Nat) (c : Copy) (cause synd addr : Nat) :
    (s.stopCopy q uid c cause synd addr).mem = s.mem ∧ (s.stopCopy q uid c cause synd addr).peerLinks = s.peerLinks := by
  unfold State.stopCopy
  dsimp only
  split
  · rw [(postStep_post _ _ _).rest]
    exact ⟨rfl, rfl⟩
  · exact ⟨rfl, rfl⟩

/-- The loss of a peer link stops copies, and changes neither memory nor the links. -/
theorem exec_peerLinkLost (s : State) (link : Nat) : ∃ t, exec (.peerLinkLost link) s = .next t ∧ t.mem = s.mem ∧
    t.peerLinks = assocSet s.peerLinks link { assocGet {} s.peerLinks link with down := true } := by
  refine ⟨_, rfl, ?_⟩
  refine Prod.mk.inj (foldl_reads (fun t : State => (t.mem, t.peerLinks)) (fun u q => ?_) s.quads _)
  refine foldl_reads (fun t : State => (t.mem, t.peerLinks)) (fun v c => ?_) q.2.copies u
  split
  · split
    · exact Prod.ext (stopCopy_keeps ..).1 (stopCopy_keeps ..).2
    · rfl
  · rfl

/-- A write by a peer goes where the receiving tenant's stage 2 leads (19 R370). -/
theorem peerAccess_write {s : State} {link addr : Nat} {data : List Nat} {c : Ctx}
    (h : s.peerXlat link addr data.length true = some c) : exec (.peerAccessReceive link true addr data) s =
      .next (s.hwStore c addr (data.map (BitVec.ofNat 8)) 1).1 := by
  show execPeerAccessReceive link true addr data s = _
  unfold execPeerAccessReceive
  rw [h]
  rfl

/-- A read by a peer is answered with the bytes. -/
theorem peerAccess_read {s u : State} {link addr : Nat} {data : List Nat} {c : Ctx} {bs : List Byte}
    (h : s.peerXlat link addr data.length false = some c) (hl : s.hwLoad c addr data.length 0 = (u, .ok bs)) :
    exec (.peerAccessReceive link false addr data) s =
      .next { u with outbox := u.outbox ++ [.peer link false addr bs 0] } := by
  show execPeerAccessReceive link false addr data s = _
  unfold execPeerAccessReceive
  rw [h]
  dsimp only
  rw [if_neg (by decide), hl]

/-- An access that stage 2 and the extents do not lead to a page of kind 0 is refused. -/
theorem peerAccess_refused {s : State} {link addr : Nat} {write : Bool} {data : List Nat}
    (h : s.peerXlat link addr data.length write = none) : exec (.peerAccessReceive link write addr data) s =
      .next { s with outbox := s.outbox ++ [.peerRefused link] } := by
  show execPeerAccessReceive link write addr data s = _
  unfold execPeerAccessReceive
  rw [h]

/-! ### Attestation (19 R366 to R368) -/

theorem shown_pgen (t : Tenant) : t.shown.pgen = t.pgen := by
  unfold Tenant.shown
  split <;> rfl

/-- The shape report begins with its format and names the generation of its tenant (19 R367). -/
theorem shapeReport_head {s : State} {l n : Nat} (h : (s.lease? l).isSome) :
    (s.shapeReport l n).getD 0 0 = 1 ∧ (s.shapeReport l n).getD 2 0 = (s.tenantOf (tkey l n)).pgen := by
  obtain ⟨x, hx⟩ := Option.isSome_iff_exists.mp h
  unfold State.shapeReport
  rw [hx]
  exact ⟨rfl, shown_pgen _⟩

/-- The answer to a TDISP request: a new interface state with success, the old one without. -/
theorem tdispAnswer_does (s : State) (port vfn : Nat) (ok : Bool) (new : Nat) :
    (s.tdispAnswer port vfn ok new).mem = s.mem ∧
      (s.tdispAnswer port vfn ok new).outbox = s.outbox ++ [.tdisp port vfn ok] ∧
      (s.tdispAnswer port vfn ok new).tdispOf port vfn = if ok then new else s.tdispOf port vfn := by
  cases ok with
  | true => exact ⟨rfl, rfl, congrArg Function.tdisp (assocGet_assocSet_self ..)⟩
  | false => exact ⟨rfl, rfl, rfl⟩

/-- A measurement of an index is answered with its words and a signature (19 R366). -/
theorem spdm_digest (s : State) (port vfn : Nat) {i : Nat} (h1 : 1 ≤ i) (h3 : i ≤ 3) : ∃ ws,
    exec (.spdmGetMeasurements port vfn i) s =
      .next { s with outbox := s.outbox ++ [.spdm port vfn ws (s.signature port)] } ∧ ws.length = 16 := by
  show ∃ ws, execSpdmGetMeasurements port vfn i s = _ ∧ _
  unfold execSpdmGetMeasurements
  dsimp only
  rw [if_pos (⟨h1, h3⟩ : 1 ≤ i ∧ i ≤ 3)]
  exact ⟨_, rfl, (List.length_map _).trans List.length_range⟩

theorem spdm_report {s : State} {port vfn l n : Nat} (h : s.functionOf port vfn = some (.tenant l n)) :
    exec (.spdmGetMeasurements port vfn 0x40) s =
      .next { s with outbox := s.outbox ++ [.spdm port vfn (s.shapeReport l n) (s.signature port)] } := by
  show execSpdmGetMeasurements port vfn 0x40 s = _
  unfold execSpdmGetMeasurements
  dsimp only
  rw [if_neg (by decide : ¬ (1 ≤ 0x40 ∧ 0x40 ≤ 3)), if_pos rfl, h]

theorem spdm_unlisted (s : State) (port vfn : Nat) {i : Nat} (h : i = 0 ∨ (3 < i ∧ i ≠ 0x40)) :
    exec (.spdmGetMeasurements port vfn i) s = .next s := by
  show execSpdmGetMeasurements port vfn i s = _
  unfold execSpdmGetMeasurements
  dsimp only
  rw [if_neg (by omega : ¬ (1 ≤ i ∧ i ≤ 3)), if_neg (by omega : ¬ i = 0x40)]

/-- A lock of a function whose tenant is in state 2 to 5 succeeds from the unlocked state alone (19 R368). -/
theorem exec_tdispLock {s : State} {port vfn l n : Nat} (h : s.functionOf port vfn = some (.tenant l n))
    (h2 : 2 ≤ (s.tenantOf (tkey l n)).state) (h5 : (s.tenantOf (tkey l n)).state ≤ 5) :
    exec (.tdispLockInterface port vfn) s = .next (s.tdispAnswer port vfn (s.tdispOf port vfn == 0) 1) := by
  show execTdispLockInterface port vfn s = _
  unfold execTdispLockInterface
  rw [h]
  dsimp only
  rw [decide_eq_true (⟨h2, h5⟩ : _ ∧ _), Bool.true_and]

/-! ### The steps -/

/-- Settles O51: each step by the rule for its operation. -/
theorem platformSteps : Obligations.PlatformSteps := by
  unfold Obligations.PlatformSteps
  intro s
  refine ⟨?refused, ?created, ?leases, ?power, ?links, ?peerLost, ?peerAccess, ?digests, ?report, ?unlisted, ?tdisp⟩
  case refused =>
    intro lease spec hext
    rw [← extentsOk_iff, Bool.not_eq_true] at hext
    exact congrArg Host.Outcome.next (if_pos (.inr (.inr (by rw [hext]; rfl))))
  case created =>
    intro lease spec hn hfree hcount hext
    have run : ¬ ((s.lease? lease).isSome ∨ 16 ≤ lease ∨ !extentsOk spec.extents) := by
      rw [hfree, (extentsOk_iff _).mpr ⟨hcount, hext⟩]
      simp [hn]
    exact ⟨_, _, congrArg Host.Outcome.next (if_neg run), rfl, assocGet?_assocSet_self .., rfl, rfl, rfl, rfl, rfl, rfl, rfl,
      rfl, fun k hk => assocGet?_assocSet_ne _ _ hk⟩
  case leases =>
    intro lease l hl
    obtain ⟨t, run, mem, lease⟩ := packetTagDrop_lease hl
    exact ⟨latmatSweep_lease hl, t, _, run, mem, lease, countHealth_health l 4⟩
  case power =>
    intro w c
    refine ⟨_, rfl, rfl, fun k l hl => ?_⟩
    obtain ⟨x, -, rfl⟩ := Option.map_eq_some_iff.mp ((powerSample_lease s w c k).symm.trans hl)
    exact sampled_health x w c
  case links =>
    intro link p hlive
    refine ⟨?ack, fun hfew => ?replay, fun hmany => ?dies, _, rfl, killLink_does s link⟩
    case ack =>
      exact ⟨_, congrArg Host.Outcome.next (if_neg (by rw [hlive]; decide)), rfl, _, assocGet?_assocSet_self .., rfl, rfl, rfl⟩
    case replay =>
      refine ⟨_, (exec_flitReplay hlive).trans (congrArg Host.Outcome.next (if_neg (Nat.not_le_of_lt hfew))),
        replayed_mem .., (replayed_linkDead ..).trans hlive, replayed_outbox .., s.failedLink link, ?_, rfl, rfl⟩
      rw [replayed_links]
      exact assocGet?_assocSet_self ..
    case dies =>
      obtain ⟨mem, dead⟩ := killLink_does (s.replayed link) link
      exact ⟨_, (exec_flitReplay hlive).trans (congrArg Host.Outcome.next (if_pos hmany)), mem.trans (replayed_mem ..), dead⟩
  case peerLost =>
    intro link
    obtain ⟨t, run, mem, links⟩ := exec_peerLinkLost s link
    exact ⟨t, run, mem, _, by rw [links]; exact assocGet?_assocSet_self .., rfl⟩
  case peerAccess =>
    intro link write addr data
    refine ⟨fun h => ⟨_, peerAccess_refused h, rfl⟩, fun c h => ⟨?stores, ?loads⟩⟩
    case stores =>
      rintro rfl u r hstore
      rw [peerAccess_write h, hstore]
    case loads =>
      rintro rfl u bs hload
      exact peerAccess_read h hload
  case digests =>
    intro port vfn i h1 h3
    obtain ⟨ws, run, length⟩ := spdm_digest s port vfn h1 h3
    exact ⟨_, ws, run, rfl, length⟩
  case report =>
    intro port vfn l n hf hl
    exact ⟨_, _, spdm_report hf, rfl, shapeReport_head hl⟩
  case unlisted => exact fun port vfn i h => spdm_unlisted s port vfn h
  case tdisp =>
    intro port vfn
    have answers : ∀ {i : Instr} {ok : Bool} {new : Nat}, exec i s = .next (s.tdispAnswer port vfn ok new) →
        ∃ t, exec i s = .next t ∧ t.mem = s.mem ∧ t.outbox = s.outbox ++ [.tdisp port vfn ok] ∧
          t.tdispOf port vfn = if ok then new else s.tdispOf port vfn :=
      fun run => ⟨_, run, tdispAnswer_does ..⟩
    refine ⟨fun l n hf h2 h5 => ⟨fun h0 => ?_, fun h0 => ?_⟩, fun h1 => ?_, fun h1 => ?_⟩
    · exact answers (ok := true) (by rw [exec_tdispLock hf h2 h5, h0]; rfl)
    · exact answers (ok := false) (by rw [exec_tdispLock hf h2 h5, beq_false_of_ne h0])
    · exact answers (ok := true) (congrArg (fun b => Host.Outcome.next (s.tdispAnswer port vfn b 2)) (by rw [h1]; rfl))
    · exact answers (ok := false) (congrArg (fun b => Host.Outcome.next (s.tdispAnswer port vfn b 2)) (beq_false_of_ne h1))

end Sys2Proof.Machine
end

section
/-! The steps of a gang: which lanes a slice chooses and which slices meet, the forming of a cohort, the end of parks, the
writing of results, store-fault records and swaps (04 R75, R76; 05 R85, R86; 06 R109 to R114; 17 R335, R336), and O47. -/
namespace Sys2Proof.Machine

/-! ### The head of a slice (06 R109, R110) -/

theorem minBy_least {α : Type} {key : α → Nat} {xs : List α} {y : α} (h : minBy key xs = some y) :
    y ∈ xs ∧ ∀ x ∈ xs, key y ≤ key x := by
  induction xs generalizing y with
  | nil => cases h
  | cons x xs ih =>
    unfold minBy at h
    split at h
    · rename_i none
      cases h
      cases xs with
      | nil => simp
      | cons z zs =>
        unfold minBy at none
        split at none
        · cases none
        · split at none <;> cases none
    · rename_i z hz
      obtain ⟨mem, least⟩ := ih hz
      split at h
      · cases h
        exact ⟨List.mem_cons_of_mem _ mem, List.forall_mem_cons.mpr ⟨by omega, least⟩⟩
      · cases h
        exact ⟨List.mem_cons_self, List.forall_mem_cons.mpr ⟨le_rfl, fun w hw => by have := least w hw; omega⟩⟩

/-- In a slice without released lanes, one of which is not deferred, the lanes of the head are of the slice, and stand at the
lowest counter of the lanes that are not deferred. -/
theorem headOf_awake {g : Gang} {k : Nat} {h : Head} {ls : List Nat} (hh : g.headOf k = some (h, ls))
    (hrel : ∀ l ∈ g.sliceLanes k, (g.lane l).released = false)
    (hawake : ∃ l ∈ g.sliceLanes k, (g.lane l).deferred = false) : ∀ l ∈ ls, l ∈ g.sliceLanes k ∧
      ∀ j ∈ g.sliceLanes k, (g.lane j).deferred = false → (g.lane l).counter ≤ (g.lane j).counter := by
  have noneReleased : (g.sliceLanes k).filter (fun l => (g.lane l).released) = [] :=
    List.filter_eq_nil_iff.mpr (fun l hl => by rw [hrel l hl]; decide)
  obtain ⟨w, hw, hdef⟩ := hawake
  have someAwake : ((g.sliceLanes k).filter (fun l => !(g.lane l).deferred)).isEmpty = false :=
    List.isEmpty_eq_false_iff_exists_mem.mpr ⟨w, List.mem_filter.mpr ⟨hw, by rw [hdef]; rfl⟩⟩
  unfold Gang.headOf at hh
  simp only [noneReleased, someAwake, List.isEmpty_nil, Bool.not_true, Bool.not_false, Bool.false_eq_true, if_false,
    if_true] at hh
  split at hh
  · cases hh
  · rename_i low hlow
    obtain ⟨-, least⟩ := minBy_least hlow
    split at hh
    · cases hh
    · cases hh
      intro l hl
      obtain ⟨hslice, hcounter⟩ := List.mem_filter.mp (List.mem_filter.mp hl).1
      refine ⟨hslice, fun j hj hjd => ?_⟩
      rw [eq_of_beq hcounter]
      exact least j (List.mem_filter.mpr ⟨hj, by rw [hjd]; rfl⟩)

/-! ### The slices that meet (06 R110) -/

theorem mem_meeting {s : State} {g : Gang} {k j : Nat} {h : Head} : j ∈ s.meeting g k h ↔
    (j < g.width / 8 ∧ g.sliceFree j = true ∧ ∃ ms, g.headOf j = some (h, ms)) ∧
      (j = k ∨ (g.converged k = true ∧ g.converged j = true) ∨ s.contended g = false ∨ s.pick (100 + j) 2 = 0) := by
  have head : (g.headOf j).any (fun p => p.1 == h) = true ↔ ∃ ms, g.headOf j = some (h, ms) := by
    cases g.headOf j with
    | none => simp
    | some p => simp [Prod.ext_iff]
  unfold State.meeting Gang.sliceMates
  simp only [List.mem_filter, List.mem_range, Bool.and_eq_true, head, Bool.or_eq_true, beq_iff_eq, Bool.not_eq_true', or_assoc]

/-- A slice whose head takes every eligible lane of it is converged. -/
theorem converged_of_head {g : Gang} {k : Nat} {h : Head} (hh : g.headOf k = some (h, g.sliceLanes k)) :
    g.converged k = true := by simp [Gang.converged, hh]

/-- A gang that has the cohorts of its core to itself is not contended (06 R111). -/
theorem not_contended {s : State} {g : Gang} (h : ∀ p ∈ s.gangs, p.2.core = g.core → p.2.cohorts ≠ [] →
    p.2.team = g.team ∧ p.2.g = g.g) : s.contended g = false := by
  unfold State.contended
  refine List.any_eq_false.mpr (fun p hp => ?_)
  simp only [Bool.and_eq_true, Bool.or_eq_true, beq_iff_eq, bne_iff_ne, Bool.not_eq_true', List.isEmpty_eq_false_iff]
  rintro ⟨⟨core, other⟩, cohorts⟩
  obtain ⟨team, no⟩ := h p hp core cohorts
  exact other.elim (fun o => o team) (fun o => o no)

/-! ### Fetch (05 R89) -/

theorem walked_gangs (s : State) (c : Ctx) (n : Nat) (rs : List WalkRead) : (s.walked c n rs).gangs = s.gangs := by
  unfold State.walked
  dsimp only
  have reads := foldl_reads State.gangs (f := fun s (r : WalkRead) =>
      if r.cached || s.inL2 (lineOf r.addr) then s
      else s.touchNow (s.homeOf c { pa := r.addr, attr := r.attr.getD 0, tabled := r.attr.isSome }) (lineOf r.addr)
        (bit (r.attr.getD 0) 15) false) (fun s r => by
      split
      · rfl
      · exact (touchNow_does s _ _ _ _).1.gangs) rs s
  split
  · exact reads
  · split
    · exact reads
    · exact reads

theorem tally_rest (s : State) (part i n : Nat) : s.tally part i n = { s with tenants := (s.tally part i n).tenants } :=
  onTenant_rest s part _

theorem hwPut_gangs (s : State) (a : Nat) (bs : List Byte) : (s.hwPut a bs).gangs = s.gangs := by
  unfold State.hwPut
  dsimp only
  split
  · rfl
  · split <;> rfl

theorem orEntry_gangs (s : State) (a e b : Nat) : (s.orEntry a e b).gangs = s.gangs := by
  unfold State.orEntry
  dsimp only
  split
  · exact hwPut_gangs ..
  · rfl

theorem markLeaves_gangs (s : State) (x : Leaves) (write : Bool) : (s.markLeaves x write).gangs = s.gangs := by
  unfold State.markLeaves
  dsimp only
  split <;> split <;> simp only [orEntry_gangs]

theorem walkNow_gangs (s : State) (c : Ctx) (va acc : Nat) (peerOk : Bool) :
    (s.walkNow c va acc peerOk).1.gangs = s.gangs := by
  unfold State.walkNow
  dsimp only
  split
  · split
    · rfl
    · rw [tally_rest]
      exact walked_gangs ..
  · rfl

theorem xlateWalk_gangs (s : State) (c : Ctx) (n va acc : Nat) (peerOk : Bool) :
    (s.xlateWalk c n va acc peerOk).1.gangs = s.gangs := by
  have walk := walkNow_gangs s c va acc peerOk
  unfold State.xlateWalk
  generalize s.walkNow c va acc peerOk = r at walk ⊢
  obtain ⟨u, e | x⟩ := r
  · exact walk
  · exact (markLeaves_gangs u _ _).trans walk

/-- A translation changes no gang. -/
theorem xlate_gangs (s : State) (tag : Nat) (c : Ctx) (va acc : Nat) (peerOk : Bool) :
    (s.xlate tag c va acc peerOk).1.gangs = s.gangs := by
  unfold State.xlate
  split
  · rfl
  · split
    · rfl
    · dsimp only
      split
      · split
        · exact xlateWalk_gangs ..
        · rfl
      · exact xlateWalk_gangs ..

/-- The lines of a fetch come into their slices without a change of gangs. -/
theorem fetchTouch_gangs {s t : State} {c : Ctx} {x : Xlat} {n : Nat} (h : s.fetchTouch c x n = some t) :
    t.gangs = s.gangs := by
  have touched : ∀ (lines : List Nat) (r : Option State), lines.foldl (fun (r : Option State) line => r.bind (fun s =>
      if s.inL2 line || s.tokenTurn none (64 * line) then
        s.touchL2 (s.homeOf c { x with pa := 64 * line }) line x.fixed false
      else none)) r = some t → ∃ u, r = some u ∧ t.gangs = u.gangs := by
    intro lines
    induction lines with
    | nil => exact fun r hr => ⟨t, hr, rfl⟩
    | cons line lines ih =>
      intro r hr
      obtain ⟨v, hv, e⟩ := ih _ hr
      obtain ⟨u, rfl, hu⟩ := Option.bind_eq_some_iff.mp hv
      split at hu
      · exact ⟨u, rfl, e.trans (touchL2_does hu).1.gangs⟩
      · cases hu
  unfold State.fetchTouch at h
  split at h
  · cases h
    rfl
  · obtain ⟨u, hu, e⟩ := touched _ _ h
    cases hu
    exact e

theorem word_state (r : Fetched) (team pa : Nat) (zero : Bool) : (r.word team pa zero).s = r.s := by
  unfold Fetched.word
  dsimp only
  split <;> rfl

/-- The page on which the words of a clause go on, where they cross into another, with the index of the first word there. -/
def State.nextPage (s : State) (l : Nat) (c : Ctx) (addr n : Nat) (x : Xlat) : State × Except FetchFault (Nat × Xlat) :=
  match crossWord addr n with
  | none => (s, .ok (n, x))
  | some i =>
    match s.xlate (64 + l) c (addr + 4 + 4 * i) 2 false with
    | (s, .error f) => (s, .error { cause := f.cause, tinfo := f.synd, idx := i, tword := 0, taddr := addr + 4 + 4 * i })
    | (s, .ok y) => (s, .ok (i, y))

theorem nextPage_gangs (s : State) (l : Nat) (c : Ctx) (addr n : Nat) (x : Xlat) :
    (s.nextPage l c addr n x).1.gangs = s.gangs := by
  unfold State.nextPage
  split
  · rfl
  · rename_i i _
    have page := xlate_gangs s (64 + l) c (addr + 4 + 4 * i) 2 false
    generalize s.xlate (64 + l) c (addr + 4 + 4 * i) 2 false = r at page ⊢
    obtain ⟨u, e | y⟩ := r <;> exact page

/-- The fetch of a clause changes no gang. -/
theorem fetchClause_gangs (s : State) (team l : Nat) (c : Ctx) (addr : Nat) :
    (s.fetchClause team l c addr).1.gangs = s.gangs := by
  unfold State.fetchClause
  split
  · rfl
  · have header := xlate_gangs s l c addr 2 false
    generalize s.xlate l c addr 2 false = r at header ⊢
    obtain ⟨u, e | x⟩ := r
    · exact header
    · dsimp only at header ⊢
      split
      · exact header
      · rename_i v hv
        have touched := (fetchTouch_gangs hv).trans header
        rw [word_state]
        split
        · exact touched
        · generalize (Fetched.word { s := v } team x.pa (v.reads0 x)).words.headD 0 = h
          have page := (nextPage_gangs v l c addr (bits h 3 0) x).trans touched
          split
          · rename_i w f hw
            rwa [show v.nextPage l c addr (bits h 3 0) x = _ from hw] at page
          · rename_i w i y hw
            rw [show v.nextPage l c addr (bits h 3 0) x = _ from hw] at page
            split
            · exact page
            · rename_i z hz
              obtain ⟨z', first, second⟩ := Option.bind_eq_some_iff.mp hz
              have both : z.gangs = s.gangs := by
                have one := (fetchTouch_gangs first).trans page
                split at second
                · exact (fetchTouch_gangs second).trans one
                · cases second
                  exact one
              split <;> exact (congrArg State.gangs (foldl_reads Fetched.s (fun r j => word_state ..) _ _)).trans both

/-! ### The forming of a cohort (06 R110) -/

/-- A gang at a selection point keeps its team, its core and the registers of its lanes. -/
theorem clearDeferred_keeps (g : Gang) (ks : List Nat) : (g.clearDeferred ks).team = g.team ∧
    (g.clearDeferred ks).core = g.core ∧ ∀ l, ((g.clearDeferred ks).lane l).regs = (g.lane l).regs := by
  have kept := foldl_reads (fun g : Gang => (g.team, g.core, fun l => (g.lane l).regs)) (f := fun g k =>
    if (g.sliceLanes k).all (fun l => (g.lane l).deferred) then
      g.mapLanes (0xFF#64 <<< (8 * k)) (fun _ x => { x with deferred := false })
    else g) (fun g k => by
      split
      · refine Prod.ext rfl (Prod.ext rfl (funext fun l => ?_))
        dsimp only
        rw [mapLanes_lane]
        split <;> rfl
      · rfl) ks g
  obtain ⟨team, rest⟩ := Prod.mk.inj kept
  obtain ⟨core, regs⟩ := Prod.mk.inj rest
  exact ⟨team, core, congrFun regs⟩

/-- Without pre-wait bits a clause waits for nothing (05 R85). -/
theorem prewaitMet_none {s : State} {gid : Nat} {g : Gang} {hd : Nat} (h : hd / 2 ^ 22 % 2 ^ 4 = 0) :
    s.prewaitMet gid g (prewaitBits hd) = true := by
  have bits0 : prewaitBits hd = 0 := by
    unfold prewaitBits bit
    have b22 : hd / 2 ^ 22 % 2 = 0 := by omega
    have b23 : hd / 2 ^ 23 % 2 = 0 := by omega
    have b24 : hd / 2 ^ 24 % 2 = 0 := by omega
    have b25 : hd / 2 ^ 25 % 2 = 0 := by omega
    rw [b22, b23, b24, b25]
    rfl
  rw [bits0]
  rfl

/-- A gang changed, seen from its number and from memory. -/
theorem onGang_does {s : State} {k : Nat} {g : Gang} (h : s.gang? k = some g) (f : Gang → Gang) :
    (s.onGang k f).mem = s.mem ∧ (s.onGang k f).gang? k = some (f g) := by
  rw [onGang_gang, if_pos rfl, h, onGang_rest]
  exact ⟨rfl, rfl⟩

/-- A gang changed, an identifier taken and the gang changed again. -/
theorem onGang_twice {s : State} {k : Nat} {g : Gang} (h : s.gang? k = some g) (n : Nat) (f f' : Gang → Gang) :
    (State.onGang { s.onGang k f with nextId := n } k f').mem = s.mem ∧
      (State.onGang { s.onGang k f with nextId := n } k f').gang? k = some (f' (f g)) := by
  obtain ⟨mem, first⟩ := onGang_does h f
  obtain ⟨mem', second⟩ := onGang_does (s := { s.onGang k f with nextId := n }) first f'
  exact ⟨mem'.trans mem, second⟩

/-- What a cohort is that forms at a counter of a clause: its lanes, its clause as fetched and its word. -/
structure Formed (co : Cohort) (m : Mask) (pc : Pc) (hd : Nat) (ws : List Nat) : Prop where
  mask : co.mask = m
  hdr : co.hdr = pc.addr
  count : co.count = hd % 16
  words : co.words = ws
  idx : co.idx = if pc.idx = 15 then 0 else pc.idx
  hold : co.hold = false
  span : co.span = m

/-- The lanes of a mask whose clause is fetched and need not wait begin as a cohort. -/
theorem startCohort_forms {s u : State} {gid : Nat} {g : Gang} {m : Mask} {pc : Pc} {rep hd : Nat} {ws : List Nat}
    {tm : Team} (hg : s.gang? gid = some g) (ht : s.team? g.team = some tm)
    (hf : (s.beginTeam g.team).fetchClause g.team (lowBit 64 m.toNat)
      (tm.ctx (g.lane (lowBit 64 m.toNat)).level g.core) pc.addr = (u, some (.ok (hd, ws))))
    (hidx : (if pc.idx = 15 then 0 else pc.idx) < hd % 16)
    (hwait : (if pc.idx = 15 then 0 else pc.idx) ≠ 0 ∨ hd / 2 ^ 22 % 2 ^ 4 = 0) :
    (s.startCohort gid g m pc rep).mem = u.mem ∧ ∃ h, (s.startCohort gid g m pc rep).gang? gid = some h ∧
      (∀ l, (h.lane l).regs = (g.lane l).regs) ∧
      ∃ cid co, assocGet? h.cohorts cid = some co ∧ Formed co m pc hd ws := by
  have gang : u.gang? gid = some g := by
    have kept := fetchClause_gangs (s.beginTeam g.team) g.team (lowBit 64 m.toNat)
      (tm.ctx (g.lane (lowBit 64 m.toNat)).level g.core) pc.addr
    rw [hf] at kept
    unfold State.beginTeam at kept
    rw [onTeam_eq s _ _ ht] at kept
    unfold State.gang? at hg ⊢
    rw [kept]
    exact hg
  have count : bits hd 3 0 = hd % 16 := by simp [bits]
  unfold State.startCohort
  simp only [ht, hf]
  rw [count, if_neg (by omega), if_neg]
  · refine ⟨(onGang_twice gang _ _ _).1, _, (onGang_twice gang _ _ _).2, fun l => ?_, _, _, assocGet?_assocSet_self ..,
      rfl, rfl, rfl, rfl, rfl, rfl, rfl⟩
    refine (congrArg Lane.regs (mapLanes_lane g m _ l)).trans ?_
    split <;> rfl
  · rintro ⟨h0, unmet⟩
    rw [prewaitMet_none (hwait.resolve_left (fun n => n h0))] at unmet
    cases unmet

/-! ### The end of parks (05 R85, R86) -/

/-- A gang in which one park is over: the lanes of that group are eligible where they stand. -/
def Gang.parkEnded (g : Gang) (w : Nat) (x : Wait) (h : Gang) : Prop :=
  assocGet? h.waits w = none ∧ (∀ l, (h.lane l).regs = (g.lane l).regs) ∧ ∀ l, l < g.lanes.length →
    (h.lane l).pc = (g.lane l).pc ∧ (h.lane l).parked = if x.mask.getLsbD l then false else (g.lane l).parked

/-- A gang without a group that goes on at the counters it holds. -/
def State.resumed (s : State) (g : Gang) (w : Nat) (x : Wait) : Gang :=
  Gang.mapLanes { g with
    waits := assocErase g.waits w
    readySince := if g.idle then s.enabled g.core else g.readySince } x.mask (fun _ y => { y with parked := false, sw := false })

theorem unpark_resumes {s : State} {gid w : Nat} {g : Gang} {x : Wait} (hg : s.gang? gid = some g)
    (hw : assocGet? g.waits w = some x) : s.unpark gid w false = s.setGang gid (s.resumed g w x) := by
  unfold State.unpark
  simp only [hg, hw]
  rfl

theorem resumed_parkEnded (s : State) (g : Gang) (w : Nat) (x : Wait) : g.parkEnded w x (s.resumed g w x) := by
  have lane : ∀ l, (s.resumed g w x).lane l = if l < g.lanes.length ∧ x.mask.getLsbD l = true then
      { g.lane l with parked := false, sw := false } else g.lane l := fun l => mapLanes_lane ..
  refine ⟨assocGet?_assocErase_self .., fun l => ?_, fun l hl => ?_⟩
  · rw [lane]
    split <;> rfl
  · rw [lane]
    cases x.mask.getLsbD l <;> simp [hl]

theorem prewaitRelease_ends {s : State} {gid w b : Nat} {g : Gang} {x : Wait} (hg : s.gang? gid = some g)
    (hw : assocGet? g.waits w = some x) (hk : x.kind = .prewait b) (hmet : s.prewaitMet gid g b = true) :
    exec (.prewaitRelease gid w) s = .next (s.setGang gid (s.resumed g w x)) := by
  have wait : s.wait? gid w = some x := by simp [State.wait?, hg, hw]
  show execPrewaitRelease gid w s = _
  unfold execPrewaitRelease
  simp only [wait, hg, hk, hmet, if_true, unpark_resumes hg hw]

/-- Where no record is due, none is delivered. -/
theorem deliverEach_none {s : State} {gid : Nat} {m : Mask} (h : s.dueRecords gid m false = []) :
    s.deliverEach gid m = s := by
  unfold State.deliverEach State.dueLanes
  rw [h]
  cases s.gang? gid <;> rfl

theorem switchParkEnd_ends {s : State} {gid w : Nat} {g : Gang} {x : Wait} (hg : s.gang? gid = some g)
    (hw : assocGet? g.waits w = some x) (hk : x.kind = .switchPark) (hres : g.results = [])
    (hdue : s.dueRecords gid x.mask false = []) :
    exec (.switchParkEnd gid w) s = .next (s.setGang gid (s.resumed g w x)) := by
  have wait : s.wait? gid w = some x := by simp [State.wait?, hg, hw]
  have due : (s.setGang gid (s.resumed g w x)).dueRecords gid x.mask false = [] := by
    unfold State.dueRecords at hdue ⊢
    rw [hg] at hdue
    rw [setGang_gang, if_pos rfl]
    exact hdue
  show execSwitchParkEnd gid w s = _
  unfold execSwitchParkEnd
  simp only [wait, hg, hk, hres, List.isEmpty_nil, beq_self_eq_true, Bool.and_self, if_true, unpark_resumes hg hw,
    deliverEach_none due]

/-! ### Results (06 R114, 07 R143) -/

theorem exec_resultWrite {s : State} {gid r : Nat} {g : Gang} {p : Pending} {v : Word} (hg : s.gang? gid = some g)
    (hr : assocGet? g.results r = some p) (hv : p.val = some v) :
    exec (.resultWrite gid r) s = .next (s.setGang gid (g.writeBoth r p v)) := by
  show execResultWrite gid r s = _
  unfold execResultWrite
  rw [onGang_eq s gid _ hg]
  simp only [hr, hv]

theorem maskOf_single {l : Nat} (hl : l < 64) (i : Nat) : (maskOf [l]).getLsbD i = true ↔ i = l := by
  rw [maskOf_getLsbD, decide_eq_true_eq, List.mem_singleton]
  exact ⟨fun h => h.2, fun h => ⟨h ▸ hl, h⟩⟩

section
variable {g : Gang} {r : Nat} {p : Pending} {v : Word}

/-- A result reaches the lane that it is for alone. -/
theorem writeResult_lane (hlen : p.lane < g.lanes.length) (h64 : p.lane < 64) (hlive : (g.lane p.lane).live = true) (l : Nat) :
    (g.writeResult r p v).lane l = if l = p.lane then (g.lane l).write g.nregs p.reg p.seq v else g.lane l := by
  refine (mapLanes_lane g _ _ l).trans ?_
  by_cases e : l = p.lane
  · rw [e, if_pos ⟨hlen, (maskOf_single h64 _).mpr rfl⟩, if_pos rfl, if_pos hlive]
  · rw [if_neg e, if_neg (fun h => e ((maskOf_single h64 _).mp h.2))]

theorem writeResult_results : assocGet? (g.writeResult r p v).results r = none := assocGet?_assocErase_self ..

end

/-- A result that no later write of its register has overtaken is written. -/
theorem write_last {x : Lane} {nregs r seq : Nat} (hr : r < 8 * nregs) (hs : assocGet 0 x.wseq r ≤ seq) (v : Word) :
    x.write nregs r seq v = { x with regs := assocSet x.regs r v, wseq := assocSet x.wseq r seq } := if_pos ⟨hr, hs⟩

/-- A result that a later write has overtaken is dropped. -/
theorem write_overtaken {x : Lane} {nregs r seq : Nat} (hs : seq < assocGet 0 x.wseq r) (v : Word) :
    x.write nregs r seq v = x := if_neg (fun h => Nat.not_le_of_lt hs h.2)

/-- A register that a lane lists reads as listed. -/
theorem reg_listed {t : State} {h : Gang} {l r : Nat} {v : Word} (hr : r < 8 * h.nregs)
    (hv : assocGet? (h.lane l).regs r = some v) : t.reg h l r = v := by
  unfold State.reg
  rw [if_pos hr, hv]

/-- The mate of a result is another one, of its lane and its word. -/
theorem pairMate_some {g : Gang} {r j : Nat} {p q : Pending} (h : g.pairMate r p = some (j, q)) :
    j ≠ r ∧ q.lane = p.lane ∧ q.seq = p.seq := by
  unfold Gang.pairMate at h
  split at h
  · have found := List.find?_some h
    simp only [Bool.and_eq_true, bne_iff_ne, beq_iff_eq] at found
    obtain ⟨⟨⟨hj, -⟩, hl⟩, hs⟩ := found
    exact ⟨hj, hl, hs⟩
  · cases h

section
variable {g : Gang} {r : Nat} {p : Pending} {v : Word} (hlen : p.lane < g.lanes.length) (h64 : p.lane < 64)
  (hlive : (g.lane p.lane).live = true) (hreg : p.reg < 8 * g.nregs)
include hlen h64 hlive

theorem writeResult_others (l : Nat) (hl : l ≠ p.lane) : (g.writeResult r p v).lane l = g.lane l :=
  (writeResult_lane hlen h64 hlive l).trans (if_neg hl)

/-- An overtaken result leaves every lane as it is. -/
theorem writeResult_overtaken (hs : p.seq < assocGet 0 (g.lane p.lane).wseq p.reg) (l : Nat) :
    (g.writeResult r p v).lane l = g.lane l := by
  rw [writeResult_lane hlen h64 hlive]
  split
  · rename_i e
    rw [e]
    exact write_overtaken hs v
  · rfl

include hreg

/-- The lane of the last result of a register. -/
theorem writeResult_last (hs : assocGet 0 (g.lane p.lane).wseq p.reg ≤ p.seq) : (g.writeResult r p v).lane p.lane =
    { g.lane p.lane with
      regs := assocSet (g.lane p.lane).regs p.reg v, wseq := assocSet (g.lane p.lane).wseq p.reg p.seq } := by
  rw [writeResult_lane hlen h64 hlive, if_pos rfl, write_last hreg hs]

/-- The last result of a register is in it, and no other register has changed. -/
theorem writeResult_writes (hs : assocGet 0 (g.lane p.lane).wseq p.reg ≤ p.seq) (t : State) :
    t.reg (g.writeResult r p v) p.lane p.reg = v ∧
      RegsKept (g.lane p.lane) ((g.writeResult r p v).lane p.lane) [p.reg] := by
  have lane := writeResult_last (r := r) (v := v) hlen h64 hlive hreg hs
  refine ⟨reg_listed hreg (by rw [lane]; exact assocGet?_assocSet_self ..), fun i hi => ?_⟩
  rw [lane]
  exact assocGet?_assocSet_ne _ _ (fun e => hi (e ▸ List.mem_singleton_self _))

/-- Both words of a pair, each the last result of its register, are in their registers, and no other register has changed. -/
theorem writePair_writes {j : Nat} {q : Pending} {w : Word} (hlane : q.lane = p.lane) (hne : q.reg ≠ p.reg)
    (hqreg : q.reg < 8 * g.nregs) (hp : assocGet 0 (g.lane p.lane).wseq p.reg ≤ p.seq)
    (hq : assocGet 0 (g.lane p.lane).wseq q.reg ≤ q.seq) (t : State) :
    let h := (g.writeResult r p v).writeResult j q w
    t.reg h p.lane p.reg = v ∧ t.reg h p.lane q.reg = w ∧
      RegsKept (g.lane p.lane) (h.lane p.lane) [p.reg, q.reg] ∧ ∀ l, l ≠ p.lane → h.lane l = g.lane l := by
  have first := writeResult_last (r := r) (v := v) hlen h64 hlive hreg hp
  have len : q.lane < (g.writeResult r p v).lanes.length := by
    rw [hlane]
    exact (mapLanesFrom_length ..).symm ▸ hlen
  have q64 : q.lane < 64 := hlane ▸ h64
  have live : ((g.writeResult r p v).lane q.lane).live = true := by rw [hlane, first]; exact hlive
  have second := writeResult_last (r := j) (v := w) len q64 live hqreg (by
    rw [hlane, first]
    exact (assocGet_assocSet_ne _ _ _ hne).symm ▸ hq)
  rw [hlane, first] at second
  refine ⟨reg_listed hreg ?_, reg_listed hqreg ?_, fun i hi => ?_, fun l hl => ?_⟩
  · rw [second]
    exact (assocGet?_assocSet_ne _ _ hne.symm).trans (assocGet?_assocSet_self ..)
  · rw [second]
    exact assocGet?_assocSet_self ..
  · rw [List.mem_pair, not_or] at hi
    rw [second]
    exact (assocGet?_assocSet_ne _ _ hi.2).trans (assocGet?_assocSet_ne _ _ hi.1)
  · exact (writeResult_others len q64 live l (hlane ▸ hl)).trans (writeResult_others hlen h64 hlive l hl)

end

/-! ### Store-fault records (17 R334 to R336) -/

/-- A record that comes before another in a queue, where the two are of one word: that of the higher lane. -/
def SfRec.higher (r y : SfRec) : Prop := y.gang = r.gang ∧ y.seq = r.seq ∧ r.lane < y.lane

/-- The place of a record: behind every record that is not of a higher lane of its word, up to the first that is. -/
theorem putRecord_splits (r : SfRec) (q : List SfRec) : ∃ as bs, q = as ++ bs ∧ putRecord r q = as ++ r :: bs ∧
    (∀ y ∈ as, ¬ r.higher y) ∧ ∀ y, bs.head? = some y → r.higher y := by
  induction q with
  | nil => exact ⟨[], [], rfl, rfl, fun _ h => (List.not_mem_nil h).elim, fun _ h => by cases h⟩
  | cons y ys ih =>
    unfold putRecord
    split
    · rename_i hy
      exact ⟨[], y :: ys, rfl, rfl, fun _ h => (List.not_mem_nil h).elim, fun z hz => by cases hz; exact hy⟩
    · rename_i hy
      obtain ⟨as, bs, queue, put, lower, first⟩ := ih
      exact ⟨y :: as, bs, by rw [queue]; rfl, by rw [put]; rfl, List.forall_mem_cons.mpr ⟨hy, lower⟩, first⟩

/-- The record that a refused store leaves (17 R334). -/
def Access.faultRecord (x : Access) (slot cause synd : Nat) : SfRec :=
  { gang := x.gang, lane := x.lane, cause := cause, slot := slot, kind := x.recKind, widx := x.pc.idx, rep := x.rep
    size := x.size, synd := synd, clause := x.pc.addr, addr := x.va, value := ofLeBytes (x.data.take 8), seq := x.wseq }

theorem exec_storeFaultReport {s : State} {i cause synd : Nat} {x : Access} {g : Gang} (hx : s.access? i = some x)
    (hp : x.phase = .faulted cause synd) (hg : s.gang? x.gang = some g) (hl : (g.lane x.lane).live = true) :
    exec (.storeFaultReport i) s = .next ((s.dropAccess i).placeRecord g.core (x.faultRecord g.slot cause synd)) := by
  show execStoreFaultReport i s = _
  unfold execStoreFaultReport
  simp only [hx, hp, hg, hl, if_true]
  rfl

/-- The frame that lanes enter with a trap from outside every handler (17 R324). -/
def TrapInfo.frame (i : TrapInfo) (x : Lane) (m : Mask) (pc : Pc) (rep tword : Nat) (sfr : Bool) : Frame :=
  { level := max x.level (causeOwner i.cause i.tinfo), prev := x.level, mask := m, cause := i.cause, sfr := sfr, tpc := pc
    tword := tword, taddr := i.taddr, tinfo := i.tinfo, rep := rep, fpstat := i.fpstat, outer := x.frame }

/-- A gang whose lanes of a mask stand at a handler, in a new frame. -/
def Gang.entered (g : Gang) (m : Mask) (id : Nat) (f : Frame) (vector : Nat) : Gang :=
  { g.mapLanes m (fun _ y => { y with
      level := f.level, pc := ⟨vector, 0⟩, rep := 0, frame := some id, parked := false }) with
    frames := g.frames ++ [(id, f)] }

/-- Lanes outside every handler enter a frame while one is free. -/
theorem enterFrame_enters {s : State} {gid : Nat} {g : Gang} {t : Team} {m : Mask} (hg : s.gang? gid = some g)
    (ht : s.team? g.team = some t) (hframe : (g.lane (lowBit 64 m.toNat)).frame = none) (hroom : g.frames.length < 8)
    (pc : Pc) (rep tword : Nat) (sfr : Bool) (i : TrapInfo) :
    let f := i.frame (g.lane (lowBit 64 m.toNat)) m pc rep tword sfr
    s.enterFrame gid m pc rep tword sfr i =
      State.setGang { s with nextId := s.nextId + 1 } gid (g.entered m s.nextId f (s.vector t f.level)) := by
  unfold State.enterFrame
  simp only [hg, ht, hframe, Option.any_none, Bool.false_eq_true, if_false, if_neg (Nat.not_le_of_lt hroom)]
  rw [onGang_eq _ gid _ (show State.gang? { s with nextId := s.nextId + 1 } gid = some g from hg)]
  unfold TrapInfo.frame Gang.entered
  rw [hframe]

theorem entered_lane {g : Gang} {m : Mask} {id vector : Nat} {f : Frame} {l : Nat} (hl : l < g.lanes.length)
    (hm : m.getLsbD l = true) : (g.entered m id f vector).lane l = { g.lane l with
      level := f.level, pc := ⟨vector, 0⟩, rep := 0, frame := some id, parked := false } :=
  (mapLanes_lane ..).trans (if_pos ⟨hl, hm⟩)

theorem entered_regs (g : Gang) (m : Mask) (id vector : Nat) (f : Frame) (l : Nat) :
    ((g.entered m id f vector).lane l).regs = (g.lane l).regs := by
  refine (congrArg Lane.regs (mapLanes_lane ..)).trans ?_
  split <;> rfl

/-- A gang without one of its cohorts. -/
def Gang.without (g : Gang) (cid : Nat) : Gang := { g with cohorts := assocErase g.cohorts cid }

/-- A cohort that leaves its word with all its lanes ends. -/
theorem leave_all {s : State} {x : Acting} (h : s.acting = some x) :
    s.leave x.co.mask = s.setGang x.gid (x.gang.without s.cur.2) := by
  obtain ⟨gid, hg, hc, -⟩ := acting_gang h
  rw [gid] at hg
  unfold State.leave
  rw [onGang_eq s _ _ hg, gid]
  simp only [hc]
  rw [if_pos (by simp)]
  rfl

/-- The lanes that hold due records of a lane alone are that lane. -/
theorem dueLanes_single {s : State} {gid l : Nat} {m : Mask} {r : SfRec} {rs : List SfRec} (hl : lanesOf m = [l])
    (hr : s.dueRecords gid m false = r :: rs) : maskOf ((r :: rs).map (·.lane)) = m := by
  have lanes : ∀ y ∈ r :: rs, y.lane = l := by
    intro y hy
    rw [← hr] at hy
    unfold State.dueRecords at hy
    split at hy
    · cases hy
    · have due := (List.mem_filter.mp hy).2
      unfold Gang.deliverable at due
      simp only [Bool.and_eq_true] at due
      exact List.mem_singleton.mp (hl ▸ (lanesOf_mem m y.lane).mpr due.1.2)
  have only : ∀ i, m.getLsbD i = true ↔ i = l := fun i => by rw [← lanesOf_mem, hl, List.mem_singleton]
  refine BitVec.eq_of_getLsbD_eq (fun i hi => ?_)
  rw [Bool.eq_iff_iff, maskOf_getLsbD, decide_eq_true_eq, only, List.mem_map]
  constructor
  · rintro ⟨-, y, hy, rfl⟩
    exact lanes y hy
  · rintro rfl
    exact ⟨hi, r, List.mem_cons_self, lanes r List.mem_cons_self⟩

theorem lowBit_eq {n x l : Nat} (hl : l < n) (hbit : x.testBit l = true) (hlow : ∀ j, j < l → x.testBit j = false) :
    lowBit n x = l := by
  induction n generalizing x l with
  | zero => omega
  | succ n ih =>
    unfold lowBit
    cases l with
    | zero =>
      rw [Nat.testBit_zero, decide_eq_true_eq] at hbit
      rw [hbit]
      rfl
    | succ l =>
      have even := hlow 0 (Nat.succ_pos l)
      rw [Nat.testBit_zero, decide_eq_false_iff_not] at even
      rw [if_neg (by simpa using even), ih (l := l) (by omega) (by rwa [Nat.testBit_succ] at hbit)
        (fun j hj => by have := hlow (j + 1) (by omega); rwa [Nat.testBit_succ] at this)]

/-- The lowest lane of a mask of one lane. -/
theorem lowBit_single {m : Mask} {l : Nat} (hl : lanesOf m = [l]) : lowBit 64 m.toNat = l := by
  have only : ∀ i, m.getLsbD i = true ↔ i = l := fun i => by rw [← lanesOf_mem, hl, List.mem_singleton]
  have bit : m.getLsbD l = true := (only l).mpr rfl
  exact lowBit_eq (BitVec.lt_of_getLsbD bit) bit (fun j hj => Bool.not_eq_true _ ▸ fun e => by
    have := (only j).mp e
    omega)

/-- The level at which a record is delivered: that of its lane or of the handler that owns its cause (17 R321, R336). -/
def SfRec.deliveryLevel (r : SfRec) (x : Lane) : Nat :=
  max x.level (if r.cause = 0x08 then 2 else if r.cause = 0x09 then 3 else 1)

theorem deliveryLevel_eq {r : SfRec} (h : r.cause ≠ 0x11) (x : Lane) :
    r.deliveryLevel x = max x.level (causeOwner r.cause 0) := by
  unfold SfRec.deliveryLevel causeOwner
  simp only [h, false_and, if_false]

theorem onCore_vector (s : State) (c : Nat) (f : Core → Core) (t : Team) (level : Nat) :
    (s.onCore c f).vector t level = s.vector t level := rfl

/-- The due records of a lane outside every handler are delivered in one frame, with the cause and address of the oldest. -/
theorem deliver_single {s : State} {gid l : Nat} {g : Gang} {t : Team} {m : Mask} {r : SfRec} {rs : List SfRec}
    (hg : s.gang? gid = some g) (ht : s.team? g.team = some t) (hl : lanesOf m = [l])
    (hr : s.dueRecords gid m false = r :: rs) (hframe : (g.lane l).frame = none) (hroom : g.frames.length < 8)
    (pc : Pc) (rep tword : Nat) :
    let f := TrapInfo.frame { cause := r.cause, taddr := r.addr } (g.lane l) m pc rep tword true
    ∃ u : State, u.mem = s.mem ∧
      s.deliver gid m false pc rep tword = u.setGang gid (g.entered m s.nextId f (s.vector t f.level)) := by
  have low := lowBit_single hl
  unfold State.deliver
  simp only [hr, hg]
  rw [dueLanes_single hl hr]
  rw [enterFrame_enters (s := State.onCore _ _ _) hg ht (by rw [low]; exact hframe) hroom, low, onCore_vector]
  refine ⟨_, ?_, rfl⟩
  rfl

/-- A gang whose lane has taken a record at the word of its cohort: it stands at the vector, in a frame that names the
record and the word. -/
def State.tookRecord (s : State) (x : Acting) (l : Nat) (r : SfRec) (h : Gang) : Prop :=
  ∃ id f, (id, f) ∈ h.frames ∧ f.sfr = true ∧ f.cause = r.cause ∧ f.taddr = r.addr ∧ f.tpc = x.pc ∧ f.tword = x.co.word ∧
    f.level = r.deliveryLevel (x.gang.lane l) ∧ (h.lane l).frame = some id ∧
    (h.lane l).pc = ⟨s.vector x.team (r.deliveryLevel (x.gang.lane l)), 0⟩ ∧
    (h.lane l).level = r.deliveryLevel (x.gang.lane l) ∧ ∀ k, (h.lane k).regs = (x.gang.lane k).regs

/-- The only lane of a cohort leaves its word for its due records (17 R336). -/
theorem leave_deliver_takes {s : State} {x : Acting} {l : Nat} {r : SfRec} {rs : List SfRec} (hx : s.acting = some x)
    (hplain : x.plain) (hl : x.lanes = [l]) (hr : s.dueRecords x.gid x.co.mask false = r :: rs) (htrap : x.mayTrap)
    (hcause : r.cause ≠ 0x11) (rep : Nat) :
    let t := (s.leave x.co.mask).deliver x.gid x.co.mask false x.pc rep x.co.word
    t.mem = s.mem ∧ ∃ h, t.gang? x.gid = some h ∧ s.tookRecord x l r h := by
  obtain ⟨-, hg, -, ht⟩ := acting_gang hx
  have isLane : l ∈ x.lanes := by rw [hl]; exact List.mem_singleton_self l
  have level : _ = r.deliveryLevel (x.gang.lane l) := (deliveryLevel_eq hcause _).symm
  have left : (s.setGang x.gid (x.gang.without s.cur.2)).gang? x.gid = some (x.gang.without s.cur.2) :=
    assocGet?_assocSet_self ..
  have due : (s.setGang x.gid (x.gang.without s.cur.2)).dueRecords x.gid x.co.mask false = r :: rs := by
    rw [← hr]
    unfold State.dueRecords
    rw [left, hg]
    rfl
  obtain ⟨u, mem, run⟩ := deliver_single left ht hl due (htrap.1 l isLane) htrap.2 x.pc rep x.co.word
  rw [leave_all hx, run]
  have lane := fun id f v => entered_lane (g := x.gang.without s.cur.2) (id := id) (f := f) (vector := v)
    (hplain.1 l isLane) ((lanesOf_mem _ _).mp isLane)
  refine ⟨mem, _, by rw [setGang_gang, if_pos rfl], _, _, List.mem_append_right _ (List.mem_singleton_self _), rfl, rfl, rfl,
    rfl, rfl, level, congrArg Lane.frame (lane ..), ?_, ?_, entered_regs _ _ _ _ _⟩
  · rw [← level]
    exact congrArg Lane.pc (lane ..)
  · rw [← level]
    exact congrArg Lane.level (lane ..)

/-- Records that are due by count are delivered at the word of a cohort of one lane (17 R335, point 3). -/
theorem skidCountDeliver_takes {s : State} {gid cid l : Nat} {x : Acting} {r : SfRec} {rs : List SfRec}
    (hx : State.acting { s with cur := (gid, cid) } = some x) (hplain : x.plain) (hl : x.lanes = [l])
    (hhold : x.co.hold = false) (hdue : s.skidDue gid x.gang x.co.mask = true)
    (hwaits : s.skidWaits gid x.gang x.co.mask = false) (hr : s.dueRecords gid x.co.mask false = r :: rs)
    (hdone : x.co.done = 0) (htrap : x.mayTrap) (hcause : r.cause ≠ 0x11) :
    ∃ t, exec (.skidCountDeliver gid cid) s = .next t ∧ t.mem = s.mem ∧
      ∃ h, t.gang? gid = some h ∧ s.tookRecord x l r h := by
  obtain ⟨rfl, -, -, -⟩ := acting_gang hx
  have lanes : State.dueLanes { s with cur := (x.gid, cid) } x.gid x.co.mask false = x.co.mask := by
    have due : State.dueRecords { s with cur := (x.gid, cid) } x.gid x.co.mask false = r :: rs := hr
    unfold State.dueLanes
    rw [due]
    exact dueLanes_single hl due
  have now : (!x.co.hold && x.co.done == 0 && State.skidDue { s with cur := (x.gid, cid) } x.gid x.gang x.co.mask &&
      !State.skidWaits { s with cur := (x.gid, cid) } x.gid x.gang x.co.mask) = true := by
    simp only [hhold, hdone, Bool.and_eq_true, Bool.not_eq_true', beq_self_eq_true]
    exact ⟨⟨⟨trivial, trivial⟩, hdue⟩, hwaits⟩
  obtain ⟨mem, took⟩ := leave_deliver_takes hx hplain hl hr htrap hcause x.co.repIdx
  refine ⟨_, rfl, ?_⟩
  unfold State.asCohort State.act
  simp only [hx]
  rw [if_pos now, lanes]
  exact ⟨mem, took⟩

/-! ### Swaps (04 R75, R76) -/

theorem swap_swaps {s : State} {gid : Nat} {g : Gang} (hg : s.gang? gid = some g) (ht : (s.team? g.team).isSome) (i : Nat)
    {p : Gang → Bool} (hp : p g = true) (f : Gang → Gang) :
    (s.swap gid i p f).mem = s.mem ∧ (s.swap gid i p f).gang? gid = some (f g) := by
  obtain ⟨t, ht⟩ := Option.isSome_iff_exists.mp ht
  unfold State.swap
  simp only [hg, hp, ht, if_true]
  rw [tally_gang, tally_rest]
  exact ⟨rfl, assocGet?_assocSet_self ..⟩

/-! ### The steps -/

/-- The lanes that some slices give a cohort: those of their heads. -/
def Gang.headLanes (g : Gang) (ks : List Nat) : Mask :=
  maskOf (ks.flatMap (fun k => match g.headOf k with
    | some p => p.2
    | none => []))

/-- A selection point: the lanes of the slices that meet form a cohort, where its clause is fetched and need not wait. -/
theorem cohortForm_forms {s u : State} {gid k hd : Nat} {g : Gang} {h : Head} {ls ks ws : List Nat} {tm : Team} {pc : Pc}
    {m : Mask} (hg : s.gang? gid = some g) (hselect : s.maySelect g k = true) (hh : g.headOf k = some (h, ls))
    (ht : s.team? g.team = some tm) (hks : s.meeting g k h = ks) (hm : g.headLanes ks = m)
    (hpc : (g.lane (ls.headD 0)).pc = pc) (houtside : s.fetchOutside (g.lane (ls.headD 0)).level pc.addr = false)
    (hfetch : State.fetchClause ((s.setGang gid (g.clearDeferred ks)).beginTeam g.team) g.team (lowBit 64 m.toNat)
      (tm.ctx ((g.clearDeferred ks).lane (lowBit 64 m.toNat)).level g.core) pc.addr = (u, some (.ok (hd, ws))))
    (hidx : (if pc.idx = 15 then 0 else pc.idx) < hd % 16)
    (hwait : (if pc.idx = 15 then 0 else pc.idx) ≠ 0 ∨ hd / 2 ^ 22 % 2 ^ 4 = 0) :
    ∃ t, exec (.cohortForm gid k) s = .next t ∧ t.mem = u.mem ∧ ∃ h', t.gang? gid = some h' ∧
      (∀ l, (h'.lane l).regs = (g.lane l).regs) ∧
      ∃ cid co, assocGet? h'.cohorts cid = some co ∧ Formed co m pc hd ws := by
  obtain ⟨team, core, regs⟩ := clearDeferred_keeps g ks
  have run : exec (.cohortForm gid k) s = .next ((s.setGang gid (g.clearDeferred ks)).startCohort gid (g.clearDeferred ks) m pc
      (g.lane (ls.headD 0)).rep) := by
    show execCohortForm gid k s = _
    unfold execCohortForm
    simp only [hg, hselect, hh, hks, hpc, houtside, if_true, Bool.false_eq_true, if_false]
    rw [← hm]
    rfl
  obtain ⟨mem, h', gang, kept, formed⟩ := startCohort_forms (s := s.setGang gid (g.clearDeferred ks)) (g := g.clearDeferred ks)
    (rep := (g.lane (ls.headD 0)).rep) (assocGet?_assocSet_self ..) (by rw [team]; exact ht) (by rw [team, core]; exact hfetch)
    hidx hwait
  exact ⟨_, run, mem, h', gang, fun l => (kept l).trans (regs l), formed⟩

/-- Settles O47: each step by the rule for its operation. -/
theorem gangSteps : Obligations.GangSteps := by
  unfold Obligations.GangSteps
  intro s gid g hg
  have ends : ∀ {i : Instr} {h : Gang}, exec i s = .next (s.setGang gid h) →
      ∃ t, exec i s = .next t ∧ t.mem = s.mem ∧ ∃ h', t.gang? gid = some h' ∧ h' = h :=
    fun run => ⟨_, run, rfl, _, assocGet?_assocSet_self .., rfl⟩
  refine ⟨?forms, ?meets, fun k h ls hh hrel hawake => headOf_awake hh hrel hawake, ?parks, ?results, ?report, ?skid, ?swaps⟩
  case forms =>
    intro k h ls u hd ws tm hselect hh ht pc idx ks m l houtside hfetch hidx hwait
    obtain ⟨t, run, mem, h', gang, regs, cid, co, cohort, formed⟩ :=
      cohortForm_forms hg hselect hh ht rfl rfl rfl houtside hfetch hidx hwait
    exact ⟨t, run, mem, h', gang, regs, cid, co, cohort, formed.mask, formed.hdr, formed.count, formed.words, formed.idx,
      formed.hold, formed.span⟩
  case meets =>
    intro k h ls hselect hh
    unfold State.maySelect at hselect
    simp only [Bool.and_eq_true, decide_eq_true_eq] at hselect
    obtain ⟨⟨⟨-, hk⟩, hfree⟩, -⟩ := hselect
    refine ⟨mem_meeting.mpr ⟨⟨hk, hfree, ls, hh⟩, .inl rfl⟩, fun j hj => (mem_meeting.mp hj).1.2, fun j ms hj hjfree hjh => ?_⟩
    rintro (⟨rfl, rfl⟩ | alone)
    · exact mem_meeting.mpr ⟨⟨hj, hjfree, _, hjh⟩, .inr (.inl ⟨converged_of_head hh, converged_of_head hjh⟩)⟩
    · exact mem_meeting.mpr ⟨⟨hj, hjfree, ms, hjh⟩, .inr (.inr (.inl (not_contended alone)))⟩
  case parks =>
    intro w x hw
    obtain ⟨gone, regs, stands⟩ := resumed_parkEnded s g w x
    refine ⟨fun b hk hmet => ?_, fun hk hres hdue => ?_⟩
    · obtain ⟨t, run, mem, h, gang, rfl⟩ := ends (prewaitRelease_ends hg hw hk hmet)
      exact ⟨t, run, mem, _, gang, gone, regs, stands⟩
    · obtain ⟨t, run, mem, h, gang, rfl⟩ := ends (switchParkEnd_ends hg hw hk hres hdue)
      exact ⟨t, run, mem, _, gang, gone, regs, stands⟩
  case results =>
    intro r p v hr hv hlen h64 hlive hreg
    obtain ⟨t, run, mem, h, gang, hh⟩ := ends (exec_resultWrite hg hr hv)
    unfold Gang.writeBoth at hh
    refine ⟨fun alone hs => ?_, fun j q w hpair hw hne hqreg hp hq => ?_, fun alone hs => ?_⟩
    · rw [alone] at hh
      subst hh
      obtain ⟨written, kept⟩ := writeResult_writes (r := r) (v := v) hlen h64 hlive hreg hs t
      exact ⟨t, run, mem, _, gang, written, kept, writeResult_others hlen h64 hlive, writeResult_results⟩
    · obtain ⟨hj, lane, -⟩ := pairMate_some hpair
      rw [hpair] at hh
      simp only [hw, Option.getD_some] at hh
      subst hh
      obtain ⟨first, second, kept, others⟩ := writePair_writes (r := r) (v := v) (j := j) (w := w) hlen h64 hlive hreg lane hne
        hqreg hp hq t
      exact ⟨t, run, mem, _, gang, first, second, kept, others,
        (assocGet?_assocErase_ne _ hj.symm).trans writeResult_results, writeResult_results⟩
    · rw [alone] at hh
      subst hh
      exact ⟨t, run, mem, _, gang, writeResult_overtaken hlen h64 hlive hs, writeResult_results⟩
  case report =>
    rintro i x cause synd hx rfl hphase hlive
    obtain ⟨as, bs, queue, put, lower, first⟩ := putRecord_splits (x.faultRecord g.slot cause synd) (s.core g.core).sfq
    refine ⟨_, exec_storeFaultReport hx hphase hg hlive, rfl, g, hg, ?_, x.faultRecord g.slot cause synd, as, bs, queue, ?_,
      lower, first, rfl, rfl, rfl, rfl, rfl, rfl, rfl, rfl, rfl, ?_⟩
    · exact (dropAccess_access s i i).trans (if_pos rfl)
    · rw [← put]
      exact congrArg Core.sfq ((setCore_core ..).trans (if_pos rfl))
    · show x.recKind = _
      unfold Access.recKind
      simp only [beq_iff_eq]
  case skid =>
    intro cid x l r rs hx hplain hl hhold hdue hwaits hr hdone htrap hcause
    obtain ⟨rfl, hgang, -, -⟩ := acting_gang hx
    cases hg.symm.trans hgang
    obtain ⟨t, run, mem, h, gang, took⟩ := skidCountDeliver_takes hx hplain hl hhold hdue hwaits hr hdone htrap hcause
    obtain ⟨id, f, frame, sfr, cause, taddr, tpc, tword, level, laneFrame, lanePc, laneLevel, regs⟩ := took
    exact ⟨t, run, mem, h, gang, id, f, frame, sfr, cause, taddr, tpc, tword, level, laneFrame, lanePc, laneLevel, regs⟩
  case swaps =>
    intro ht
    have swaps : ∀ (i : Nat) {p : Gang → Bool} (f : Gang → Gang), p g = true →
        (s.swap gid i p f).mem = s.mem ∧ ∃ h, (s.swap gid i p f).gang? gid = some h ∧ h = f g := fun i p f hp =>
      ⟨(swap_swaps hg ht i hp f).1, _, (swap_swaps hg ht i hp f).2, rfl⟩
    exact ⟨fun hp => ⟨_, rfl, swaps 1 _ hp⟩, fun hp => ⟨_, rfl, swaps 2 _ hp⟩, fun hp => ⟨_, rfl, swaps 3 _ hp⟩⟩

end Sys2Proof.Machine
end

section
/-! What leaves the maps of the fields as they are: every step of a change of map and of a quiesce but the installation of a
map itself. -/
namespace Sys2Proof.Machine

/-! ### The state's operations -/

@[simp] theorem foldl_fields {α : Type} {f : State → α → State} (hf : ∀ s x, (f s x).fields = s.fields) (xs : List α)
    (s : State) : (xs.foldl f s).fields = s.fields := foldl_reads State.fields hf xs s

theorem CoherenceStep.fields {s t : State} (h : CoherenceStep s t) : t.fields = s.fields := by rw [h.rest]
theorem PostStep.fields {s t : State} (h : PostStep s t) : t.fields = s.fields := by rw [h.rest]
theorem HardwareStep.fields {s t : State} (h : HardwareStep s t) : t.fields = s.fields := by rw [h.rest]

@[simp] theorem onGang_fields (s : State) (k : Nat) (f : Gang → Gang) : (s.onGang k f).fields = s.fields := by
  rw [onGang_rest]

@[simp] theorem onTenant_fields (s : State) (k : Nat) (f : Tenant → Tenant) : (s.onTenant k f).fields = s.fields := by
  rw [onTenant_rest]

@[simp] theorem onTeam_fields (s : State) (k : Nat) (f : Team → Team) : (s.onTeam k f).fields = s.fields := by
  unfold State.onTeam
  split <;> rfl

@[simp] theorem onCore_fields (s : State) (c : Nat) (f : Core → Core) : (s.onCore c f).fields = s.fields := (rfl)
@[simp] theorem onQuad_fields (s : State) (q : Nat) (f : Quad → Quad) : (s.onQuad q f).fields = s.fields := (rfl)
@[simp] theorem onPart_fields (s : State) (k : Nat) (f : Tenant → Tenant) : (s.onPart k f).fields = s.fields := (rfl)

@[simp] theorem onQueue_fields (s : State) (d : Dom) (q : Nat) (f : Queue → Queue) :
    (s.onQueue d q f).fields = s.fields := by
  unfold State.onQueue
  rw [setQueue_rest]

@[simp] theorem setQueue_fields (s : State) (d : Dom) (q : Nat) (x : Queue) : (s.setQueue d q x).fields = s.fields := by
  rw [setQueue_rest]

@[simp] theorem post_fields (s : State) (r : FbRef) (e : Entry) : (s.post r e).fields = s.fields :=
  (postStep_post s r e).fields

@[simp] theorem hwFault_fields (s : State) (d : Dom) (f : TFault) (va : Nat) (acc : HwAccess) :
    (s.hwFault d f va acc).fields = s.fields := (postStep_hwFault s d f va acc).fields

@[simp] theorem publishPins_fields (s : State) (team : Nat) (pub : List Sync) : (s.publishPins team pub).fields = s.fields :=
  (coherenceStep_publishPins s team pub).fields

@[simp] theorem lapseMonitors_fields (s : State) (p : MonReg → Bool) : (s.lapseMonitors p).fields = s.fields :=
  (coherenceStep_lapseMonitors s p).fields

@[simp] theorem fireMonitors_fields (s : State) (line : Nat) : (s.fireMonitors line).fields = s.fields :=
  (coherenceStep_fireMonitors s line).fields

@[simp] theorem combine_fields (s : State) (line : Nat) : (s.combine line).fields = s.fields :=
  (coherenceStep_combine s line).fields

@[simp] theorem hwPut_fields (s : State) (a : Nat) (bs : List Byte) : (s.hwPut a bs).fields = s.fields :=
  (coherenceStep_hwPut s a bs).fields

@[simp] theorem owe_fields (s : State) (a n : Nat) : (s.owe a n).fields = s.fields := (coherenceStep_owe s a n).fields

@[simp] theorem leaveL2_fields (s : State) (line : Nat) : (s.leaveL2 line).fields = s.fields := (rfl)
@[simp] theorem dropCopies_fields (s : State) (line : Nat) : (s.dropCopies line).fields = s.fields := (rfl)
@[simp] theorem spliceOut_fields (s : State) (core line : Nat) : (s.spliceOut core line).fields = s.fields := (rfl)

@[simp] theorem combineCores_fields (s : State) (line : Nat) (cores : List Nat) :
    (s.combineCores line cores).fields = s.fields := by
  unfold State.combineCores
  dsimp only
  split
  · rfl
  · simp [State.keepLine]

/-! ### Teams that stop, leave and return -/

@[simp] theorem stopTeam_fields (s : State) (t : Nat) : (s.stopTeam t).fields = s.fields := by
  unfold State.stopTeam
  split
  · rfl
  · dsimp only
    split <;> simp

@[simp] theorem haltEntry_fields (s : State) (lease : Nat) (tenant : Option Nat) (lvl code core : Nat) :
    (s.haltEntry lease tenant lvl code core).fields = s.fields := by
  unfold State.haltEntry
  split <;> simp

@[simp] theorem haltUnplaced_fields (s : State) (lease : Nat) (tenant : Option Nat) (part : Nat) (ids : List Nat) :
    (s.haltUnplaced lease tenant part ids).fields = s.fields := by
  unfold State.haltUnplaced
  dsimp only
  split <;> simp

@[simp] theorem raiseViews_fields (s : State) (part core : Nat) (floors : List (Nat × Nat)) :
    (s.raiseViews part core floors).fields = s.fields := by simp [State.raiseViews]

@[simp] theorem takeCore_fields (s : State) (core part : Nat) : (s.takeCore core part).fields = s.fields := (rfl)
@[simp] theorem claimArray_fields (s : State) (q k part : Nat) : (s.claimArray q k part).fields = s.fields := (rfl)
@[simp] theorem takeArray_fields (s : State) (core part : Nat) : (s.takeArray core part).fields = s.fields := (rfl)
@[simp] theorem onArray_fields (s : State) (q k : Nat) (f : Array → Array) : (s.onArray q k f).fields = s.fields := (rfl)
@[simp] theorem powerOn_fields (s : State) (quad : Nat) : (s.powerOn quad).fields = s.fields := (rfl)
@[simp] theorem fillWindows_fields (s : State) (t : Team) (core side : Nat) (w : Nat × Nat) :
    (s.fillWindows t core side w).fields = s.fields := (rfl)

@[simp] theorem saveTeam_fields (s : State) (id : Nat) (t : Team) : (s.saveTeam id t).fields = s.fields := by
  simp [State.saveTeam]

@[simp] theorem saveQuad_fields (s : State) (part : Nat) (d : Dom) (q : Nat) : (s.saveQuad part d q).fields = s.fields := by
  simp [State.saveQuad]

@[simp] theorem vacate_fields (s : State) (part : Nat) (d : Dom) (q : Nat) : (s.vacate part d q).fields = s.fields := by
  simp [State.vacate]

@[simp] theorem returnTeam_fields (s : State) (team : Nat) (t : Team) (p : Spot) :
    (s.returnTeam team t p).fields = s.fields := by
  simp [State.returnTeam, apply_ite State.fields]

theorem returnAll_fields {dest : Nat → Nat} {ts : List (Nat × Team)} {s u : State} (h : s.returnAll dest ts = some u) :
    u.fields = s.fields := by
  induction ts generalizing s with
  | nil => cases h; rfl
  | cons p ts ih =>
    unfold State.returnAll at h
    split at h
    · cases h
    · exact (ih h).trans (returnTeam_fields ..)

theorem returnSome_fields {dest : Nat → Nat} {ts : List (Nat × Team)} {s u : State} (h : s.returnSome dest ts = some u) :
    u.fields = s.fields := by
  unfold State.returnSome at h
  dsimp only at h
  split at h
  · cases h
    refine foldl_reads (fun r : State × Bool => r.1.fields) (fun r p => ?_) ts (s, false)
    split <;> simp
  · cases h

@[simp] theorem returnCores_fields (s : State) (part old : Nat) (cs : List Nat) (dest : Nat → Nat) (held : Nat → Bool) :
    (s.returnCores part old cs dest held).fields = s.fields := by
  unfold State.returnCores
  split
  · rfl
  · simp

theorem returnTo_fields {s u : State} {part old : Nat} {cs : List Nat} {dest : Nat → Nat} {teams : State → Option State}
    (ht : ∀ v, teams s = some v → v.fields = s.fields) (h : s.returnTo part old cs dest teams = some u) :
    u.fields = s.fields := by
  unfold State.returnTo at h
  split at h
  · obtain ⟨v, hv, rfl⟩ := Option.map_eq_some_iff.mp h
    exact (returnCores_fields ..).trans (ht v hv)
  · cases h

/-- A return to the first of some places that take it. -/
theorem findSome_fields {α : Type} {f : α → Option State} {s u : State} {xs : List α} (hf : ∀ x v, f x = some v → v.fields = s.fields)
    (h : xs.findSome? f = some u) : u.fields = s.fields := by
  obtain ⟨x, -, hx⟩ := List.exists_of_findSome?_eq_some h
  exact hf x u hx

theorem returnGroup_fields {s u : State} {d : Dom} {part quad : Nat} {cs : List Nat} {split : Bool}
    (h : s.returnGroup d part quad cs split = some u) : u.fields = s.fields := by
  unfold State.returnGroup at h
  dsimp only at h
  split at h
  · rename_i v hv
    cases h
    exact findSome_fields (fun _ _ => returnTo_fields fun _ => returnAll_fields) hv
  · split at h
    · exact findSome_fields (fun _ _ => returnTo_fields fun _ => returnSome_fields) h
    · cases h

@[simp] theorem returnGroup_getD_fields (s : State) (d : Dom) (part quad : Nat) (cs : List Nat) (split : Bool) :
    ((s.returnGroup d part quad cs split).getD s).fields = s.fields := by
  cases h : s.returnGroup d part quad cs split with
  | none => rfl
  | some u => exact returnGroup_fields h

@[simp] theorem returnCluster_fields (s : State) (d : Dom) (part quad : Nat) (split : Bool) :
    (s.returnCluster d part quad split).fields = s.fields := by
  unfold State.returnCluster
  dsimp only
  split
  · rename_i u hu
    exact findSome_fields (fun _ _ => returnTo_fields fun _ => returnAll_fields) hu
  · have groups := foldl_fields (fun (t : State) cs => returnGroup_getD_fields t d part quad cs split)
      (coreGroups (s.cluster part quad [0, 1, 2, 3])) s
    generalize List.foldl _ s _ = v at groups ⊢
    split
    · exact groups
    · split
      · rename_i u hu
        split at hu
        · exact (returnTo_fields (fun w hw => by cases hw; rfl) hu).trans groups
        · cases hu
      · exact groups

@[simp] theorem returnLone_fields (s : State) (d : Dom) (part id : Nat) (t : Team) :
    (s.returnLone d part id t).fields = s.fields := by
  unfold State.returnLone
  extract_lets left
  split
  · rfl
  · split
    · exact returnTeam_fields ..
    · rfl

/-! ### The parts of a change of map (04 R66, R68; 19 R360) -/

@[simp] theorem settlePart_fields (s : State) (part : Nat) : (s.settlePart part).fields = s.fields := by
  simp [State.settlePart]

@[simp] theorem moveOff_fields (s : State) (d : Dom) (part : Nat) (voids : List Nat) :
    (s.moveOff d part voids).fields = s.fields := by
  unfold State.moveOff State.followGangs
  dsimp only [onPart_fields]
  rw [foldl_fields (fun t x => ?_)]
  · simp
  · split
    · split <;> simp
    · rfl

@[simp] theorem movePlatform_fields (s : State) (f : Nat) (old new : List Nat) :
    (s.movePlatform f old new).fields = s.fields := by
  refine foldl_fields (fun t i => ?_) _ s
  dsimp only
  split <;> rfl

@[simp] theorem dropQuadCaches_fields (s : State) (q : Nat) : (s.dropQuadCaches q).fields = s.fields := by
  simp [State.dropQuadCaches]

@[simp] theorem latWrite_fields (s : State) (lease off : Nat) (bs : List Byte) :
    (s.latWrite lease off bs).fields = s.fields := by
  unfold State.latWrite
  split
  · rfl
  · refine foldl_fields (fun t b => ?_) _ s
    split
    · split <;> simp
    · rfl

@[simp] theorem bumpMap_fields (s : State) (lease : Nat) : (s.bumpMap lease).fields = s.fields := by
  unfold State.bumpMap
  split <;> simp

@[simp] theorem homesMoved_fields (s : State) (lease n : Nat) (old new : List Nat) :
    (s.homesMoved lease n old new).fields = s.fields := by
  unfold State.homesMoved
  split
  · rfl
  · simp [apply_ite State.fields]

@[simp] theorem breakRoutes_fields (s : State) (p : Lease → Route → Option Nat) : (s.breakRoutes p).fields = s.fields :=
  (rfl)

@[simp] theorem fixEngines_fields (s : State) : s.fixEngines.fields = s.fields := by
  simp [State.fixEngines]

/-- The installation of a map changes the fields at that field only. -/
theorem installMap_fields (s : State) (f : Nat) (x : Field) : (s.installMap f x).fields = assocSet s.fields f x := by
  unfold State.installMap
  dsimp only
  rw [fixEngines_fields, breakRoutes_fields, foldl_fields (fun _ _ => homesMoved_fields ..), foldl_fields (fun t l => ?_)]
  · simp
  · split <;> simp

/-! ### The answers that came during a quiesce (03 R382) -/

@[simp] theorem hwStore_fields (s : State) (c : Ctx) (va : Nat) (bs : List Byte) (acc : Nat) :
    (s.hwStore c va bs acc).1.fields = s.fields := (hardwareStep_hwStore s c va bs acc).fields

@[simp] theorem hwLoad_fields (s : State) (c : Ctx) (va n acc : Nat) (op : AccOp) :
    (s.hwLoad c va n acc op).1.fields = s.fields := (hardwareStep_hwLoad s c va n acc op).fields

@[simp] theorem refuseRecord_fields (s : State) (d : Dom) (addr : Nat) : (s.refuseRecord d addr).fields = s.fields := by
  have store := hwStore_fields s (domCtx d) (addr + 0x10) (leBytes 4 0xFFFFFFFF) 1
  unfold State.refuseRecord
  generalize s.hwStore (domCtx d) (addr + 0x10) (leBytes 4 0xFFFFFFFF) 1 = r at store ⊢
  obtain ⟨u, e | e⟩ := r <;> simpa using store

@[simp] theorem ringPut_fields (s : State) (d : Dom) (q addr : Nat) (vc : Clock) :
    (s.ringPut d q addr vc).fields = s.fields := by
  have store := hwStore_fields s (domCtx d) ((s.queueOf d q).slotAddr (s.queueOf d q).tail) (leBytes 8 addr) 1
  unfold State.ringPut
  dsimp only
  generalize s.hwStore (domCtx d) _ _ _ = r at store ⊢
  obtain ⟨u, e | e⟩ := r <;> simpa using store

@[simp] theorem drainHeld_fields (s : State) (d : Dom) (q n : Nat) : (s.drainHeld d q n).fields = s.fields := by
  induction n generalizing s with
  | zero => rfl
  | succ n ih =>
    unfold State.drainHeld
    dsimp only
    split
    · rfl
    · split
      · rfl
      · simp [ih]

@[simp] theorem joinAppend_fields (s : State) (d : Dom) (addr : Nat) (vc : Clock) :
    (s.joinAppend d addr vc).fields = s.fields := by
  have read := (hardwareStep_readForFit s d addr).fields
  unfold State.joinAppend
  generalize s.readForFit d addr = r at read ⊢
  obtain ⟨u, e | e⟩ := r
  · simpa using read
  · dsimp -zeta only at read ⊢
    extract_lets q v x
    have drained : v.fields = u.fields := drainHeld_fields u d q 64
    rw [← read]
    split
    · simp
    · split
      · simp [drained]
      · split <;> simp [drained]

@[simp] theorem takeHead_fields (s : State) (d : Dom) (q : Nat) : (s.takeHead d q).fields = s.fields := by
  simp [State.takeHead]

@[simp] theorem takeFault_fields (s : State) (d : Dom) (q : Nat) (f : TFault × Nat) (acc : HwAccess) :
    (s.takeFault d q f acc).fields = s.fields := by
  simp [State.takeFault]

@[simp] theorem takeFrame_fields (s : State) (d : Dom) (q addr : Nat) (w : List Nat) :
    (s.takeFrame d q addr w).fields = s.fields := by
  unfold State.takeFrame
  dsimp only
  have load : (if (recOf w).spill = 0 then (s, .ok []) else s.hwLoad (domCtx d) (recOf w).frame 8 0 :
      State × Except (TFault × Nat) (List Byte)).1.fields = s.fields := by
    split <;> simp
  generalize (if (recOf w).spill = 0 then (s, .ok []) else s.hwLoad (domCtx d) (recOf w).frame 8 0 :
      State × Except (TFault × Nat) (List Byte)) = r at load ⊢
  obtain ⟨u, e | bs⟩ := r <;> simpa using load

@[simp] theorem takeRecord_fields (s : State) (d : Dom) (q addr : Nat) : (s.takeRecord d q addr).fields = s.fields := by
  have load := hwLoad_fields s (domCtx d) addr 64 0 .load
  unfold State.takeRecord
  generalize s.hwLoad (domCtx d) addr 64 0 = r at load ⊢
  obtain ⟨u, e | bs⟩ := r
  · simpa using load
  · dsimp only
    split <;> simpa using load

@[simp] theorem takeEntry_fields (s : State) (d : Dom) (q : Nat) : (s.takeEntry d q).fields = s.fields := by
  unfold State.takeEntry
  dsimp only
  split
  · simp
  · have load := hwLoad_fields s (domCtx d) ((s.queueOf d q).slotAddr (s.queueOf d q).head) 8 0 .load
    generalize s.hwLoad (domCtx d) _ 8 0 = r at load ⊢
    obtain ⟨u, e | bs⟩ := r <;> simpa using load

theorem retake_fields {k : State → State} (hk : ∀ t, (k t).fields = t.fields) (s : State) (d : Dom) (q : Nat) :
    (s.retake d q k).fields = s.fields := by
  unfold State.retake
  dsimp only
  split
  · rfl
  · split <;> simp [hk]

/-- A write of a ring that is made again. -/
theorem rewrite_fields (s : State) (d : Dom) (q slot addr : Nat) :
    (s.retryHw d (.ringWrite q slot addr)).fields = s.fields := by
  unfold State.retryHw
  dsimp only
  split
  · generalize hu : s.onQueue d q (fun y => { y with waiting := y.waiting.filter (· != slot) }) = u
    have store := hwStore_fields u (domCtx d) ((s.queueOf d q).slotAddr slot) (leBytes 8 addr) 1
    generalize u.hwStore (domCtx d) _ _ _ = r at store ⊢
    rw [← hu, onQueue_fields] at store
    obtain ⟨v, e | e⟩ := r <;> simpa using store
  · rfl

@[simp] theorem retryHw_fields (s : State) (d : Dom) (a : HwAccess) : (s.retryHw d a).fields = s.fields := by
  cases a with
  | takeEntry q => exact retake_fields (fun t => takeEntry_fields t d q) s d q
  | takeRecord q addr => exact retake_fields (fun t => takeRecord_fields t d q addr) s d q
  | takeFrame q addr w => exact retake_fields (fun t => takeFrame_fields t d q addr w) s d q
  | ringWrite q slot addr => exact rewrite_fields s d q slot addr
  | joinRead addr vc => exact joinAppend_fields s d addr vc
  | succ l =>
    unfold State.retryHw
    dsimp only
    split <;> rfl
  | gone => rfl

@[simp] theorem passHead_fields (s : State) (d : Dom) (q : Nat) : (s.passHead d q).fields = s.fields := by
  unfold State.passHead
  split <;> simp

@[simp] theorem abandonHw_fields (s : State) (d : Dom) (a : HwAccess) : (s.abandonHw d a).fields = s.fields := by
  cases a <;> simp [State.abandonHw]

@[simp] theorem answerHw_fields (s : State) (d : Dom) (a : HwAccess) (retry : Bool) :
    (s.answerHw d a retry).fields = s.fields := by
  unfold State.answerHw
  extract_lets late
  cases d with
  | tenant l n =>
    dsimp only
    split
    · simp
    · split <;> simp
  | lsq l =>
    dsimp only
    split <;> simp

@[simp] theorem goOnAfter_fields (s : State) (lease n : Nat) : (s.goOnAfter lease n).fields = s.fields := by
  unfold State.goOnAfter
  dsimp only
  split
  · rw [foldl_fields (fun t i => ?_)]
    · simp
    · split <;> simp
  · rfl

@[simp] theorem oneChange_fields (s u : State) : (s.oneChange u).fields = u.fields := by
  simp [State.oneChange]

/-! ### The stop of the lanes of service code -/

theorem gangStep_goOn (s : State) (c : Cohort) (m : Mask) : GangStep s (s.goOn c m) s.cur.1 := by
  have moved := (gangStep_leave s m).next (gangStep_setPcs _ m (fun _ => c.doneAt.1) c.doneAt.2.1) rfl
  unfold State.goOn
  dsimp only
  split
  · exact moved.next (gangStep_park _ _ _ _ _) rfl
  · exact moved

theorem stopCohort_does (s : State) (gid cid : Nat) :
    (s.stopCohort gid cid).fields = s.fields ∧ (s.stopCohort gid cid).failing = s.failing := by
  unfold State.stopCohort State.asCohort State.act
  dsimp only
  split
  · exact ⟨rfl, rfl⟩
  · have step := fun (a : Acting) m n => (gangStep_goOn ({ s with cur := (gid, cid) } : State) a.co m).next
      (gangStep_setPcs _ n (fun _ => a.pc) a.co.repIdx) rfl
    have left := fun (a : Acting) m n => (step a m n).next (gangStep_leave _ n) rfl
    constructor <;> rw [(left _ _ _).eq]

theorem CoherenceStep.fields_failing {s t : State} (h : CoherenceStep s t) :
    t.fields = s.fields ∧ t.failing = s.failing := ⟨h.fields, by rw [h.rest]⟩

theorem foldl_fields_failing {α : Type} {f : State → α → State}
    (hf : ∀ s x, (f s x).fields = s.fields ∧ (f s x).failing = s.failing) (xs : List α) (s : State) :
    (xs.foldl f s).fields = s.fields ∧ (xs.foldl f s).failing = s.failing :=
  Prod.mk.inj (foldl_reads (fun t : State => (t.fields, t.failing)) (fun t x => Prod.ext (hf t x).1 (hf t x).2) xs s)

theorem stopLanes_does (s : State) (part : Nat) :
    (s.stopLanes part).fields = s.fields ∧ (s.stopLanes part).failing = s.failing := by
  have trans {t u v : State} (h : u.fields = t.fields ∧ u.failing = t.failing)
      (k : v.fields = u.fields ∧ v.failing = u.failing) : v.fields = t.fields ∧ v.failing = t.failing :=
    ⟨k.1.trans h.1, k.2.trans h.2⟩
  unfold State.stopLanes
  refine trans (trans (foldl_fields_failing (fun t g => ?_) _ s) (foldl_fields_failing (fun t x => ?_) _ _))
    (coherenceStep_lapseMonitors _ _).fields_failing
  · split
    · exact foldl_fields_failing (fun u c => stopCohort_does u g c.1) _ t
    · exact ⟨rfl, rfl⟩
  · exact (coherenceStep_publishPins t x.1 []).fields_failing

end Sys2Proof.Machine
end

section
/-! Retired physical quads: a field lists them, and no position of its map names them again (04 R66). -/
namespace Sys2Proof.Machine

/-! ### Lists -/

theorem isIn_iff {xs : List Nat} {x : Nat} : isIn xs x = true ↔ x ∈ xs := by simp [isIn]

theorem findIdx_eq {α : Type} (p : α → Bool) (xs : List α) : findIdx p xs = xs.findIdx? p := by
  have shift (k : Nat) : findIdxAux p xs k = (xs.findIdx? p).map (· + k) := by
    induction xs generalizing k with
    | nil => rfl
    | cons x xs ih =>
      unfold findIdxAux
      rw [List.findIdx?_cons]
      split
      · simp
      · rw [ih, Option.map_map]
        congr 1
        funext i
        exact (Nat.add_right_comm i 1 k).symm
  exact (shift 0).trans (by simp)

theorem mem_of_mapM {α β : Type} {f : α → Option β} {xs : List α} {ys : List β} (h : xs.mapM f = some ys) {y : β}
    (hy : y ∈ ys) : ∃ x ∈ xs, f x = some y := by
  induction xs generalizing ys with
  | nil =>
    cases h
    cases hy
  | cons x xs ih =>
    rw [List.mapM_cons] at h
    obtain ⟨z, hz, h⟩ := Option.bind_eq_some_iff.mp h
    obtain ⟨zs, hzs, h⟩ := Option.bind_eq_some_iff.mp h
    cases h
    rcases List.mem_cons.mp hy with rfl | hy
    · exact ⟨x, List.mem_cons_self, hz⟩
    · obtain ⟨w, hw, e⟩ := ih hzs hy
      exact ⟨w, List.mem_cons_of_mem _ hw, e⟩

/-! ### Repairs -/

/-- What a position may name once the quad that position `i` named has been retired: nothing, what another position named,
or a quad that is not dead. -/
def spared (dead map : List Nat) (i v : Nat) : Prop :=
  v = 0 ∨ (∃ j, j ≠ i ∧ map[j]? = some v) ∨ ∃ r, r ∉ dead ∧ v = r + 1

theorem goodCols_usable {dead : List Nat} {r c : Nat} (h : c ∈ goodCols dead r) : 9 * r + c ∉ dead := by
  simpa [goodCols, defective, ← isIn_iff] using (List.mem_filter.mp h).2

theorem nextInRow_usable {dead : List Nat} {p r : Nat} (h : nextInRow dead p = some r) : r ∉ dead := by
  obtain ⟨c, hc, rfl⟩ := Option.map_eq_some_iff.mp h
  have good := List.find?_some hc
  simp only [Bool.and_eq_true, Bool.not_eq_true', defective] at good
  exact fun mem => by simp [isIn_of_mem mem] at good

theorem repairInRow_spares {dead map m : List Nat} {i v : Nat} (h : repairInRow dead map i = some m) (hv : v ∈ m) :
    spared dead map i v := by
  obtain ⟨⟨w, j⟩, mem, hw⟩ := mem_of_mapM h hv
  have named : map[j]? = some w := by simpa using List.mem_zipIdx_iff_getElem?.mp mem
  dsimp only at hw
  split at hw
  · rename_i keep
    cases hw
    rcases keep with zero | row | before
    · exact .inl zero
    · exact .inr (.inl ⟨j, fun e => row (e ▸ rfl), named⟩)
    · exact .inr (.inl ⟨j, by omega, named⟩)
  · obtain ⟨r, hr, rfl⟩ := Option.map_eq_some_iff.mp hw
    exact .inr (.inr ⟨r, nextInRow_usable hr, rfl⟩)

theorem repairByRow_spares {dead map m : List Nat} {i v : Nat} (h : repairByRow dead map i = some m) (hv : v ∈ m) :
    spared dead map i v := by
  obtain ⟨⟨w, j⟩, mem, hw⟩ := mem_of_mapM (Option.filter_eq_some_iff.mp h).1 hv
  have named : map[j]? = some w := by simpa using List.mem_zipIdx_iff_getElem?.mp mem
  dsimp only at hw
  split at hw
  · rename_i keep
    cases hw
    rcases keep with zero | row
    · exact .inl zero
    · exact .inr (.inl ⟨j, fun e => by omega, named⟩)
  · obtain ⟨r, -, hr⟩ := Option.bind_eq_some_iff.mp hw
    obtain ⟨c, hc, rfl⟩ := Option.map_eq_some_iff.mp hr
    exact .inr (.inr ⟨9 * r + c, goodCols_usable (List.mem_of_getElem? hc), rfl⟩)

/-- A position that turns void. -/
theorem set_spares {dead map : List Nat} {i v : Nat} (hv : v ∈ map.set i 0) : spared dead map i v := by
  obtain ⟨j, hj⟩ := List.mem_iff_getElem?.mp hv
  rw [List.getElem?_set] at hj
  split at hj
  · split at hj
    · exact .inl (by simpa using hj.symm)
    · cases hj
  · rename_i ne
    exact .inr (.inl ⟨j, Ne.symm ne, hj⟩)

/-! ### Retired quads -/

/-- Whether a field lists a physical quad as a defect or as void. -/
def Field.lists (x : Field) (p : Nat) : Prop := p ∈ x.defects ∨ p ∈ x.voided

theorem isIn_lists {x : Field} {p : Nat} : (isIn x.defects p || isIn x.voided p) = true ↔ x.lists p := by
  simp [Field.lists, isIn_iff]

def Field.retired (x : Field) (p : Nat) : Prop := x.lists p ∧ p + 1 ∉ x.map

/-- At most one position of a field has this entry. -/
def Field.namesOnce (x : Field) (v : Nat) : Prop := ∀ i j : Nat, x.map[i]? = some v → x.map[j]? = some v → i = j

/-- What the retirement of a quad makes of a field. -/
structure Field.Retires (x y : Field) (p : Nat) : Prop where
  listed : y.lists p
  stays : ∀ r, x.lists r → y.lists r
  names : ∀ v ∈ y.map, v = 0 ∨ (v ∈ x.map ∧ (x.namesOnce (p + 1) → v ≠ p + 1)) ∨ ∃ r, ¬ x.lists r ∧ r ≠ p ∧ v = r + 1

theorem Field.Retires.retired {x y : Field} {p : Nat} (h : x.Retires y p) (once : x.namesOnce (p + 1)) : y.retired p := by
  refine ⟨h.listed, fun mem => ?_⟩
  obtain zero | ⟨-, other⟩ | ⟨r, -, ne, e⟩ := h.names _ mem
  · cases zero
  · exact other once rfl
  · exact ne (Nat.succ.inj e).symm

theorem Field.Retires.keeps {x y : Field} {p r : Nat} (h : x.Retires y p) (hr : x.retired r) : y.retired r := by
  refine ⟨h.stays r hr.1, fun mem => ?_⟩
  obtain zero | ⟨old, -⟩ | ⟨q, out, -, e⟩ := h.names _ mem
  · cases zero
  · exact hr.2 old
  · exact out (Nat.succ.inj e ▸ hr.1)

/-- A new map whose positions are spared retires the quad that position `i` named. -/
theorem retires_of_spared {x y : Field} {p i : Nat} (hi : x.map[i]? = some (p + 1))
    (hl : ∀ r, y.lists r ↔ r = p ∨ x.lists r) (hm : ∀ v ∈ y.map, spared (p :: (x.defects ++ x.voided)) x.map i v) :
    x.Retires y p where
  listed := (hl p).mpr (.inl rfl)
  stays r hr := (hl r).mpr (.inr hr)
  names v hv := by
    obtain zero | ⟨j, ne, hj⟩ | ⟨r, out, e⟩ := hm v hv
    · exact .inl zero
    · exact .inr (.inl ⟨List.mem_of_getElem? hj, fun once e => ne (once j i (e ▸ hj) hi)⟩)
    · rw [List.mem_cons, List.mem_append, not_or] at out
      exact .inr (.inr ⟨r, out.2, out.1, e⟩)

theorem retireQuad_listed {s : State} {f p : Nat} (h : (assocGet {} s.fields f).lists p) : s.retireQuad f p = s := by
  unfold State.retireQuad
  exact if_pos (isIn_lists.mpr h)

theorem retireQuad_retires {s : State} {f p : Nat} (h : ¬ (assocGet {} s.fields f).lists p) :
    ∃ y, (s.retireQuad f p).fields = assocSet s.fields f y ∧ Field.Retires (assocGet {} s.fields f) y p := by
  unfold State.retireQuad
  rw [if_neg (mt isIn_lists.mp h)]
  generalize assocGet {} s.fields f = x at h ⊢
  dsimp only
  split
  · rename_i unnamed
    refine ⟨_, rfl, .inl List.mem_cons_self, fun r hr => hr.imp_left (List.mem_cons_of_mem p), fun v hv => ?_⟩
    rw [findIdx_eq, List.findIdx?_eq_none_iff] at unnamed
    exact .inr (.inl ⟨hv, fun _ => by simpa using unnamed v hv⟩)
  · rename_i i hi
    rw [findIdx_eq, List.findIdx?_eq_some_iff_getElem] at hi
    obtain ⟨lt, here, -⟩ := hi
    have named : x.map[i]? = some (p + 1) := List.getElem?_eq_some_iff.mpr ⟨lt, by simpa using here⟩
    split
    · rename_i m hm
      refine ⟨_, installMap_fields .., retires_of_spared named (fun r => ?_) fun v hv => ?_⟩
      · simp [Field.lists, or_assoc]
      · obtain ⟨hm, -⟩ := Option.filter_eq_some_iff.mp hm
        split at hm
        · rename_i inRow
          cases hm
          exact repairInRow_spares inRow hv
        · exact repairByRow_spares hm hv
    · refine ⟨_, installMap_fields .., retires_of_spared named (fun r => ?_) fun v hv => set_spares hv⟩
      simp [Field.lists, or_left_comm]

/-- Whether a physical quad of a field is retired. -/
def State.retired (s : State) (f p : Nat) : Prop := (assocGet {} s.fields f : Field).retired p

theorem retired_of_fields {s t : State} (h : t.fields = s.fields) {f p : Nat} : t.retired f p ↔ s.retired f p := by
  unfold State.retired
  rw [h]

theorem retireQuad_retired {s : State} {f p : Nat} (h : ¬ (assocGet {} s.fields f).lists p)
    (once : (assocGet {} s.fields f).namesOnce (p + 1)) : (s.retireQuad f p).retired f p := by
  obtain ⟨y, fields, retires⟩ := retireQuad_retires h
  unfold State.retired
  rw [fields, assocGet_assocSet_self]
  exact retires.retired once

/-- A retired quad stays retired when another one is retired. -/
theorem retireQuad_keeps {s : State} {f r : Nat} (hr : s.retired f r) (g p : Nat) : (s.retireQuad g p).retired f r := by
  by_cases h : (assocGet {} s.fields g).lists p
  · rwa [retireQuad_listed h]
  · obtain ⟨y, fields, retires⟩ := retireQuad_retires h
    unfold State.retired
    rw [fields]
    by_cases e : f = g
    · rw [e, assocGet_assocSet_self]
      exact retires.keeps (e ▸ hr)
    · rwa [assocGet_assocSet_ne _ _ _ e]

theorem retireOrphans_keeps {s : State} {f r : Nat} (hr : s.retired f r) (n : Nat) : (s.retireOrphans n).retired f r := by
  induction n generalizing s with
  | zero => exact hr
  | succ n ih =>
    unfold State.retireOrphans
    split
    · exact hr
    · exact ih (retireQuad_keeps hr _ _)

/-- The end of a quiesce for one failed quad leaves it retired. -/
theorem quiesceEnd_retired {s : State} {f p : Nat} (hp : p < 81) (hs : s.failing = [81 * f + p])
    (h : ¬ (assocGet {} s.fields f).lists p) (once : (assocGet {} s.fields f).namesOnce (p + 1)) :
    s.quiesceEnd.retired f p := by
  unfold State.quiesceEnd
  obtain ⟨fields, failing⟩ := foldl_fields_failing (fun (t : State) l => stopLanes_does t (tkey l 16))
    (s.leasesOver s.changing) s
  dsimp only
  generalize List.foldl (fun (t : State) l => t.stopLanes (tkey l 16)) s _ = u at fields failing ⊢
  rw [retired_of_fields (foldl_fields (f := fun (t : State) (y : Nat × Nat) => t.goOnAfter y.1 y.2)
    (fun t y => goOnAfter_fields t y.1 y.2) _ _)]
  change u.retireFailed.retired f p
  unfold State.retireFailed
  rw [retired_of_fields (oneChange_fields _ _), failing, hs]
  have field : (81 * f + p) / 81 = f := by omega
  have quad : (81 * f + p) % 81 = p := by omega
  refine retireOrphans_keeps ?_ 5376
  rw [List.foldl_cons, List.foldl_nil, field, quad]
  exact retireQuad_retired (fields ▸ h) (fields ▸ once)

end Sys2Proof.Machine
end

section
/-! The maps that boot gives, from the defects of the fields (04 R64, R65). -/
namespace Sys2Proof.Machine

/-- The entry of a list of fields at a field, when each entry is made from the number of its field and a value. -/
theorem assocGet?_mapKey {α β : Type} (g : Nat → α → β) (xs : List (Nat × α)) (k : Nat) :
    assocGet? (xs.map (fun x => (x.1, g x.1 x.2))) k = (assocGet? xs k).map (g k) := by
  induction xs with
  | nil => rfl
  | cons x xs ih =>
    obtain ⟨j, v⟩ := x
    rw [List.map_cons]
    unfold assocGet?
    split
    · rename_i e
      rw [e]
      rfl
    · exact ih

theorem assocGet?_keys {α : Type} (g : Nat → α) {xs : List Nat} {k : Nat} (h : k ∈ xs) :
    assocGet? (xs.map (fun x => (x, g x))) k = some (g k) := by
  induction xs with
  | nil => cases h
  | cons x xs ih =>
    rw [List.map_cons]
    unfold assocGet?
    split
    · rename_i e
      rw [e]
    · rename_i ne
      exact ih ((List.mem_cons.mp h).resolve_left (Ne.symm ne))

/-- A number that a filter of a range keeps stands behind those below it that the filter keeps. -/
theorem range_filter_getElem? {p : Nat → Bool} {n j r : Nat} (h : ((List.range n).filter p)[j]? = some r) :
    r < n ∧ p r = true ∧ ((List.range r).filter p).length = j := by
  induction n with
  | zero => cases h
  | succ n ih =>
    rw [List.range_succ, List.filter_append, List.getElem?_append] at h
    split at h
    · obtain ⟨lt, rest⟩ := ih h
      exact ⟨by omega, rest⟩
    · rename_i ge
      by_cases pn : p n = true
      · rw [List.filter_cons_of_pos pn, List.filter_nil, List.getElem?_singleton] at h
        split at h
        · cases h
          exact ⟨by omega, pn, by omega⟩
        · cases h
      · rw [List.filter_cons_of_neg pn] at h
        cases h

/-! ### The rows and columns of a field -/

/-- The defects of a field among those of the wafer. -/
def fieldDefects (ds : List Nat) (f : Nat) : List Nat := (ds.filter (fun d => d / 81 == f)).map (· % 81)

theorem defective_fieldDefects (ds : List Nat) (f : Nat) {r c : Nat} (hr : r < 9) (hc : c < 9) :
    defective (fieldDefects ds f) r c = ds.contains (81 * f + 9 * r + c) := by
  rw [Bool.eq_iff_iff, defective, isIn_iff, List.contains_iff_mem]
  simp only [fieldDefects, List.mem_map, List.mem_filter, beq_iff_eq]
  constructor
  · rintro ⟨d, ⟨mem, field⟩, quad⟩
    have : d = 81 * f + 9 * r + c := by omega
    exact this ▸ mem
  · exact fun mem => ⟨_, ⟨mem, by omega⟩, by omega⟩

/-- Whether a physical row of a field has fewer than two defects. -/
def rowKept (ds : List Nat) (f r : Nat) : Bool :=
  decide (((List.range 9).filter (fun c => ds.contains (81 * f + 9 * r + c))).length < 2)

theorem rowKept_eq (ds : List Nat) (f : Nat) {r : Nat} (hr : r < 9) :
    decide (rowDefects (fieldDefects ds f) r < 2) = rowKept ds f r := by
  have same : (List.range 9).filter (defective (fieldDefects ds f) r) =
      (List.range 9).filter (fun c => ds.contains (81 * f + 9 * r + c)) :=
    List.filter_congr fun c hc => defective_fieldDefects ds f hr (List.mem_range.mp hc)
  unfold rowDefects rowKept
  rw [same]

/-- What the map of a field may name at a position: a quad without a defect in a row that has not failed, with as many good
rows above it and good columns before it as the position says (04 R64). -/
def placedBy (ds : List Nat) (f i v : Nat) : Prop :=
  rowKept ds f ((v - 1) / 9) = true ∧ ds.contains (81 * f + 9 * ((v - 1) / 9) + (v - 1) % 9) = false ∧
    ((List.range ((v - 1) / 9)).filter (rowKept ds f)).length = i / 8 ∧
    ((List.range ((v - 1) % 9)).filter (fun c => !ds.contains (81 * f + 9 * ((v - 1) / 9) + c))).length = i % 8

theorem goodRows_getElem? {ds : List Nat} {f j r : Nat} (h : (goodRows (fieldDefects ds f))[j]? = some r) :
    r < 9 ∧ rowKept ds f r = true ∧ ((List.range r).filter (rowKept ds f)).length = j := by
  obtain ⟨lt, kept, count⟩ := range_filter_getElem? h
  refine ⟨lt, (rowKept_eq ds f lt).symm.trans kept, ?_⟩
  rw [← count]
  exact congrArg List.length (List.filter_congr fun q hq => (rowKept_eq ds f ((List.mem_range.mp hq).trans lt)).symm)

theorem goodCols_getElem? {ds : List Nat} {f r j c : Nat} (hr : r < 9) (h : (goodCols (fieldDefects ds f) r)[j]? = some c) :
    c < 9 ∧ ds.contains (81 * f + 9 * r + c) = false ∧
      ((List.range c).filter (fun k => !ds.contains (81 * f + 9 * r + k))).length = j := by
  obtain ⟨lt, good, count⟩ := range_filter_getElem? h
  have same {k : Nat} (hk : k < 9) := defective_fieldDefects ds f hr hk
  refine ⟨lt, by simpa [same lt] using good, ?_⟩
  rw [← count]
  exact congrArg List.length (List.filter_congr fun k hk => by rw [same ((List.mem_range.mp hk).trans lt)])

theorem rawMap_placed {ds : List Nat} {f i v : Nat} (hv : v ≠ 0) (h : (rawMap (fieldDefects ds f)).getD i 0 = v) :
    placedBy ds f i v := by
  unfold rawMap at h
  rw [List.getD_eq_getElem?_getD, List.getElem?_map] at h
  cases hi : (List.range 64)[i]? with
  | none => exact absurd (by simpa [hi] using h.symm) hv
  | some k =>
    obtain ⟨-, rfl⟩ : i < 64 ∧ i = k := by simpa [List.getElem?_range, List.getElem?_eq_some_iff] using hi
    rw [hi] at h
    dsimp only [Option.map_some, Option.getD_some] at h
    split at h
    · exact absurd h.symm hv
    · rename_i r hr
      split at h
      · rename_i c hc
        obtain ⟨r9, kept, rows⟩ := goodRows_getElem? hr
        obtain ⟨c9, good, cols⟩ := goodCols_getElem? r9 hc
        subst h
        have row : (9 * r + c + 1 - 1) / 9 = r := by omega
        have col : (9 * r + c + 1 - 1) % 9 = c := by omega
        unfold placedBy
        rw [row, col]
        exact ⟨kept, good, rows, cols⟩
      · exact absurd h.symm hv

/-! ### The void positions of boot (04 R65) -/

/-- Maps that name nothing but what the defects give. -/
def mapsFrom (ds : List Nat) (maps : List (Nat × List Nat)) : Prop :=
  ∀ f, f < 84 → ∀ i v, v ≠ 0 → (assocGet [] maps f).getD i 0 = v → placedBy ds f i v

theorem mapsFrom_voidAt {ds : List Nat} {maps : List (Nat × List Nat)} (h : mapsFrom ds maps) (q : Nat) :
    mapsFrom ds (voidAt maps q) := by
  intro f hf i v hv e
  by_cases here : f = fieldOfQuad q
  · unfold voidAt at e
    rw [here, assocGet_assocSet_self, List.getD_eq_getElem?_getD, List.getElem?_set] at e
    split at e
    · split at e <;> exact absurd e.symm hv
    · exact h f hf i v hv (by rw [here, List.getD_eq_getElem?_getD]; exact e)
  · unfold voidAt at e
    rw [assocGet_assocSet_ne _ _ _ here] at e
    exact h f hf i v hv e

theorem mapsFrom_boot (ds : List Nat) : mapsFrom ds (bootMaps ds) := by
  have raw : mapsFrom ds ((List.range 84).map (fun f => (f, rawMap (fieldDefects ds f)))) := by
    intro f hf i v hv e
    unfold assocGet at e
    rw [assocGet?_keys _ (List.mem_range.mpr hf)] at e
    exact rawMap_placed hv e
  unfold bootMaps
  refine List.foldlRecOn _ _ raw fun maps h q _ => ?_
  dsimp only
  split
  · exact mapsFrom_voidAt h q
  · exact h

/-- The fields as boot sets them up. -/
def bootFields (ds : List Nat) : List (Nat × Field) :=
  (bootMaps ds).map (fun m => (m.1, { map := m.2, defects := fieldDefects ds m.1 }))

theorem bootFields_map (ds : List Nat) (f : Nat) :
    (assocGet {} (bootFields ds) f).map = assocGet [] (bootMaps ds) f := by
  unfold bootFields assocGet
  have entry := assocGet?_mapKey (fun k m => ({ map := m, defects := fieldDefects ds k } : Field)) (bootMaps ds) f
  beta_reduce at entry
  rw [entry]
  cases assocGet? (bootMaps ds) f <;> rfl

theorem exec_boot {s : State} (h : s.booted = false) (ds : List Nat) :
    exec (.boot ds) s = .next { s with booted := true, fields := bootFields ds } :=
  congrArg Host.Outcome.next (if_neg (by simp [h]))

end Sys2Proof.Machine
end

section
/-! The steps of quads, the beginning of a quiesce, and O50. -/
namespace Sys2Proof.Machine

/-! ### The beginning of a quiesce (19 R360, R361) -/

/-- A tenant that a ladder of the owner's stops at once, if it runs. -/
def Tenant.quiesced (x : Tenant) (now : Nat) : Tenant :=
  if x.state = 3 then { x with state := 4, ladder := some { t0 := now, hard := some now, owner := true } } else x

theorem quiesced_of_running {x : Tenant} {now : Nat} (h : x.state = 3) : (x.quiesced now).state = 4 ∧
    ∃ w, (x.quiesced now).ladder = some w ∧ w.owner = true ∧ w.hard = some now ∧ w.acks = [] := by
  rw [Tenant.quiesced, if_pos h]
  exact ⟨rfl, _, rfl, rfl, rfl, rfl⟩

theorem quiesced_quiesced (x : Tenant) (now : Nat) : (x.quiesced now).quiesced now = x.quiesced now := by
  unfold Tenant.quiesced
  split <;> simp_all

def State.quiesceTenant (s : State) (p : Nat × Nat) : State := s.onTenant (tkey p.1 p.2) (·.quiesced s.now)

theorem quiesceTenant_now (s : State) (p : Nat × Nat) : (s.quiesceTenant p).now = s.now := by
  unfold State.quiesceTenant
  rw [onTenant_rest]

theorem quiesceTenant_tenantOf (s : State) (p : Nat × Nat) (k : Nat) :
    (s.quiesceTenant p).tenantOf k = if tkey p.1 p.2 = k then (s.tenantOf k).quiesced s.now else s.tenantOf k := by
  unfold State.quiesceTenant
  rw [onTenant_tenantOf]
  by_cases e : tkey p.1 p.2 = k
  · rw [e, if_pos rfl]
    split
    · rfl
    · rename_i absent
      rw [tenantOf_of_absent (by simpa using absent)]
      rfl
  · rw [if_neg e, if_neg (fun h => e h.1.symm)]

open Classical in
theorem quiesceTenants_tenantOf (ps : List (Nat × Nat)) (s : State) (k : Nat) :
    (ps.foldl State.quiesceTenant s).tenantOf k =
      if ∃ p ∈ ps, tkey p.1 p.2 = k then (s.tenantOf k).quiesced s.now else s.tenantOf k := by
  induction ps generalizing s with
  | nil => simp
  | cons p ps ih =>
    rw [List.foldl_cons, ih, quiesceTenant_now, quiesceTenant_tenantOf]
    by_cases here : tkey p.1 p.2 = k
    · simp only [here, if_true, quiesced_quiesced, ite_self, List.mem_cons, exists_eq_or_imp, true_or]
    · simp [here]

/-- What the beginning of a quiesce for a physical quad leaves: memory and maps as they are, and of the tenants it changes
those that the change touches. -/
structure State.Quiesces (s t : State) (v : Nat) : Prop where
  mem : t.mem = s.mem
  fields : t.fields = s.fields
  failing : v ∈ t.failing
  stopped : ∀ y ∈ State.touched { s with failing := addIn s.failing v }, (s.tenantOf (tkey y.1 y.2)).state = 3 →
    (t.tenantOf (tkey y.1 y.2)).state = 4 ∧
      ∃ w, (t.tenantOf (tkey y.1 y.2)).ladder = some w ∧ w.owner = true ∧ w.hard = some s.now ∧ w.acks = []
  others : ∀ k, (∀ y ∈ State.touched { s with failing := addIn s.failing v }, tkey y.1 y.2 ≠ k) →
    t.tenantOf k = s.tenantOf k

theorem mem_addIn (xs : List Nat) (x : Nat) : x ∈ addIn xs x := by
  unfold addIn
  split
  · rename_i h
    exact isIn_iff.mp h
  · exact List.mem_cons_self

theorem failQuad_quiesces {s : State} {f p : Nat} (h : ¬ (assocGet {} s.fields f).lists p) :
    s.Quiesces (s.failQuad f p) (81 * f + p) := by
  unfold State.failQuad
  rw [if_neg (mt isIn_lists.mp h)]
  generalize hu : ({ s with failing := addIn s.failing (81 * f + p) } : State) = u
  have kept := foldl_reads (fun t : State => (t.mem, t.fields, t.failing)) (f := State.quiesceTenant) (fun t y => by
    unfold State.quiesceTenant
    rw [onTenant_rest]) u.touched u
  obtain ⟨mem, fields, failing⟩ : _ ∧ _ ∧ _ := by simpa only [Prod.mk.injEq] using kept
  have same (k : Nat) : u.tenantOf k = s.tenantOf k := by rw [← hu]; rfl
  have now : u.now = s.now := by rw [← hu]
  have tenant (k : Nat) : u.quiesceStop.tenantOf k = _ := quiesceTenants_tenantOf u.touched u k
  refine ⟨?_, ?_, ?_, fun y hy hy3 => ?_, fun k hk => ?_⟩
  · exact mem.trans (by rw [← hu])
  · exact fields.trans (by rw [← hu])
  · have : u.quiesceStop.failing = u.failing := failing
    rw [this, ← hu]
    exact mem_addIn _ _
  · rw [tenant, if_pos ⟨y, hu ▸ hy, rfl⟩, same, now]
    exact quiesced_of_running hy3
  · rw [tenant, if_neg (fun ⟨y, hy, e⟩ => hk y (hu ▸ hy) e), same]

theorem mapAt_maps (s : State) (q : Nat) :
    mapAt s.maps q = (assocGet {} s.fields (fieldOfQuad q)).map.getD (q / 96 % 8 * 8 + q % 96 % 8) 0 := by
  unfold mapAt State.maps assocGet
  rw [assocGet?_map Field.map]
  cases assocGet? s.fields (fieldOfQuad q) <;> rfl

theorem mapAt_of_named {s : State} {q v : Nat}
    (h : (assocGet {} s.fields (fieldOfQuad q)).map[q / 96 % 8 * 8 + q % 96 % 8]? = some v) : mapAt s.maps q = v := by
  rw [mapAt_maps, List.getD_eq_getElem?_getD, h, Option.getD_some]

/-! ### Dead engines (10 R250) -/

/-- The neighbour in its row that serves a quad with a dead engine, by its number and by its code in `Quad.eng`. -/
def engineNear (quad : Nat) : Nat := if quad % 96 = 95 then quad - 1 else quad + 1
def engineSide (quad : Nat) : Nat := if quad % 96 = 95 then 2 else 1

theorem engineNear_ne (quad : Nat) : engineNear quad ≠ quad := by
  unfold engineNear
  split <;> omega

/-- The machine with the commands of a quad sent to its neighbour. -/
def State.engineMoved (s : State) (quad : Nat) : State :=
  (s.onQuad quad (fun q => { q with eng := engineSide quad })).onQuad (engineNear quad) (fun q => { q with guest := true })

/-- A quad whose engine is dead and whose neighbour can run no commands. -/
def State.orphaned (s : State) (p : Nat × Quad) : Prop :=
  p.2.eng ≠ 0 ∧ s.voidQuad p.1 = false ∧ ((s.quad (s.engineOf p.1)).eng ≠ 0 ∨ s.voidQuad (s.engineOf p.1) = true)

theorem orphaned_iff (s : State) (p : Nat × Quad) :
    (p.2.eng != 0 && !s.voidQuad p.1 && !s.engineUsable (s.engineOf p.1)) = true ↔ s.orphaned p := by
  simp [State.orphaned, State.engineUsable, and_assoc]

theorem orphan_none {s : State} (h : ∀ p ∈ s.quads, ¬ s.orphaned p) : s.orphan = none := by
  unfold State.orphan
  rw [List.find?_eq_none.mpr fun p hp => mt (orphaned_iff s p).mp (h p hp)]
  rfl

theorem assocGet?_mem {α : Type} {xs : List (Nat × α)} {k : Nat} {v : α} (h : assocGet? xs k = some v) : (k, v) ∈ xs := by
  induction xs with
  | nil => cases h
  | cons x xs ih =>
    unfold assocGet? at h
    split at h
    · rename_i e
      cases h
      exact e ▸ List.mem_cons_self
    · exact List.mem_cons_of_mem _ (ih h)

/-- A quad with a dead engine has an entry. -/
theorem quad_mem {s : State} {q : Nat} (h : (s.quad q).eng ≠ 0) : (q, s.quad q) ∈ s.quads := by
  cases e : assocGet? s.quads q with
  | none => exact absurd (by simp [State.quad, assocGet, e]) h
  | some v =>
    have same : s.quad q = v := by simp [State.quad, assocGet, e]
    exact same ▸ assocGet?_mem e

theorem orphan_only {s : State} {q : Nat} (h : s.orphaned (q, s.quad q)) (only : ∀ z ∈ s.quads, s.orphaned z → z.1 = q) :
    s.orphan = some q := by
  unfold State.orphan
  cases e : s.quads.find? (fun q => q.2.eng != 0 && !s.voidQuad q.1 && !s.engineUsable (s.engineOf q.1)) with
  | none => exact absurd ((orphaned_iff s _).mpr h) (List.find?_eq_none.mp e _ (quad_mem h.1))
  | some z =>
    have found := List.find?_some e
    exact congrArg some (only z (List.mem_of_find?_eq_some e) ((orphaned_iff s z).mp found))

theorem exec_engineDead_served {s : State} {quad : Nat} (h : (s.engineMoved quad).orphan = none) :
    exec (.engineDead quad) s = .next (s.engineMoved quad) := by
  change execEngineDead quad s = _
  unfold execEngineDead
  simp only [decide_eq_true_eq]
  split
  · rfl
  · rename_i q hq
    exact absurd (hq.symm.trans h) (by simp)

theorem exec_engineDead_orphaned {s : State} {quad q : Nat} (h : (s.engineMoved quad).orphan = some q) :
    exec (.engineDead quad) s =
      .next ((s.engineMoved quad).failQuad (fieldOfQuad q) (mapAt (s.engineMoved quad).maps q - 1)) := by
  change execEngineDead quad s = _
  unfold execEngineDead
  simp only [decide_eq_true_eq]
  split
  · rename_i hnone
    exact absurd (hnone.symm.trans h) (by simp)
  · rename_i z hz
    cases hz.symm.trans h
    rfl

/-! ### O50 -/

/-- A quad becomes one that a change of it gives; the others stay. -/
theorem onQuad_becomes (s : State) (quad : Nat) (f : Quad → Quad) : (s.onQuad quad f).mem = s.mem ∧
    (s.onQuad quad f).quad quad = f (s.quad quad) ∧ ∀ k, k ≠ quad → (s.onQuad quad f).quad k = s.quad k := by
  unfold State.onQuad
  exact ⟨rfl, by simp, fun k hk => by simp [hk]⟩

theorem engineMoved_quads (s : State) (quad : Nat) :
    (s.engineMoved quad).quad quad = { s.quad quad with eng := engineSide quad } ∧
      (s.engineMoved quad).quad (engineNear quad) = { s.quad (engineNear quad) with guest := true } := by
  have ne := engineNear_ne quad
  unfold State.engineMoved State.onQuad
  simp [ne, ne.symm]

theorem mayGate_of {s : State} {quad : Nat} (on : (s.quad quad).pwr = 3) (teams : ∀ t ∈ s.teams, t.2.core / 4 ≠ quad)
    (saved : ∀ t ∈ s.tenants, assocGet? t.2.saved quad = none) (idle : (s.quad quad).idleSince + 850000 ≤ s.now) :
    s.mayGate quad = true := by
  have free : s.quadBusy quad = false := by
    unfold State.quadBusy quadOfCore
    rw [Bool.or_eq_false_iff, List.any_eq_false, List.any_eq_false]
    exact ⟨fun t ht => by simpa using teams t ht, fun t ht => by simp [saved t ht]⟩
  simp [State.mayGate, on, free, idle]

theorem exec_voltageSample {s : State} {quad n : Nat} (h : n < 2 ^ 16) : ∃ t, exec (.voltageSample quad n) s = .next t ∧
    (t.quad quad).vmin = min n (s.quad quad).vmin ∧ ((s.quad quad).vmin ≤ n → t.quad quad = s.quad quad) := by
  refine ⟨_, congrArg Host.Outcome.next (if_neg (by omega)), ?_⟩
  dsimp only
  rw [(onQuad_becomes _ _ _).2.1]
  split
  · exact ⟨by dsimp only; omega, fun _ => by omega⟩
  · exact ⟨by omega, fun _ => rfl⟩

theorem exec_quadFailure {f prow pcol : Nat} (s : State) (hf : f < 84) (hr : prow < 9) (hc : pcol < 9) :
    exec (.quadFailure f prow pcol) s = .next (s.failQuad f (9 * prow + pcol)) :=
  congrArg Host.Outcome.next (if_pos ⟨hf, hr, hc⟩)

theorem exec_bypassFailure {s : State} {quad p : Nat} (h : mapAt s.maps quad = p + 1) :
    exec (.bypassFailure quad) s = .next (s.failQuad (fieldOfQuad quad) p) := by
  change execBypassFailure quad s = _
  unfold execBypassFailure
  simp [h]

theorem quadSteps : Obligations.QuadSteps := by
  unfold Obligations.QuadSteps
  refine ⟨fun s quad n => ?_, fun s ds hs => ?_, fun s f prow pcol => ?_⟩
  · intro becomes q
    have becomes_of {i : Instr} (g : Quad → Quad) {y : Quad} (h : exec i s = .next (s.onQuad quad g)) (hy : g q = y) :
        becomes i y := by
      obtain ⟨mem, here, others⟩ := onQuad_becomes s quad g
      exact ⟨_, h, mem, here.trans hy, others⟩
    refine ⟨fun h => becomes_of _ rfl (if_pos h), fun h => becomes_of _ rfl (if_pos h), fun h teams saved idle => ?_,
      becomes_of _ rfl rfl, becomes_of _ rfl rfl, becomes_of Quad.resetVoltage rfl rfl, exec_voltageSample, ?_, ?_⟩
    · exact becomes_of _ (congrArg Host.Outcome.next (if_pos (mayGate_of h teams saved idle))) rfl
    · intro served
      obtain ⟨here, near⟩ := engineMoved_quads s quad
      exact ⟨_, exec_engineDead_served (orphan_none served), rfl, here, near⟩
    · intro p orphan only hq x hd hv hm
      have named : mapAt (s.engineMoved quad).maps quad = p + 1 := mapAt_of_named ((hm _).mpr rfl)
      have fails := failQuad_quiesces (s := s.engineMoved quad) (f := fieldOfQuad quad) (not_or.mpr ⟨hd, hv⟩)
      have step := exec_engineDead_orphaned (orphan_only orphan only)
      rw [named, Nat.add_sub_cancel] at step
      exact ⟨_, step, fails.mem, fails.fields, fails.failing⟩
  · have boots := exec_boot hs ds
    refine ⟨_, boots, rfl, rfl, fun f i hf hi => ?_⟩
    intro v bad rowGood hv
    exact mapsFrom_boot ds f hf i v hv (by rw [← bootFields_map])
  · intro p x hf hr hc hd hv once quiesces
    have out : ¬ (assocGet {} s.fields f).lists p := not_or.mpr ⟨hd, hv⟩
    have quiesces_of {i : Instr} (h : exec i s = .next (s.failQuad f p)) : quiesces i := by
      have fails := failQuad_quiesces out
      exact ⟨_, h, fails.mem, fails.fields, fails.failing, fails.stopped, fails.others⟩
    refine ⟨quiesces_of (exec_quadFailure s hf hr hc), fun quad hq _ named => ?_, fun only => ?_⟩
    · subst hq
      exact quiesces_of (exec_bypassFailure (mapAt_of_named named))
    · exact ⟨_, rfl, quiesceEnd_retired (by omega) only out once⟩

end Sys2Proof.Machine
end

section
/-! The fields of a word (05 R90, R91): what reading one gives after another has been put, and a word put together again from
its own fields. -/
namespace Sys2Proof.Machine

/-! ### Reading after putting -/

/-- Below a field that is put, a word is as it was. -/
theorem put_mod {lo k f B : Nat} (h : k ∣ 2 ^ lo) : put lo f B % k = B % k := by
  obtain ⟨c, hc⟩ := h
  rw [put, hc, Nat.mul_left_comm, Nat.add_mul_mod_self_left]

theorem put_div_mod {lo m k f B : Nat} (h : m * k ∣ 2 ^ lo) : put lo f B / m % k = B / m % k := by
  rw [← Nat.mod_mul_right_div_self, put_mod h, Nat.mod_mul_right_div_self]

/-- Above a field that was empty, a word is as it was. -/
theorem put_div {lo n m B : Nat} (f : Fin n) (hm : 2 ^ lo * n ∣ m) (empty : B / 2 ^ lo % n = 0) :
    put lo f.val B / m = B / m := by
  have field : put lo f.val B / (2 ^ lo * n) = B / (2 ^ lo * n) := by
    obtain ⟨q, hq⟩ := Nat.dvd_of_mod_eq_zero empty
    have hn : 0 < n := f.pos
    rw [put, ← Nat.div_div_eq_div_mul, ← Nat.div_div_eq_div_mul, Nat.add_mul_div_right _ _ (by positivity), hq,
      Nat.mul_add_div hn, Nat.mul_div_cancel_left _ hn, Nat.div_eq_of_lt f.isLt, Nat.add_zero]
  obtain ⟨c, rfl⟩ := hm
  rw [← Nat.div_div_eq_div_mul, field, Nat.div_div_eq_div_mul]

/-- A field that was empty reads as what is put there. -/
theorem fin_put {lo n B : Nat} [NeZero n] (f : Fin n) (empty : B / 2 ^ lo % n = 0) : fin n (put lo f.val B) lo = f := by
  refine Fin.ext ((congrArg (· % n) (Nat.add_mul_div_right B f.val (by positivity))).trans ?_)
  rw [Nat.add_mod, empty, Nat.zero_add, Nat.mod_mod, Nat.mod_eq_of_lt f.isLt]

theorem fin_put_above {lo n k m B : Nat} [NeZero k] (f : Fin n) (hm : 2 ^ lo * n ∣ 2 ^ m) (empty : B / 2 ^ lo % n = 0) :
    fin k (put lo f.val B) m = fin k B m := congrArg (Fin.ofNat k) (put_div f hm empty)

/-! ### Putting what was read -/

/-- A word without its bits below M. -/
def cut (w M : Nat) : Nat := w / M * M

theorem cut_one (w : Nat) : cut w 1 = w := by rw [cut, Nat.div_one, Nat.mul_one]

theorem cut_of_lt {w M : Nat} (h : w < M) : cut w M = 0 := by rw [cut, Nat.div_eq_of_lt h, Nat.zero_mul]

/-- A word from a bit up is its next field there and the word above that. -/
theorem cut_eq_add (w M n : Nat) : cut w M = w / M % n * M + cut w (M * n) := by
  unfold cut
  rw [← Nat.div_div_eq_div_mul, Nat.mul_comm M n, ← Nat.mul_assoc, ← Nat.add_mul, Nat.mul_comm _ n, Nat.mod_add_div]

/-- What the value of a field of bits says of the word from there up. -/
theorem bits_eq_iff {w hi lo c : Nat} :
    bits w hi lo = c ↔ cut w (2 ^ lo) = c * 2 ^ lo + cut w (2 ^ lo * 2 ^ (hi - lo + 1)) := by
  rw [cut_eq_add w _ (2 ^ (hi - lo + 1)), Nat.add_right_cancel_iff, Nat.mul_left_inj (by positivity)]
  rfl

/-- A word's own field put onto something gives the word from there up when that something is the word above it; with an
offset c for the fixed bits of an encoding that lie below. -/
theorem put_fin_eq_add_cut {w lo n B M c : Nat} [NeZero n] (hM : 2 ^ lo = M) :
    put lo (fin n w lo).val B = c + cut w M ↔ B = c + cut w (M * n) := by
  subst hM
  rw [cut_eq_add w _ n, put, Nat.add_comm, Nat.add_left_comm]
  exact Nat.add_left_cancel_iff

theorem put_fin_eq_cut {w lo n B M : Nat} [NeZero n] (hM : 2 ^ lo = M) :
    put lo (fin n w lo).val B = cut w M ↔ B = cut w (M * n) := by
  simpa only [Nat.zero_add] using put_fin_eq_add_cut (w := w) (n := n) (B := B) (c := 0) hM

end Sys2Proof.Machine
end

section
/-! The tables of the decoder hold nothing but codes: an instruction that a table gives for a word has that word (05 R91,
R96 to R99), and O58. -/
namespace Sys2Proof.Machine

/-! ### The decoder without the operand rules -/

/-- The instruction that the fields of a word name, before the operand rules. -/
noncomputable def readWord (w : Nat) : Except Reject Instr :=
  if bits w 31 25 < 0x68 then (if bits w 31 25 < 0x30 then decodeAlu w else decodeMem w)
  else if bits w 31 25 < 0x78 then decodeCtl w else decodeEng w

theorem decode_eq (w : Nat) : decode w = checked (readWord w) := by
  unfold decode readWord decodeLow
  split <;> rfl

theorem checked_eq_ok {r : Except Reject Instr} {i : Instr} : checked r = .ok i ↔ r = .ok i ∧ i.defect = none := by
  cases r with
  | error e => simp [checked]
  | ok j =>
    cases hd : j.defect with
    | none =>
      simp only [checked, hd, Except.ok.injEq]
      exact ⟨fun h => ⟨h, h ▸ hd⟩, And.left⟩
    | some d =>
      simp only [checked, hd, Except.ok.injEq]
      exact ⟨nofun, fun ⟨h, hi⟩ => by rw [h, hi] at hd; cases hd⟩

theorem decode_eq_ok {w : Nat} {i : Instr} : decode w = .ok i ↔ readWord w = .ok i ∧ i.defect = none := by
  rw [decode_eq, checked_eq_ok]

/-! ### The answers of a table -/

/-- A table's answer for a word, if it is an instruction, has that word as its code. -/
def Encodes (w : Nat) (r : Except Reject Instr) : Prop := ∀ i, r = .ok i → encode i = some w

theorem encodes_error (w : Nat) (e : Reject) : Encodes w (.error e) := nofun

theorem encodes_ok {w : Nat} {i : Instr} (h : encode i = some (cut w 1)) : Encodes w (.ok i) := by
  rintro _ ⟨⟩
  rw [h, cut_one]

theorem encodes_unused {w : Nat} {i : Instr} {p : Prop} [Decidable p] (h : p → encode i = some (cut w 1)) :
    Encodes w (unused p i) := by
  unfold unused
  split
  · exact encodes_ok (h ‹_›)
  · exact encodes_error _ _

/-! ### The four groups of majors

In each row the major, the fn and the unused fields say what the word is above and between the operands (`bits_eq_iff`), and
the code takes the operands off one by one (`put_fin_eq_cut`). -/

/-- An ALU major (05 R97). -/
theorem encodes_decodeAlu {w : Nat} (hw : cut w (2 ^ 32) = 0) : Encodes w (decodeAlu w) := by
  delta decodeAlu decode00 decode01 decode02 decode03 decode04 decode08 decode09 decode0A decode0B decode0C decode0D
    decode0E decode0F decode10 decode11 decode12 decode13 decode14 decode15 decode18 decode19 decode1A decode1B
    decode1C decode1D decode1E decode20 decode21 decode22 decode23
  repeat' split
  all_goals first
    | exact encodes_error _ _
    | refine encodes_ok (congrArg some ?_)
    | refine encodes_unused fun _ => congrArg some ?_
  all_goals simp_all only [bits_eq_iff, put_fin_eq_cut, Nat.reducePow, Nat.reduceMul, Nat.reduceAdd, Nat.reduceSub,
    Nat.zero_mul, Nat.zero_add, Nat.add_zero]

/-- A memory major (05 R98). -/
theorem encodes_decodeMem {w : Nat} (hw : cut w (2 ^ 32) = 0) : Encodes w (decodeMem w) := by
  delta decodeMem decode30 decode31 decode32 decode33 decode34 decode35 decode36 decode38 decode39 decode3A decode3B
    decode3C decode3D decode3E decode3F decode40 decode41 decode42 decode43 decode44 decode45 decode46 decode47
    decode48 decode49 decode4A decode4B decode4C decode4D decode4E decode4F decode50 decode51 decode52 decode53
    decode54 decode55 decode56 decode57 decode58 decode59 decode5A decode5B decode5C decode5D decode5E decode5F
    decode60 decode61
  repeat' split
  all_goals first
    | exact encodes_error _ _
    | refine encodes_ok (congrArg some ?_)
    | refine encodes_unused fun _ => congrArg some ?_
  all_goals simp_all only [bits_eq_iff, put_fin_eq_cut, put_fin_eq_add_cut, Nat.reducePow, Nat.reduceMul,
    Nat.reduceAdd, Nat.reduceSub, Nat.zero_mul, Nat.zero_add, Nat.add_zero]

/-- A control major (05 R99). -/
theorem encodes_decodeCtl {w : Nat} (hw : cut w (2 ^ 32) = 0) : Encodes w (decodeCtl w) := by
  delta decodeCtl decode68 decode69 decode6A decode6B decode6C decode6D decode6E decode6F decode70 decode71 decode72
    decode74
  repeat' split
  all_goals first
    | exact encodes_error _ _
    | refine encodes_ok (congrArg some ?_)
    | refine encodes_unused fun _ => congrArg some ?_
  all_goals simp_all only [bits_eq_iff, put_fin_eq_cut, put_fin_eq_add_cut, Nat.reducePow, Nat.reduceMul,
    Nat.reduceAdd, Nat.reduceSub, Nat.zero_mul, Nat.zero_add, Nat.add_zero]

/-- An engine major, or `rep` (05 R99). -/
theorem encodes_decodeEng {w : Nat} (hw : cut w (2 ^ 32) = 0) : Encodes w (decodeEng w) := by
  delta decodeEng decode78 decode79 decode7A decode7B decode7C decode7F
  repeat' split
  all_goals first
    | exact encodes_error _ _
    | refine encodes_ok (congrArg some ?_)
    | refine encodes_unused fun _ => congrArg some ?_
  all_goals simp_all only [bits_eq_iff, put_fin_eq_cut, Nat.reducePow, Nat.reduceMul, Nat.reduceAdd, Nat.reduceSub,
    Nat.zero_mul, Nat.zero_add, Nat.add_zero]

theorem encodes_readWord {w : Nat} (hw : w < 2 ^ 32) : Encodes w (readWord w) := by
  have top : cut w (2 ^ 32) = 0 := cut_of_lt hw
  unfold readWord
  split
  · split
    · exact encodes_decodeAlu top
    · exact encodes_decodeMem top
  · split
    · exact encodes_decodeCtl top
    · exact encodes_decodeEng top

/-- Settles O58: every row of the decoder's tables gives an instruction whose code is the word. -/
theorem encodeDecode : Obligations.EncodeDecode := by
  unfold Obligations.EncodeDecode
  intro i w hw h
  obtain ⟨read, defect⟩ := decode_eq_ok.mp h
  exact ⟨encodes_readWord hw i read, defect⟩

end Sys2Proof.Machine
end

section
/-! Every code is read back as its instruction (05 R89 to R99), instruction by instruction; O57 and O59. -/
namespace Sys2Proof.Machine

/-! ### Codes

For each instruction, `cases` on its code gives the word that its operands are put into; the laws of `put` then read the
major, the fn, the unused fields and the operands from that word. The majors are taken in five ranges, each a proof small enough
to check by itself: outside its range an instruction contradicts the bounds on its major. -/

theorem lt_of_encode {i : Instr} {w : Nat} (h : encode i = some w) : w < 2 ^ 32 := by
  have above : w / 2 ^ 32 = 0 := by
    cases i
    all_goals cases h
    all_goals simp only [put_div, put_mod, put_div_mod, Nat.reduceDiv, Nat.reducePow, Nat.reduceMod, Nat.reduceMul,
      Nat.reduceDvd, Nat.div_one]
  exact (Nat.div_eq_zero_iff.mp above).resolve_left (by decide)

/-- Majors of integer words. -/
theorem readWord_of_encode_integer {i : Instr} {w : Nat} (h : encode i = some w)
    (hi : bits w 31 25 < 0x18) : readWord w = .ok i := by
  cases i
  all_goals cases h
  all_goals simp only [readWord, decodeAlu, bits, put_div, put_mod, put_div_mod, Nat.reduceDiv, Nat.reducePow,
    Nat.reduceMod, Nat.reduceMul, Nat.reduceSub, Nat.reduceAdd, Nat.reduceDvd, Nat.div_one, Nat.reduceLT, ↓reduceIte]
    at hi ⊢
  all_goals
    delta decode00 decode01 decode02 decode03 decode04 decode08 decode09 decode0A decode0B decode0C decode0D decode0E
      decode0F decode10 decode11 decode12 decode13 decode14 decode15
  all_goals simp only [bits, put_div, put_mod, put_div_mod, Nat.reduceDiv, Nat.reducePow, Nat.reduceMod,
    Nat.reduceMul, Nat.reduceSub, Nat.reduceAdd, Nat.reduceDvd, Nat.div_one, fin_put, fin_put_above, unused,
    ↓reduceIte]

/-- Majors of floating-point words and conversions. -/
theorem readWord_of_encode_float {i : Instr} {w : Nat} (h : encode i = some w) (lo : 0x18 ≤ bits w 31 25)
    (hi : bits w 31 25 < 0x20) : readWord w = .ok i := by
  cases i
  all_goals cases h
  all_goals simp only [readWord, decodeAlu, bits, put_div, put_mod, put_div_mod, Nat.reduceDiv, Nat.reducePow,
    Nat.reduceMod, Nat.reduceMul, Nat.reduceSub, Nat.reduceAdd, Nat.reduceDvd, Nat.div_one, Nat.reduceLT,
    Nat.reduceLeDiff, ↓reduceIte] at lo hi ⊢
  all_goals
    delta decode18 decode19 decode1A decode1B decode1C decode1D decode1E
  all_goals simp only [bits, put_div, put_mod, put_div_mod, Nat.reduceDiv, Nat.reducePow, Nat.reduceMod,
    Nat.reduceMul, Nat.reduceSub, Nat.reduceAdd, Nat.reduceDvd, Nat.div_one, fin_put, fin_put_above, unused,
    ↓reduceIte]

/-- Majors of collectives, special registers, loads and stores. -/
theorem readWord_of_encode_access {i : Instr} {w : Nat} (h : encode i = some w) (lo : 0x20 ≤ bits w 31 25)
    (hi : bits w 31 25 < 0x48) : readWord w = .ok i := by
  cases i
  all_goals cases h
  all_goals simp only [readWord, decodeAlu, decodeMem, bits, put_div, put_mod, put_div_mod, Nat.reduceDiv,
    Nat.reducePow, Nat.reduceMod, Nat.reduceMul, Nat.reduceSub, Nat.reduceAdd, Nat.reduceDvd, Nat.div_one,
    Nat.reduceLT, Nat.reduceLeDiff, ↓reduceIte] at lo hi ⊢
  all_goals
    delta decode20 decode21 decode22 decode23 decode30 decode31 decode32 decode33 decode34 decode35 decode36 decode38
      decode39 decode3A decode3B decode3C decode3D decode3E decode3F decode40 decode41 decode42 decode43 decode44
      decode45 decode46 decode47
  all_goals simp only [bits, put_div, put_mod, put_div_mod, Nat.reduceDiv, Nat.reducePow, Nat.reduceMod,
    Nat.reduceMul, Nat.reduceSub, Nat.reduceAdd, Nat.reduceDvd, Nat.div_one, fin_put, fin_put_above, unused,
    ↓reduceIte]

/-- Majors of atomics and reductions. -/
theorem readWord_of_encode_atomic {i : Instr} {w : Nat} (h : encode i = some w) (lo : 0x48 ≤ bits w 31 25)
    (hi : bits w 31 25 < 0x5C) : readWord w = .ok i := by
  cases i
  all_goals cases h
  all_goals simp only [readWord, decodeMem, bits, put_div, put_mod, put_div_mod, Nat.reduceDiv, Nat.reducePow,
    Nat.reduceMod, Nat.reduceMul, Nat.reduceSub, Nat.reduceAdd, Nat.reduceDvd, Nat.div_one, Nat.reduceLT,
    Nat.reduceLeDiff, ↓reduceIte] at lo hi ⊢
  all_goals
    delta decode48 decode49 decode4A decode4B decode4C decode4D decode4E decode4F decode50 decode51 decode52 decode53
      decode54 decode55 decode56 decode57 decode58 decode59 decode5A decode5B
  all_goals simp only [bits, put_div, put_mod, put_div_mod, Nat.reduceDiv, Nat.reducePow, Nat.reduceMod,
    Nat.reduceMul, Nat.reduceSub, Nat.reduceAdd, Nat.reduceDvd, Nat.div_one, fin_put, fin_put_above, unused,
    ↓reduceIte]

/-- Majors of fences, rounds and monitors, of control words and of engine words. -/
theorem readWord_of_encode_control {i : Instr} {w : Nat} (h : encode i = some w) (lo : 0x5C ≤ bits w 31 25)
     : readWord w = .ok i := by
  cases i
  all_goals cases h
  all_goals simp only [readWord, decodeMem, decodeCtl, decodeEng, bits, put_div, put_mod, put_div_mod, Nat.reduceDiv,
    Nat.reducePow, Nat.reduceMod, Nat.reduceMul, Nat.reduceSub, Nat.reduceAdd, Nat.reduceDvd, Nat.div_one,
    Nat.reduceLT, Nat.reduceLeDiff, ↓reduceIte] at lo ⊢
  all_goals
    delta decode5C decode5D decode5E decode5F decode60 decode61 decode68 decode69 decode6A decode6B decode6C decode6D
      decode6E decode6F decode70 decode71 decode72 decode74 decode78 decode79 decode7A decode7B decode7C decode7F
  all_goals simp only [bits, put_div, put_mod, put_div_mod, Nat.reduceDiv, Nat.reducePow, Nat.reduceMod,
    Nat.reduceMul, Nat.reduceSub, Nat.reduceAdd, Nat.reduceDvd, Nat.div_one, fin_put, fin_put_above, unused,
    ↓reduceIte, and_self]

/-- The fields of a code name its instruction. -/
theorem readWord_of_encode {i : Instr} {w : Nat} (h : encode i = some w) : readWord w = .ok i := by
  rcases Nat.lt_or_ge (bits w 31 25) 0x18 with hi | lo
  · exact readWord_of_encode_integer h hi
  rcases Nat.lt_or_ge (bits w 31 25) 0x20 with hi | lo
  · exact readWord_of_encode_float h ‹_› hi
  rcases Nat.lt_or_ge (bits w 31 25) 0x48 with hi | lo
  · exact readWord_of_encode_access h ‹_› hi
  rcases Nat.lt_or_ge (bits w 31 25) 0x5C with hi | lo
  · exact readWord_of_encode_atomic h ‹_› hi
  · exact readWord_of_encode_control h lo

/-- Settles O57: the fields of a code name its instruction, and a well-formed one passes the operand rules. -/
theorem decodeEncode : Obligations.DecodeEncode := by
  unfold Obligations.DecodeEncode
  intro i w defect h
  exact ⟨lt_of_encode h, decode_eq_ok.mpr ⟨readWord_of_encode h, defect⟩⟩

/-! ### Words written out -/

/-- The manual's `atom.add.rel.part v14, [v12:v13], v4` in the listing of 05: order 2, scope 2 (05 R94). -/
theorem decode_atomAdd_rel_part : decode 0x91438604 = .ok (.atomAdd 2 2 14 12 4) := rfl

/-- Refutes O59: the statement gives the word 0x91438604 the scope 1, field; the manual's listing and the decoder give it the
scope 2, partition. -/
theorem not_decodeWords : ¬ Obligations.DecodeWords := by
  unfold Obligations.DecodeWords
  rintro ⟨⟨-, -, -, -, -, -, -, scope, -⟩, -⟩
  rw [decode_atomAdd_rel_part] at scope
  cases scope

end Sys2Proof.Machine
end

section
/-! One step of the machine: the act that is chosen, a word as it issues, and O60 (05 R89, R96, 06 R111). -/
namespace Sys2Proof.Machine

/-- Where an act may happen, the one that happens is among them. -/
theorem choose_performs (s : State) {as : List Act} (h : as ≠ []) : ∃ a ∈ as, s.choose as = s.perform a := by
  match as with
  | [a] => exact ⟨a, List.mem_singleton_self a, rfl⟩
  | a :: b :: rest =>
    refine ⟨_, ?_, rfl⟩
    generalize s.pick 20 (rest.length + 2) = n
    rcases Nat.lt_or_ge n (a :: b :: rest).length with hn | hn
    · rw [List.getD_eq_getElem _ _ hn]
      exact List.getElem_mem hn
    · rw [List.getD_eq_default _ _ hn]
      exact List.mem_cons_self

theorem step_of_single {s : State} {a : Act} (h : s.passTime.acts = [a]) : step s = s.passTime.perform a := by
  unfold step
  rw [h]
  rfl

theorem runWord_of_decode {w : Nat} {i : Instr} (h : decode w = .ok i) (s : State) : runWord w s = exec i s := by
  unfold runWord
  rw [h]

theorem runWord_of_reject {w : Nat} {r : Reject} (h : decode w = .error r) (s : State) :
    runWord w s = .next (s.trapWord 0x02) := by
  unfold runWord
  rw [h]

theorem issueWord_runs {s : State} {gid cid : Nat} {g : Gang} {c : Cohort} (hg : s.gang? gid = some g)
    (hc : assocGet? g.cohorts cid = some c) : s.issueWord gid cid =
      issuedOutcome gid g c s.nextId (runWord c.word { s.queueUp gid cid with cur := (gid, cid) }) := by
  unfold State.issueWord
  simp only [hg, hc]

theorem takeInput_runs {s : State} {i : Instr} {rest : List Instr} (h : s.inputs = i :: rest) (hi : i.isWord = false) :
    s.takeInput = exec i { s with inputs := rest } := by
  unfold State.takeInput
  simp only [h, hi, Bool.false_eq_true, if_false]

/-- Settles O60: the choice among acts, and the word or the input where it is the only one. -/
theorem stepRunsWord : Obligations.StepRunsWord := by
  unfold Obligations.StepRunsWord
  intro s p
  refine ⟨fun idle => ?_, fun acts => choose_performs p acts, ?_,
    fun i rest only inputs hi => (step_of_single only).trans (takeInput_runs inputs hi)⟩
  · change p.choose p.acts = _
    rw [idle]
    rfl
  · intro gid cid g c only hg hc u
    have runs : step s = issuedOutcome gid g c p.nextId (runWord c.word u) :=
      (step_of_single only).trans (issueWord_runs hg hc)
    refine ⟨fun i h => ?_, fun r h => ?_⟩
    · rw [runs, runWord_of_decode h]
    · rw [runs, runWord_of_reject h]
      rfl

end Sys2Proof.Machine
end

section
/-! The trap of a word that its LEVEL may not issue (05 R100, 17 R321 to R325), and O20. -/
namespace Sys2Proof.Machine

/-- The lowest set bit of a number is set. -/
theorem testBit_lowBit {n x : Nat} (hx : x ≠ 0) (hn : x < 2 ^ n) : x.testBit (lowBit n x) = true := by
  induction n generalizing x with
  | zero => omega
  | succ n ih =>
    unfold lowBit
    split
    · rename_i odd
      rw [Nat.testBit_zero]
      simpa using odd
    · rename_i even
      have even : x % 2 = 0 := by simpa using even
      rw [Nat.testBit_succ]
      exact ih (by omega) (by omega)

/-- The leader of a cohort that has a lane is one of its lanes. -/
theorem leader_mem {x : Acting} (h : x.co.mask ≠ 0) : x.leader ∈ x.lanes :=
  (lanesOf_mem ..).mpr (testBit_lowBit (fun e => h (BitVec.eq_of_toNat_eq e)) x.co.mask.isLt)

/-- The frame that a cohort enters at its word with a trap that names the header of its clause. -/
def Acting.wordFrame (x : Acting) (cause : Nat) : Frame :=
  TrapInfo.frame { cause := cause, taddr := x.co.hdr } (x.gang.lane x.leader) x.co.mask x.pc x.co.repIdx x.co.word false

/-- The gang of a cohort that has entered that frame. -/
def Acting.trapped (s : State) (x : Acting) (cause : Nat) : Gang :=
  (x.gang.without s.cur.2).entered x.co.mask s.nextId (x.wordFrame cause)
    (s.vector x.team (x.wordFrame cause).level)

/-- A fault that is no translation fault asks for no page (17 R323). -/
theorem pageRequestTo_none (s : State) (t : Team) (level : Nat) {i : TrapInfo} (h : i.cause < 0x06) :
    s.pageRequestTo t level i = none := if_neg (fun translation => absurd translation.1 (Nat.not_le_of_lt h))

/-- Lanes whose fault asks for no page enter a frame. -/
theorem trapLanes_enters {s : State} {gid : Nat} {g : Gang} {t : Team} {i : TrapInfo} (hg : s.gang? gid = some g)
    (ht : s.team? g.team = some t) (h : i.cause < 0x06) (m : Mask) (pc : Pc) (rep tword : Nat) :
    s.trapLanes gid m pc rep tword i = s.enterFrame gid m pc rep tword false i := by
  unfold State.trapLanes
  simp only [hg, ht, pageRequestTo_none s t _ h]

theorem act_of_acting {s : State} {x : Acting} (hx : s.acting = some x) (f : Acting → State) : s.act f = f x := by
  unfold State.act
  rw [hx]

/-- A cohort outside every handler takes the trap of an illegal or privileged word as one sub-gang. -/
theorem trapWord_enters {s : State} {x : Acting} (hx : s.acting = some x) (htrap : x.mayTrap) (hm : x.co.mask ≠ 0)
    {cause : Nat} (hc : cause < 0x06) : s.trapWord cause =
      State.setGang { s.setGang x.gid (x.gang.without s.cur.2) with nextId := s.nextId + 1 } x.gid (x.trapped s cause) := by
  obtain ⟨-, -, -, ht⟩ := acting_gang hx
  have left : (s.setGang x.gid (x.gang.without s.cur.2)).gang? x.gid = some (x.gang.without s.cur.2) :=
    assocGet?_assocSet_self ..
  have traps : s.trapWord cause = (s.leave x.co.mask).trapLanes x.gid x.co.mask x.pc x.co.repIdx x.co.word
      { cause := cause, taddr := x.co.hdr } := by
    refine (act_of_acting hx _).trans ((act_of_acting hx _).trans ?_)
    rw [BitVec.and_self, if_neg hm]
  rw [traps, leave_all hx, trapLanes_enters left ht hc]
  exact enterFrame_enters left ht (htrap.1 x.leader (leader_mem hm)) htrap.2 x.pc x.co.repIdx x.co.word false _

/-- That trap is taken by all lanes of the cohort, and nothing outside its gang changes. -/
theorem trapWord_takes {s : State} {x : Acting} (hx : s.acting = some x) (htrap : x.mayTrap) (hm : x.co.mask ≠ 0)
    {cause : Nat} (hc : cause < 0x06) :
    TookTrap s (s.trapWord cause) x x.co.mask cause 0 x.co.hdr ∧ GangOnly s (s.trapWord cause) x.gid := by
  rw [trapWord_enters hx htrap hm hc]
  refine ⟨⟨x.trapped s cause, assocGet?_assocSet_self .., s.nextId, x.wordFrame cause,
    List.mem_append_right _ (List.mem_singleton_self _), rfl, rfl, rfl, rfl, rfl, rfl, rfl, rfl, rfl, rfl, fun l hl hlen => ?_⟩,
    rfl, fun k hk => ?_, fun k => rfl⟩
  · have lane := entered_lane (g := x.gang.without s.cur.2) (id := s.nextId) (f := x.wordFrame cause)
      (vector := s.vector x.team (x.wordFrame cause).level) hlen hl
    exact ⟨congrArg Lane.frame lane, congrArg Lane.level lane, congrArg Lane.pc lane, congrArg Lane.rep lane,
      entered_regs ..⟩
  · exact (assocGet?_assocSet_ne _ _ hk).trans (assocGet?_assocSet_ne _ _ hk)

/-! ### The words that a level may not issue -/

/-- LEVEL 0 issues no privileged word (05 R100). -/
theorem privileged_level0 {s : State} {x : Acting} (hx : s.acting = some x) (h : x.level = 0) (k : Acting → State) :
    s.privileged k = s.trapWord 0x03 := (act_of_acting hx _).trans (if_pos h)

theorem privileged_above {s : State} {x : Acting} (hx : s.acting = some x) (h : x.level ≠ 0) (k : Acting → State) :
    s.privileged k = k x := (act_of_acting hx _).trans (if_neg h)

/-- `tlbi.ta` is for LEVEL 2 and above (17 R333). -/
theorem tlbiTa_level1 {s : State} {x : Acting} (hx : s.acting = some x) (h : x.level = 1) (addr tenant : Acting → Nat → Nat) :
    s.tlbi 1 addr tenant = s.trapWord 0x03 := (privileged_above hx (by omega) _).trans (if_pos ⟨h, rfl⟩)

/-- `halt.other` is for LEVEL 2 and above (17 R331). -/
theorem haltOther_below2 {s : State} {x : Acting} (hx : s.acting = some x) (h : x.level < 2) (a b : Fin 128) :
    exec (.haltOther a b) s = .next (s.trapWord 0x03) :=
  congrArg Host.Outcome.next ((act_of_acting hx _).trans (if_pos h))

/-- HOSTMASK has no owner level (17 R326). -/
theorem sysw_hostmask_level3 {s : State} {x : Acting} (hx : s.acting = some x) (h : x.level = 3) (a : Fin 128) :
    exec (.sysw a 32) s = .next (s.trapWord 0x03) :=
  congrArg Host.Outcome.next ((privileged_above hx (by omega) _).trans (if_pos ⟨rfl, h.ge⟩))

/-- The privileged words of LEVEL 0, one after another. -/
theorem exec_level0 {s : State} {x : Acting} (hx : s.acting = some x) (h : x.level = 0) (d a b : Fin 128) :
    ∀ i ∈ [Instr.sysr d a, .sysw a b, .cfgr d a, .cfgw a b, .tlbiVa d a, .tlbiTa d a, .tlbiAll d, .eret,
      .trlane d a b, .twlane d a b, .haltLaunch b, .haltTenant b, .haltOther a b], exec i s = .next (s.trapWord 0x03) := by
  have traps (k : Acting → State) : Host.Outcome.next (s.privileged k) =
      (.next (s.trapWord 0x03) : Host.Outcome State Fault Refusal) := congrArg _ (privileged_level0 hx h k)
  simp only [List.forall_mem_cons]
  exact ⟨traps _, traps _, traps _, traps _, traps _, traps _, traps _, traps _, traps _, traps _, traps _, traps _,
    haltOther_below2 hx (by omega) a b, nofun⟩

/-- Settles O20: each of these words is the trap 0x03 of its cohort at the level named. -/
theorem privilegeTraps : Obligations.PrivilegeTraps := by
  unfold Obligations.PrivilegeTraps
  intro d a b s x hx htrap hm traps
  have trapped {i : Instr} (h : exec i s = .next (s.trapWord 0x03)) : traps i :=
    ⟨_, h, trapWord_takes hx htrap hm (by decide)⟩
  refine ⟨fun h i hi => trapped (exec_level0 hx h d a b i hi), fun h => ⟨?_, ?_⟩, fun h n hn => ?_⟩
  · exact trapped (congrArg Host.Outcome.next (tlbiTa_level1 hx h _ _))
  · exact trapped (haltOther_below2 hx (by omega) a b)
  · subst hn
    exact trapped (sysw_hostmask_level3 hx h a)

end Sys2Proof.Machine
end

section
/-! What a word of control leaves to its cohort: the acting gang as it stands in the middle of a word, the counters of its lanes
as they go on or leave for a target (06 R110, R113, R117). -/
namespace Sys2Proof.Machine

/-- Of two values set under one key the second stays. -/
theorem assocSet_assocSet {α : Type} (xs : List (Nat × α)) (k : Nat) (v w : α) :
    assocSet (assocSet xs k v) k w = assocSet xs k w := by
  induction xs with
  | nil => simp [assocSet]
  | cons p xs ih =>
    obtain ⟨j, y⟩ := p
    by_cases before : k < j
    · simp [assocSet, before]
    · by_cases here : j = k
      · simp [assocSet, here]
      · simp [assocSet, before, here, ih]

theorem mapLanes_length (g : Gang) (m : Mask) (f : Nat → Lane → Lane) :
    (g.mapLanes m f).lanes.length = g.lanes.length := mapLanesFrom_length ..

/-! ### The acting gang in the middle of a word -/

theorem GangStep.only {s t : State} {k : Nat} (h : GangStep s t k) : GangOnly s t k := ⟨h.rest, h.others, h.tenants⟩

namespace GangOnly

/-- Outside its gang a word changes the supply of identifiers and the counters of tenants alone. -/
theorem eq {s t : State} {k : Nat} (h : GangOnly s t k) :
    t = { s with gangs := t.gangs, nextId := t.nextId, tenants := t.tenants } := by
  have rest := h.rest
  cases s
  cases t
  simp only [State.mk.injEq] at rest ⊢
  simp_all

theorem mem {s t : State} {k : Nat} (h : GangOnly s t k) : t.mem = s.mem := by rw [h.eq]
theorem teams {s t : State} {k : Nat} (h : GangOnly s t k) : t.teams = s.teams := by rw [h.eq]
theorem cores {s t : State} {k : Nat} (h : GangOnly s t k) : t.cores = s.cores := by rw [h.eq]

/-- A word of a gang moves no trap vector (17 R325). -/
theorem vector {s t : State} {k : Nat} (h : GangOnly s t k) (tm : Team) (level : Nat) :
    t.vector tm level = s.vector tm level := by
  have tvec (i : Nat) : (t.tenantOf i).tvec = (s.tenantOf i).tvec := by rw [← h.tenants i]
  have lease (i : Nat) : t.lease? i = s.lease? i := by rw [h.eq]; rfl
  have owner : t.ownerTvec = s.ownerTvec := by rw [h.eq]
  unfold State.vector
  simp only [tvec, lease, owner]

end GangOnly

/-- In a state in the middle of a word the acting gang has become `g`, and nothing outside the gang has changed but the supply
of identifiers and the counters of tenants. -/
structure GangBecomes (s u : State) (k : Nat) (g : Gang) : Prop where
  acts : s.cur.1 = k
  rest : u = { s with gangs := assocSet s.gangs k g, nextId := u.nextId, tenants := u.tenants }
  tenants : ∀ i, { u.tenantOf i with counters := (s.tenantOf i).counters } = s.tenantOf i

/-- A gang whose cohort has issued a word (06 R111, 17 R335). -/
def Gang.issued (g : Gang) (now : Nat) : Gang := { g with seq := g.seq + 1, lastIssue := now }

/-- The gang of a cohort whose word has issued. -/
def Acting.issued (s : State) (x : Acting) : Gang := x.gang.issued s.now

theorem issued_keeps (s : State) (x : Acting) : GangKeeps x.gang (x.issued s) :=
  ⟨fun _ => rfl, rfl, rfl, rfl, rfl, rfl, rfl, rfl, rfl, rfl, rfl⟩

/-- A gang of which lanes leave a cohort, which ends without lanes (06 R110). -/
def Gang.leaving (g : Gang) (cid : Nat) (m : Mask) : Gang :=
  match assocGet? g.cohorts cid with
  | none => g
  | some c =>
    if c.mask &&& ~~~m = 0 then { g with cohorts := assocErase g.cohorts cid }
    else { g with cohorts := assocSet g.cohorts cid { c with mask := c.mask &&& ~~~m } }

/-- A gang with one of its cohorts changed. -/
def Gang.onCohort (g : Gang) (cid : Nat) (f : Cohort → Cohort) : Gang :=
  match assocGet? g.cohorts cid with
  | none => g
  | some c => { g with cohorts := assocSet g.cohorts cid (f c) }

/-- A gang with the counters of some lanes set. -/
def Gang.placed (g : Gang) (m : Mask) (pc : Nat → Pc) (rep : Nat) : Gang :=
  g.mapLanes m (fun l x => { x with pc := pc l, rep := rep })

namespace GangBecomes
variable {s u : State} {k : Nat} {g : Gang}

theorem cur (h : GangBecomes s u k g) : u.cur = s.cur := by rw [h.rest]

theorem actor (h : GangBecomes s u k g) : u.cur.1 = k := by rw [h.cur, h.acts]

theorem gangs (h : GangBecomes s u k g) : u.gangs = assocSet s.gangs k g := by rw [h.rest]

theorem gang (h : GangBecomes s u k g) : u.gang? k = some g := by
  unfold State.gang?
  rw [h.gangs, assocGet?_assocSet_self]

theorem only (h : GangBecomes s u k g) : GangOnly s u k where
  rest := by rw [h.rest]
  others j hj := by
    unfold State.gang?
    rw [h.gangs, assocGet?_assocSet_ne _ _ hj]
  tenants := h.tenants

theorem setGang (h : GangBecomes s u k g) (g' : Gang) : GangBecomes s (u.setGang k g') k g' where
  acts := h.acts
  rest := by
    unfold State.setGang
    rw [h.gangs, assocSet_assocSet, h.rest]
  tenants := h.tenants

theorem onGang (h : GangBecomes s u k g) (f : Gang → Gang) : GangBecomes s (u.onGang k f) k (f g) := by
  rw [onGang_eq u k f h.gang]
  exact h.setGang _

theorem nextId (h : GangBecomes s u k g) (n : Nat) : GangBecomes s { u with nextId := n } k g where
  acts := h.acts
  rest := by rw [h.rest]
  tenants := h.tenants

theorem setPcs (h : GangBecomes s u k g) (m : Mask) (pc : Nat → Pc) (rep : Nat) :
    GangBecomes s (u.setPcs m pc rep) k (g.placed m pc rep) := by
  unfold State.setPcs
  rw [h.actor]
  exact h.onGang _

theorem leave (h : GangBecomes s u k g) (m : Mask) : GangBecomes s (u.leave m) k (g.leaving s.cur.2 m) := by
  unfold State.leave
  rw [h.actor, h.cur]
  exact h.onGang _

theorem onCohort (h : GangBecomes s u k g) (f : Cohort → Cohort) :
    GangBecomes s (u.onCohort f) k (g.onCohort s.cur.2 f) := by
  unfold State.onCohort
  rw [h.actor, h.cur]
  exact h.onGang _

theorem endCohort (h : GangBecomes s u k g) : GangBecomes s u.endCohort k (g.without s.cur.2) := by
  unfold State.endCohort
  rw [h.actor, h.cur]
  exact h.onGang _

theorem tally (h : GangBecomes s u k g) (part i n : Nat) : GangBecomes s (u.tally part i n) k g where
  acts := h.acts
  rest := by
    rw [tally_rest, h.rest]
  tenants j := by rw [← h.tenants j, ← (gangStep_tally u k part i n).tenants j]

theorem issue (h : GangBecomes s u k g) : GangBecomes s u.issue k (g.issued u.now) := by
  unfold State.issue
  rw [h.actor]
  have issued := h.onGang (fun g => { g with seq := g.seq + 1, lastIssue := u.now })
  split
  · exact issued
  · exact issued.tally ..

/-- What a word does to other parts of the machine is beside what it does to its gang. -/
theorem withTeams (h : GangBecomes s u k g) (ts : List (Nat × Team)) :
    GangBecomes { s with teams := ts } { u with teams := ts } k g where
  acts := h.acts
  rest := by rw [h.rest]
  tenants := h.tenants

theorem withCores (h : GangBecomes s u k g) (cs : List (Nat × Core)) :
    GangBecomes { s with cores := cs } { u with cores := cs } k g where
  acts := h.acts
  rest := by rw [h.rest]
  tenants := h.tenants

theorem foldl {α : Type} {f : State → α → State} {f' : Gang → α → Gang}
    (hf : ∀ u g a, GangBecomes s u k g → GangBecomes s (f u a) k (f' g a)) (as : List α) (h : GangBecomes s u k g) :
    GangBecomes s (as.foldl f u) k (as.foldl f' g) := by
  induction as generalizing u g with
  | nil => exact h
  | cons a as ih => exact ih (hf u g a h)

/-- A word whose gang keeps its lanes is a step inside the gang. -/
theorem step (h : GangBecomes s u k g) {g₀ : Gang} (hg : s.gang? k = some g₀) (keeps : GangKeeps g₀ g) : GangStep s u k where
  rest := h.only.rest
  mem a := by rw [h.only.eq]
  host a := by rw [h.only.eq]
  abuf c a := by unfold State.core; rw [h.only.cores]
  wbuf c a := by unfold State.core; rw [h.only.cores]
  others := h.only.others
  tenants := h.only.tenants
  lanes g₁ h₁ := by
    cases hg.symm.trans h₁
    obtain ⟨lanes, frames, stack, gone, arrived, due, nregs, width, team, core, floors⟩ := keeps
    exact ⟨g, h.gang, lanes, frames, stack, gone, arrived, due, nregs, width, team, core, floors⟩

end GangBecomes

/-- The first change of the acting gang. -/
theorem becomes_onGang {s : State} {x : Acting} (hx : s.acting = some x) (f : Gang → Gang) :
    GangBecomes s (s.onGang s.cur.1 f) x.gid (f x.gang) := by
  obtain ⟨gid, hg, -, -⟩ := acting_gang hx
  rw [← gid, onGang_eq s _ _ hg]
  exact ⟨gid.symm, rfl, fun _ => rfl⟩

/-- A word issues (06 R111). -/
theorem becomes_issue {s : State} {x : Acting} (hx : s.acting = some x) : GangBecomes s s.issue x.gid (x.issued s) := by
  unfold State.issue
  rw [hx]
  exact (becomes_onGang hx _).tally ..

/-- Lanes leave the cohort before its word issues. -/
theorem becomes_leave {s : State} {x : Acting} (hx : s.acting = some x) (m : Mask) :
    GangBecomes s (s.leave m) x.gid (x.gang.leaving s.cur.2 m) := becomes_onGang hx _

/-- The cohort that acts in the middle of a word, while it has lanes. -/
theorem acting_of_becomes {s u : State} {k : Nat} {g : Gang} {c : Cohort} {tm : Team} (h : GangBecomes s u k g)
    (hc : assocGet? g.cohorts s.cur.2 = some c) (ht : s.team? g.team = some tm) :
    u.acting = some ⟨k, g, s.cur.2, c, tm⟩ := by
  have team : u.team? g.team = some tm := by
    rw [← ht, h.rest]
    rfl
  unfold State.acting
  rw [h.actor, h.gang, h.cur]
  simp only [hc, team]

theorem acting_ended {s u : State} {k : Nat} {g : Gang} (h : GangBecomes s u k g)
    (hc : assocGet? g.cohorts s.cur.2 = none) : u.acting = none := by
  unfold State.acting
  rw [h.actor, h.gang, h.cur]
  simp only [hc]

theorem finish_ended {u : State} (h : u.acting = none) : u.finish = u := by
  unfold State.finish State.act
  rw [h]

/-! ### Lanes that go on -/

/-- A gang whose lanes have moved: nothing of a lane changes but where it stands, and its counter is that which the one before
gives. -/
structure Gang.Moves (g h : Gang) (move : Nat → Pc → Pc) : Prop where
  keeps : GangKeeps g h
  seq : h.seq = g.seq
  results : h.results = g.results
  length : h.lanes.length = g.lanes.length
  pcs : ∀ l, l < g.lanes.length → (h.lane l).pc = move l (g.lane l).pc

/-- The lanes of a mask at a counter of their own, the others where they are. -/
def movedBy (m : Mask) (pc : Nat → Pc) (l : Nat) (p : Pc) : Pc := if m.getLsbD l = true then pc l else p

theorem Gang.Moves.refl (g : Gang) : g.Moves g (fun _ p => p) := ⟨.refl g, rfl, rfl, rfl, fun _ _ => rfl⟩

theorem Gang.Moves.trans {g h i : Gang} {f f' : Nat → Pc → Pc} (x : g.Moves h f) (y : h.Moves i f') :
    g.Moves i (fun l p => f' l (f l p)) :=
  ⟨x.keeps.trans y.keeps, y.seq.trans x.seq, y.results.trans x.results, y.length.trans x.length, fun l hl => by
    rw [y.pcs l (x.length ▸ hl), x.pcs l hl]⟩

theorem Gang.Moves.congr {g h : Gang} {f f' : Nat → Pc → Pc} (x : g.Moves h f)
    (same : ∀ l, l < g.lanes.length → f l (g.lane l).pc = f' l (g.lane l).pc) : g.Moves h f' :=
  ⟨x.keeps, x.seq, x.results, x.length, fun l hl => (x.pcs l hl).trans (same l hl)⟩

theorem placed_moves (g : Gang) (m : Mask) (pc : Nat → Pc) (rep : Nat) :
    g.Moves (g.placed m pc rep) (movedBy m pc) where
  keeps := gangKeeps_mapLanes g m _ (fun _ _ => rfl)
  seq := rfl
  results := rfl
  length := mapLanes_length ..
  pcs l hl := by
    unfold Gang.placed movedBy
    rw [mapLanes_lane]
    by_cases hm : m.getLsbD l = true
    · rw [if_pos ⟨hl, hm⟩, if_pos hm]
    · rw [if_neg (fun h => hm h.2), if_neg hm]

/-- What a change of cohorts, parked groups and counts of cycles leaves is a gang whose lanes have not moved. -/
theorem rest_moves (g : Gang) (cs : List (Nat × Cohort)) (ws : List (Nat × Wait)) (n : Nat) :
    g.Moves { g with cohorts := cs, waits := ws, parkedSince := n } (fun _ p => p) :=
  ⟨⟨fun _ => rfl, rfl, rfl, rfl, rfl, rfl, rfl, rfl, rfl, rfl, rfl⟩, rfl, rfl, rfl, fun _ _ => rfl⟩

theorem Gang.Moves.issued {g h : Gang} {f : Nat → Pc → Pc} (x : g.Moves h f) (now now' : Nat) :
    (g.issued now).Moves (h.issued now') f := by
  obtain ⟨keeps, seq, results, length, pcs⟩ := x
  obtain ⟨lanes, frames, stack, gone, arrived, due, nregs, width, team, core, floors⟩ := keeps
  exact ⟨⟨lanes, frames, stack, gone, arrived, due, nregs, width, team, core, floors⟩, congrArg (· + 1) seq, results, length,
    pcs⟩

theorem leaving_moves (g : Gang) (cid : Nat) (m : Mask) : g.Moves (g.leaving cid m) (fun _ p => p) := by
  unfold Gang.leaving
  split
  · exact .refl g
  · split <;> exact rest_moves ..

theorem onCohort_moves (g : Gang) (cid : Nat) (f : Cohort → Cohort) : g.Moves (g.onCohort cid f) (fun _ p => p) := by
  unfold Gang.onCohort
  split
  · exact .refl g
  · exact rest_moves ..

theorem parked_moves (g : Gang) (m : Mask) (sw : Bool) :
    g.Moves (g.mapLanes m (fun _ x => { x with parked := true, sw := sw })) (fun _ p => p) :=
  ⟨gangKeeps_mapLanes g m _ (fun _ _ => rfl), rfl, rfl, mapLanes_length .., fun l _ => by
    rw [mapLanes_lane]
    split <;> rfl⟩

/-- A park moves no lane and keeps the cohorts (06 R113). -/
theorem park_becomes {s u : State} {k : Nat} {g : Gang} (h : GangBecomes s u k g) (m : Mask) (w : WaitKind) (next : Pc)
    (sw : Bool) : ∃ g', GangBecomes s (u.park m w next sw) k g' ∧ g.Moves g' (fun _ p => p) ∧ g'.cohorts = g.cohorts := by
  unfold State.park
  split
  · exact ⟨g, h, .refl g, rfl⟩
  · rw [h.actor]
    exact ⟨_, (h.nextId _).onGang _, (parked_moves g m sw).trans (rest_moves ..), rfl⟩

/-- A cohort that finishes a word outside a repetition goes on at the word after it (05 R83, R86). -/
theorem finish_becomes {s u : State} {k : Nat} {g : Gang} {c : Cohort} {tm : Team} (h : GangBecomes s u k g)
    (hc : assocGet? g.cohorts s.cur.2 = some c) (hrep : c.rep = none) (ht : s.team? g.team = some tm) :
    ∃ g', GangBecomes s u.finish k g' ∧ g.Moves g' (movedBy c.mask (fun _ => c.nextPc)) := by
  have placed := h.setPcs c.mask (fun _ => c.nextPc) 0
  have moves := placed_moves g c.mask (fun _ => c.nextPc) 0
  have finishes : u.finish = u.finishWord ⟨k, g, s.cur.2, c, tm⟩ := by
    unfold State.finish
    rw [act_of_acting (acting_of_becomes h hc ht)]
    simp only [hrep]
  rw [finishes]
  unfold State.finishWord
  dsimp only
  split
  · obtain ⟨g', becomes, parks, -⟩ := park_becomes placed.endCohort c.mask .switchPark c.nextPc false
    exact ⟨g', becomes, (moves.trans (rest_moves ..)).trans parks⟩
  · split
    · exact ⟨_, placed.onCohort _, moves.trans (onCohort_moves ..)⟩
    · exact ⟨_, placed.endCohort, moves.trans (rest_moves ..)⟩

/-! ### Lanes that leave for a target -/

/-- Lanes that go to one of several targets, each group in turn. -/
theorem foldl_movedBy {ps : List Pc} {group : Pc → Mask} {l : Nat} {target p : Pc}
    (only : ∀ q ∈ ps, (group q).getLsbD l = true → q = target) :
    ps.foldl (fun p q => movedBy (group q) (fun _ => q) l p) p =
      if ∃ q ∈ ps, (group q).getLsbD l = true then target else p := by
  induction ps generalizing p with
  | nil => simp
  | cons q ps ih =>
    rw [List.foldl_cons, ih (fun r hr => only r (List.mem_cons_of_mem _ hr))]
    simp only [List.exists_mem_cons_iff]
    by_cases later : ∃ r ∈ ps, (group r).getLsbD l = true
    · rw [if_pos later, if_pos (.inr later)]
    · rw [if_neg later]
      unfold movedBy
      by_cases now : (group q).getLsbD l = true
      · rw [if_pos now, if_pos (.inl now), only q List.mem_cons_self now]
      · rw [if_neg now, if_neg (fun h => h.elim now later)]

/-- The lanes of a list that go to a target. -/
def bound (ls : List Nat) (pc : Nat → Pc) (q : Pc) : Mask :=
  maskOf (((ls.map (fun l => (l, pc l))).filter (fun t => t.2 == q)).map (·.1))

theorem bound_getLsbD (ls : List Nat) (pc : Nat → Pc) (q : Pc) (l : Nat) :
    (bound ls pc q).getLsbD l = true ↔ l < 64 ∧ l ∈ ls ∧ pc l = q := by
  unfold bound
  rw [maskOf_getLsbD, decide_eq_true_eq]
  simp only [List.mem_map, List.mem_filter, beq_iff_eq]
  constructor
  · rintro ⟨low, t, ⟨⟨i, hi, rfl⟩, ht⟩, rfl⟩
    exact ⟨low, hi, ht⟩
  · rintro ⟨low, hl, hq⟩
    exact ⟨low, (l, pc l), ⟨⟨l, hl, rfl⟩, hq⟩, rfl⟩

/-- Groups of lanes that leave for their targets one after another. -/
theorem groups_become {s u : State} {k : Nat} {g : Gang} (h : GangBecomes s u k g) (ps : List Pc) (group : Pc → Mask)
    (parks : Bool) :
    ∃ g', GangBecomes s (ps.foldl (fun s p =>
        let s : State := s.setPcs (group p) (fun _ => p) 0
        if parks then s.park (group p) .switchPark p false else s) u) k g' ∧
      g.Moves g' (fun l p => ps.foldl (fun p q => movedBy (group q) (fun _ => q) l p) p) ∧ g'.cohorts = g.cohorts := by
  induction ps generalizing u g with
  | nil => exact ⟨g, h, .refl g, rfl⟩
  | cons q ps ih =>
    have placed := h.setPcs (group q) (fun _ => q) 0
    have moves := placed_moves g (group q) (fun _ => q) 0
    obtain ⟨g', becomes, moves', cohorts⟩ : ∃ g', GangBecomes s
        (if parks then (u.setPcs (group q) (fun _ => q) 0).park (group q) .switchPark q false
          else u.setPcs (group q) (fun _ => q) 0) k g' ∧
        g.Moves g' (movedBy (group q) (fun _ => q)) ∧ g'.cohorts = g.cohorts := by
      split
      · obtain ⟨g', becomes, still, cohorts⟩ := park_becomes placed (group q) .switchPark q false
        exact ⟨g', becomes, moves.trans still, cohorts⟩
      · exact ⟨_, placed, moves, rfl⟩
    obtain ⟨g'', becomes', moves'', cohorts'⟩ := ih becomes
    exact ⟨g'', becomes', moves'.trans moves'', cohorts'.trans cohorts⟩

/-- Lanes of the acting cohort leave it for targets of their own (06 R110, R117). -/
theorem transfer_becomes {s u : State} {k : Nat} {g : Gang} (h : GangBecomes s u k g) (c : Cohort) (ls : List Nat)
    (pc : Nat → Pc) :
    ∃ g', GangBecomes s (u.transfer c (ls.map (fun l => (l, pc l)))) k g' ∧ g.Moves g' (movedBy (maskOf ls) pc) ∧
      g'.cohorts = (g.leaving s.cur.2 (maskOf ls)).cohorts := by
  have firsts : (ls.map (fun l => (l, pc l))).map (·.1) = ls := by simp [Function.comp_def]
  obtain ⟨g', becomes, moves, cohorts⟩ := groups_become (h.leave (maskOf ls))
    ((ls.map (fun l => (l, pc l))).map (·.2)).dedup (bound ls pc) c.switchBit
  refine ⟨g', ?_, ((leaving_moves g s.cur.2 (maskOf ls)).trans moves).congr (fun l _ => ?_), cohorts⟩
  · unfold State.transfer
    rw [firsts]
    exact becomes
  · have targets : (∃ q ∈ ((ls.map (fun l => (l, pc l))).map (·.2)).dedup, (bound ls pc q).getLsbD l = true) ↔
        (maskOf ls).getLsbD l = true := by
      simp only [bound_getLsbD, maskOf_getLsbD, decide_eq_true_eq, List.mem_dedup, List.map_map, List.mem_map,
        Function.comp_apply]
      constructor
      · rintro ⟨q, -, low, hl, -⟩
        exact ⟨low, hl⟩
      · rintro ⟨low, hl⟩
        exact ⟨pc l, ⟨l, hl, rfl⟩, low, hl, rfl⟩
    rw [foldl_movedBy (fun q _ hq => ((bound_getLsbD ..).mp hq).2.2.symm)]
    unfold movedBy
    simp only [targets]

end Sys2Proof.Machine
end

section
/-! How a word of control ends: what is left of its cohort, exact writes of registers, lanes that are released and lanes that
trap (06 R109, R110, R114, R118; 17 R322 to R324). -/
namespace Sys2Proof.Machine

/-! ### The end of a word -/

/-- What is left of a cohort after some of its lanes have left. -/
theorem leaving_cohort {g : Gang} {cid : Nat} {c : Cohort} (hc : assocGet? g.cohorts cid = some c) (m : Mask) :
    assocGet? (g.leaving cid m).cohorts cid =
      if c.mask &&& ~~~m = 0 then none else some { c with mask := c.mask &&& ~~~m } := by
  unfold Gang.leaving
  simp only [hc]
  split
  · exact assocGet?_assocErase_self ..
  · exact assocGet?_assocSet_self ..

theorem and_not_zero (m : Mask) : m &&& ~~~0 = m := by
  rw [show ~~~(0 : Mask) = BitVec.allOnes 64 from rfl, BitVec.and_allOnes]

/-- A cohort that no lane leaves stays as it is. -/
theorem leaving_none {g : Gang} {cid : Nat} {c : Cohort} (hc : assocGet? g.cohorts cid = some c) (hm : c.mask ≠ 0) :
    assocGet? (g.leaving cid 0).cohorts cid = some c := by
  rw [leaving_cohort hc, and_not_zero, if_neg hm]

/-- The lanes that stay in the cohort when others leave it finish its word (06 R117). -/
theorem finish_left {s u : State} {k : Nat} {g g₀ : Gang} {c : Cohort} {tm : Team} {m : Mask} (h : GangBecomes s u k g)
    (hcs : g.cohorts = (g₀.leaving s.cur.2 m).cohorts) (hc : assocGet? g₀.cohorts s.cur.2 = some c) (hrep : c.rep = none)
    (ht : s.team? g.team = some tm) :
    ∃ g', GangBecomes s u.finish k g' ∧ g.Moves g' (movedBy (c.mask &&& ~~~m) (fun _ => c.nextPc)) := by
  have left := leaving_cohort hc m
  rw [← hcs] at left
  by_cases all : c.mask &&& ~~~m = 0
  · rw [if_pos all] at left
    rw [finish_ended (acting_ended h left), all]
    exact ⟨g, h, (Gang.Moves.refl g).congr (fun l _ => by simp [movedBy])⟩
  · rw [if_neg all] at left
    exact finish_becomes h left hrep ht

section
variable {x : Acting} {t : State} {h : Gang}

/-- A word whose gang has the results of before has none of its own. -/
theorem noResult_of (hg : t.gang? x.gid = some h) (seq : h.seq = x.gang.seq + 1) (results : h.results = x.gang.results) :
    NoResult t x :=
  ⟨nofun, h, hg, seq, fun _ hr => results ▸ hr, fun _ hr => .inl (results ▸ hr)⟩

theorem stand_of_pcs {pc : Nat → Pc}
    (pcs : ∀ l, l < x.gang.lanes.length → (h.lane l).pc = movedBy x.co.mask pc l (x.gang.lane l).pc) : Stand x h pc := by
  intro l hl
  rw [pcs l hl]
  unfold movedBy Acting.lanes
  simp only [lanesOf_mem]

theorem lane_lt_64 {l : Nat} (hl : l ∈ x.lanes) : l < 64 := BitVec.lt_of_getLsbD ((lanesOf_mem _ _).mp hl)

theorem mask_ne_zero {l : Nat} (hl : l ∈ x.lanes) : x.co.mask ≠ 0 := fun none => by
  have bit := (lanesOf_mem _ _).mp hl
  rw [none] at bit
  exact Bool.false_ne_true (BitVec.getLsbD_zero.symm.trans bit)

end

/-- The counter after a word, as 06 R117 gives it. -/
theorem nextPc_eq (c : Cohort) : c.nextPc =
    if c.idx + 1 = c.count ∨ c.count ≤ c.idx then ⟨(c.hdr + 4 * (c.count + 1)) % 2 ^ 48, 0⟩ else ⟨c.hdr, c.idx + 1⟩ := by
  unfold Cohort.nextPc
  by_cases last : c.idx + 1 < c.count
  · rw [if_pos last, if_neg (by omega)]
  · rw [if_neg last, if_pos (by omega)]
    rfl

/-! ### Exact writes of registers -/

/-- A lane with registers written exactly by the word that is the gang's latest. -/
def Lane.written (x : Lane) (seq : Nat) (ps : List (Nat × Word)) : Lane :=
  ps.foldl (fun x p => { x with regs := assocSet x.regs p.1 p.2, wseq := assocSet x.wseq p.1 seq }) x

/-- Registers of one lane written now. -/
def Gang.writeAll (g : Gang) (l : Nat) (ps : List (Nat × Word)) : Gang := ps.foldl (fun g p => g.writeNow l p.1 p.2) g

theorem written_rest (x : Lane) (seq : Nat) (ps : List (Nat × Word)) :
    x.written seq ps = { x with regs := (x.written seq ps).regs, wseq := (x.written seq ps).wseq } := by
  unfold Lane.written
  induction ps generalizing x with
  | nil => rfl
  | cons p ps ih => exact ih _

/-- Writes leave the other registers of the lane. -/
theorem written_kept (x : Lane) (seq : Nat) (ps : List (Nat × Word)) : RegsKept x (x.written seq ps) (ps.map (·.1)) := by
  unfold Lane.written
  induction ps generalizing x with
  | nil => exact fun _ _ => rfl
  | cons p ps ih =>
    intro r hr
    rw [List.map_cons, List.mem_cons, not_or] at hr
    exact (ih _ r hr.2).trans (assocGet?_assocSet_ne _ _ hr.1)

/-- What registers hold after writes depends on what they held alone. -/
theorem written_regs {x y : Lane} (h : y.regs = x.regs) (seq : Nat) (ps : List (Nat × Word)) :
    (y.written seq ps).regs = (x.written seq ps).regs := by
  unfold Lane.written
  induction ps generalizing x y with
  | nil => exact h
  | cons p ps ih => exact ih (congrArg (fun regs => assocSet regs p.1 p.2) h)

/-- A gang in which lanes have had registers written, each with its list, and nothing else has changed. -/
structure Gang.Writes (g h : Gang) (ws : List (Nat × List (Nat × Word))) : Prop where
  rest : h = { g with lanes := h.lanes }
  length : h.lanes.length = g.lanes.length
  written : ∀ w ∈ ws, h.lane w.1 = (g.lane w.1).written g.seq w.2
  others : ∀ l, l ∉ ws.map (·.1) → h.lane l = g.lane l

theorem writeAll_writes (g : Gang) {l : Nat} {ps : List (Nat × Word)} (h64 : l < 64) (hlen : l < g.lanes.length)
    (hr : ∀ p ∈ ps, p.1 < 8 * g.nregs) : g.Writes (g.writeAll l ps) [(l, ps)] := by
  unfold Gang.writeAll
  induction ps generalizing g with
  | nil => exact ⟨rfl, rfl, fun w hw => by rw [List.mem_singleton.mp hw]; rfl, fun _ _ => rfl⟩
  | cons p ps ih =>
    have lane (j : Nat) : (g.writeNow l p.1 p.2).lane j =
        if j = l then { g.lane j with regs := assocSet (g.lane j).regs p.1 p.2, wseq := assocSet (g.lane j).wseq p.1 g.seq }
        else g.lane j := by
      unfold Gang.writeNow
      simp only [mapLanes_lane, maskOf_single h64, if_pos (hr p List.mem_cons_self)]
      by_cases e : j = l
      · rw [if_pos ⟨e ▸ hlen, e⟩, if_pos e]
      · rw [if_neg (fun h => e h.2), if_neg e]
    have length : (g.writeNow l p.1 p.2).lanes.length = g.lanes.length := mapLanes_length ..
    have later := ih (g.writeNow l p.1 p.2) (length ▸ hlen) (fun q hq => hr q (List.mem_cons_of_mem _ hq))
    refine ⟨later.rest, later.length.trans length, fun w hw => ?_, fun j hj => ?_⟩
    · cases List.mem_singleton.mp hw
      refine (later.written _ (List.mem_singleton_self _)).trans ?_
      rw [lane, if_pos rfl]
      rfl
    · refine (later.others j hj).trans ((lane j).trans (if_neg ?_))
      exact fun e => hj (e ▸ List.mem_singleton_self _)

/-- Registers of several lanes, each lane once. -/
theorem writeLanes_writes (g : Gang) {ws : List (Nat × List (Nat × Word))} (once : (ws.map (·.1)).Nodup)
    (hl : ∀ w ∈ ws, w.1 < 64 ∧ w.1 < g.lanes.length) (hr : ∀ w ∈ ws, ∀ p ∈ w.2, p.1 < 8 * g.nregs) :
    g.Writes (ws.foldl (fun g w => g.writeAll w.1 w.2) g) ws := by
  induction ws generalizing g with
  | nil => exact ⟨rfl, rfl, nofun, fun _ _ => rfl⟩
  | cons w ws ih =>
    obtain ⟨fresh, once⟩ := List.nodup_cons.mp once
    obtain ⟨h64, hlen⟩ := hl w List.mem_cons_self
    have first := writeAll_writes g h64 hlen (hr w List.mem_cons_self)
    have nregs : (g.writeAll w.1 w.2).nregs = g.nregs := by rw [first.rest]
    have seq : (g.writeAll w.1 w.2).seq = g.seq := by rw [first.rest]
    have later := ih (g.writeAll w.1 w.2) once
      (fun v hv => first.length.symm ▸ hl v (List.mem_cons_of_mem _ hv))
      (fun v hv => nregs.symm ▸ hr v (List.mem_cons_of_mem _ hv))
    refine ⟨?_, later.length.trans first.length, fun v hv => ?_, fun l hl => ?_⟩
    · rw [List.foldl_cons, later.rest, first.rest]
    · rw [List.foldl_cons]
      rcases List.mem_cons.mp hv with e | hv
      · rw [e, later.others _ fresh]
        exact first.written w (List.mem_singleton_self _)
      · rw [later.written v hv, seq, first.others v.1]
        rw [List.map_singleton, List.mem_singleton]
        exact fun e => fresh (List.mem_map.mpr ⟨v, hv, e⟩)
    · rw [List.map_cons, List.mem_cons, not_or] at hl
      rw [List.foldl_cons, later.others l hl.2]
      exact first.others l (by simpa using hl.1)

theorem lanesOf_nodup (m : Mask) : (lanesOf m).Nodup := List.nodup_range.filter _

/-- Writes move no lane. -/
theorem Gang.Writes.pc {g h : Gang} {ws : List (Nat × List (Nat × Word))} (w : g.Writes h ws) (l : Nat) :
    (h.lane l).pc = (g.lane l).pc := by
  by_cases hl : l ∈ ws.map (·.1)
  · obtain ⟨v, hv, rfl⟩ := List.mem_map.mp hl
    rw [w.written v hv, written_rest]
  · rw [w.others l hl]

theorem sameBut_regs {x y : Lane} (h : x.sameBut y) : y.regs = x.regs := by
  unfold Lane.sameBut at h
  rw [← h]

/-- A register that a word wrote, and those that it did not, once the lane has gone on. -/
theorem Gang.Writes.regs {g g' h : Gang} {ws : List (Nat × List (Nat × Word))} {move : Nat → Pc → Pc} (w : g.Writes g' ws)
    (moves : g'.Moves h move) {v : Nat × List (Nat × Word)} (hv : v ∈ ws) :
    (h.lane v.1).regs = ((g.lane v.1).written g.seq v.2).regs := by
  rw [← w.written v hv]
  exact sameBut_regs (moves.keeps.lanes v.1)

/-! ### Lanes that are released -/

theorem mapLanesFrom_mapLanesFrom (m : Mask) (f f' : Nat → Lane → Lane) (i : Nat) (xs : List Lane) :
    mapLanesFrom m f' i (mapLanesFrom m f i xs) = mapLanesFrom m (fun l x => f' l (f l x)) i xs := by
  induction xs generalizing i with
  | nil => rfl
  | cons x xs ih =>
    simp only [mapLanesFrom, ih]
    congr 1
    split <;> rfl

theorem mapLanesFrom_zero (f : Nat → Lane → Lane) (i : Nat) (xs : List Lane) : mapLanesFrom 0 f i xs = xs := by
  induction xs generalizing i with
  | nil => rfl
  | cons x xs ih =>
    unfold mapLanesFrom
    rw [ih, if_neg (by simp)]

/-- A lane of the released class: no longer parked, but for a switch park, and no longer deferred (06 R109). -/
def Lane.freed (x : Lane) : Lane := { x with released := true, deferred := false, parked := x.sw, sw := false }

/-- A gang with lanes of it released. -/
def Gang.freed (g : Gang) (m : Mask) (ready since : Nat) (ws : List (Nat × Wait)) : Gang :=
  { g.mapLanes m (fun _ x => x.freed) with readySince := ready, parkedSince := since, waits := ws }

theorem wake_becomes {s u : State} {k : Nat} {g : Gang} (h : GangBecomes s u k g) (m : Mask) :
    ∃ ready since ws, GangBecomes s (u.wake k m) k { g.mapLanes m (fun _ x => { x with parked := x.sw, sw := false }) with
      readySince := ready, parkedSince := since, waits := ws } := by
  unfold State.wake
  rw [h.gang]
  dsimp only
  split
  · exact ⟨_, _, _, h.setGang _⟩
  · exact ⟨_, _, _, (h.nextId _).setGang _⟩

theorem releaseClass_becomes {s u : State} {k : Nat} {g : Gang} (h : GangBecomes s u k g) (m : Mask) :
    ∃ ready since ws, GangBecomes s (u.releaseClass k m) k (g.freed m ready since ws) := by
  unfold State.releaseClass Gang.freed
  split
  · rename_i none
    refine ⟨g.readySince, g.parkedSince, g.waits, ?_⟩
    unfold Gang.mapLanes
    rw [none, mapLanesFrom_zero]
    exact h
  · obtain ⟨ready, since, ws, becomes⟩ := wake_becomes
      (h.onGang (fun g => g.mapLanes m (fun _ x => { x with released := true, deferred := false }))) m
    refine ⟨ready, since, ws, ?_⟩
    unfold Gang.mapLanes at becomes ⊢
    dsimp only at becomes
    rw [mapLanesFrom_mapLanesFrom] at becomes
    exact becomes

theorem freed_lane (g : Gang) (m : Mask) (ready since : Nat) (ws : List (Nat × Wait)) (l : Nat) :
    (g.freed m ready since ws).lane l = if l < g.lanes.length ∧ m.getLsbD l = true then (g.lane l).freed else g.lane l :=
  mapLanes_lane ..

theorem freed_keeps (g : Gang) (m : Mask) (ready since : Nat) (ws : List (Nat × Wait)) :
    (g.freed m ready since ws).seq = g.seq ∧ (g.freed m ready since ws).results = g.results ∧
      (g.freed m ready since ws).stack = g.stack ∧ (g.freed m ready since ws).arrived = g.arrived ∧
      (g.freed m ready since ws).cohorts = g.cohorts := ⟨rfl, rfl, rfl, rfl, rfl⟩

/-! ### Lanes that trap -/

/-- A cohort outside every handler takes a trap that asks for no page as one sub-gang, in the middle of its word (17 R322 to
R324). -/
theorem trap_takes {s u : State} {x : Acting} {g : Gang} (hx : s.acting = some x) (h : GangBecomes s u x.gid g)
    (lanes : g.lanes = x.gang.lanes) (frames : g.frames = x.gang.frames) (team : g.team = x.gang.team)
    (hc : assocGet? g.cohorts s.cur.2 = some x.co) (htrap : x.mayTrap) (hm : x.co.mask ≠ 0) {i : TrapInfo}
    (noPage : ¬ (0x06 ≤ i.cause ∧ i.cause ≤ 0x0A)) :
    TookTrap s (u.trap x.co.mask i) x x.co.mask i.cause i.tinfo i.taddr ∧ GangOnly s (u.trap x.co.mask i) x.gid := by
  obtain ⟨-, -, -, ht⟩ := acting_gang hx
  have lane (l : Nat) : g.lane l = x.gang.lane l := by
    unfold Gang.lane
    rw [lanes]
  have left := h.leave x.co.mask
  have same : g.leaving s.cur.2 x.co.mask = g.without s.cur.2 := by
    unfold Gang.leaving
    simp only [hc, BitVec.and_not_self, if_true]
    rfl
  rw [same] at left
  have leftTeam : (u.leave x.co.mask).team? (g.without s.cur.2).team = some x.team := by
    rw [left.rest, show (g.without s.cur.2).team = x.gang.team from team]
    exact ht
  have trap : u.trap x.co.mask i =
      (u.leave x.co.mask).enterFrame x.gid x.co.mask x.pc x.co.repIdx x.co.word false i := by
    unfold State.trap
    rw [act_of_acting (acting_of_becomes h hc (team ▸ ht))]
    rw [BitVec.and_self, if_neg hm]
    unfold State.trapLanes
    have page (level : Nat) : (u.leave x.co.mask).pageRequestTo x.team level i = none := if_neg noPage
    simp only [left.gang, leftTeam, page]
    rfl
  have enters := enterFrame_enters left.gang leftTeam
    ((congrArg Lane.frame (lane _)).trans (htrap.1 x.leader (leader_mem hm)))
    (show (g.without s.cur.2).frames.length < 8 by rw [show (g.without s.cur.2).frames = _ from frames]; exact htrap.2)
    x.pc x.co.repIdx x.co.word false i
  have entered := (left.nextId ((u.leave x.co.mask).nextId + 1)).setGang
    ((g.without s.cur.2).entered x.co.mask (u.leave x.co.mask).nextId
      (i.frame ((g.without s.cur.2).lane (lowBit 64 x.co.mask.toNat)) x.co.mask x.pc x.co.repIdx x.co.word false)
      ((u.leave x.co.mask).vector x.team
        (i.frame ((g.without s.cur.2).lane (lowBit 64 x.co.mask.toNat)) x.co.mask x.pc x.co.repIdx x.co.word false).level))
  rw [trap, enters]
  refine ⟨?_, entered.only⟩
  have leader : (g.without s.cur.2).lane (lowBit 64 x.co.mask.toNat) = x.gang.lane (lowBit 64 x.co.mask.toNat) := lane _
  rw [leader, left.only.vector] at entered ⊢
  refine ⟨_, entered.gang, (u.leave x.co.mask).nextId, _, List.mem_append_right _ (List.mem_singleton_self _), rfl, rfl, rfl,
    rfl, rfl, rfl, rfl, rfl, rfl, rfl, fun l hl hlen => ?_⟩
  have stands := fun id f v => entered_lane (g := g.without s.cur.2) (id := id) (f := f) (vector := v)
    (show l < g.lanes.length from lanes ▸ hlen) hl
  exact ⟨congrArg Lane.frame (stands ..), congrArg Lane.level (stands ..), congrArg Lane.pc (stands ..),
    congrArg Lane.rep (stands ..), (entered_regs ..).trans (congrArg Lane.regs (lane l))⟩

end Sys2Proof.Machine
end

section
/-! Branches, calls and jumps (06 R117 to R119), and O15 and O16. -/
namespace Sys2Proof.Machine

theorem target_eq (x : Acting) (o : Fin 262144) :
    x.target o = ⟨((x.co.hdr + 4 * (BitVec.ofNat 18 o.val).toInt) % 2 ^ 48).toNat, 0⟩ := by
  unfold Acting.target wrap
  rw [sext_eq_toInt 18 _ (by decide)]
  norm_cast

/-- The lanes of a cohort that do not take a branch. -/
theorem staying_getLsbD (x : Acting) (take : Nat → Bool) (l : Nat) :
    (x.co.mask &&& ~~~(maskOf (x.lanes.filter take))).getLsbD l = true ↔ l ∈ x.lanes ∧ take l = false := by
  rw [BitVec.getLsbD_and, BitVec.getLsbD_not, maskOf_getLsbD]
  unfold Acting.lanes
  simp only [Bool.and_eq_true, Bool.not_eq_true', decide_eq_true_eq, decide_eq_false_iff_not, List.mem_filter, lanesOf_mem]
  constructor
  · rintro ⟨hl, low, goes⟩
    exact ⟨hl, Bool.eq_false_iff.mpr (fun taken => goes ⟨low, hl, taken⟩)⟩
  · rintro ⟨hl, stays⟩
    exact ⟨hl, BitVec.lt_of_getLsbD hl, fun goes => Bool.false_ne_true (stays.symm.trans goes.2.2)⟩

theorem taken_getLsbD (x : Acting) (take : Nat → Bool) (l : Nat) :
    (maskOf (x.lanes.filter take)).getLsbD l = true ↔ l ∈ x.lanes ∧ take l = true := by
  rw [maskOf_getLsbD, decide_eq_true_eq, List.mem_filter]
  exact ⟨fun h => h.2, fun h => ⟨lane_lt_64 h.1, h⟩⟩

/-- What a branch does to the gang: the lanes that take it stand at the target, the others of the cohort at the next word. -/
theorem branch_becomes {s : State} {x : Acting} (hx : s.acting = some x) (hplain : x.plain) (o : Fin 262144)
    (take : Acting → Nat → Bool) :
    ∃ h, GangBecomes s (s.branch o take) x.gid h ∧ (x.issued s).Moves h (fun l p =>
      movedBy (x.co.mask &&& ~~~(maskOf (x.lanes.filter (take x)))) (fun _ => x.co.nextPc) l
        (movedBy (maskOf (x.lanes.filter (take x))) (fun _ => x.target o) l p)) := by
  obtain ⟨-, -, hc, ht⟩ := acting_gang hx
  obtain ⟨g, becomes, moves, cohorts⟩ :=
    transfer_becomes (becomes_issue hx) x.co (x.lanes.filter (take x)) (fun _ => x.target o)
  obtain ⟨h, finished, moves'⟩ := finish_left becomes cohorts hc hplain.2 (moves.keeps.team ▸ ht)
  unfold State.branch
  rw [act_of_acting hx]
  exact ⟨h, finished, moves.trans moves'⟩

/-! ### Links and targets of registers -/

/-- The registers of a pair (00 R11). -/
def pairWords (d v : Nat) : List (Nat × Word) := [(d, BitVec.ofNat 32 v), (d + 1, BitVec.ofNat 32 (v / 2 ^ 32))]

/-- What a word writes in every lane of its cohort. -/
theorem lanes_write {x : Acting} {g : Gang} (hplain : x.plain) (length : g.lanes.length = x.gang.lanes.length)
    {ps : List (Nat × Word)} (hr : ∀ p ∈ ps, p.1 < 8 * g.nregs) :
    g.Writes (x.lanes.foldl (fun g l => g.writeAll l ps) g) (x.lanes.map (fun l => (l, ps))) := by
  have writes := writeLanes_writes g (ws := x.lanes.map (fun l => (l, ps))) ?_ ?_ ?_
  · rwa [List.foldl_map] at writes
  · rw [List.map_map]
    exact (List.map_id' x.lanes).symm ▸ lanesOf_nodup _
  · rintro w hw
    obtain ⟨l, hl, rfl⟩ := List.mem_map.mp hw
    exact ⟨lane_lt_64 hl, length ▸ hplain.1 l hl⟩
  · rintro w hw
    obtain ⟨l, -, rfl⟩ := List.mem_map.mp hw
    exact hr

/-- The links of a cohort as `call` and `jmpl` write them (06 R118, R119). -/
theorem links_become {s u : State} {k : Nat} {g : Gang} (h : GangBecomes s u k g) (ls : List Nat) (d v : Nat) :
    GangBecomes s (ls.foldl (fun s l => s.linkNow k l d v) u) k (ls.foldl (fun g l => g.writeAll l (pairWords d v)) g) :=
  h.foldl (f := fun s l => s.linkNow k l d v) (fun _ _ _ h => h.onGang _) ls

/-- A link that has been written is in its registers after the cohort has gone on. -/
theorem linked_of {x : Acting} {g g' h : Gang} {d v : Nat} {move : Nat → Pc → Pc}
    (writes : g.Writes g' (x.lanes.map (fun l => (l, pairWords d v)))) (moves : g'.Moves h move)
    (same : ∀ l, g.lane l = x.gang.lane l) (hd : d + 1 < 8 * h.nregs) (t : State) :
    ∀ l ∈ x.lanes, t.reg h l d = BitVec.ofNat 32 v ∧ t.reg h l (d + 1) = BitVec.ofNat 32 (v / 2 ^ 32) ∧
      RegsKept (x.gang.lane l) (h.lane l) [d, d + 1] := by
  intro l hl
  have regs := writes.regs moves (List.mem_map_of_mem hl)
  have kept := written_kept (g.lane l) g.seq (pairWords d v)
  unfold RegsKept at kept ⊢
  rw [same] at regs kept
  rw [← regs] at kept
  refine ⟨reg_listed (Nat.lt_of_succ_lt hd) ?_, reg_listed hd ?_, kept⟩
  · rw [regs]
    exact (assocGet?_assocSet_ne _ _ (Nat.ne_of_lt (Nat.lt_succ_self d))).trans (assocGet?_assocSet_self ..)
  · rw [regs]
    exact assocGet?_assocSet_self ..

/-- A target that `jmp` and `jmpl` may go to (06 R119). -/
def goodTarget (t : Nat) : Prop := t % 4 = 0 ∧ t < 2 ^ 48

theorem badTarget_iff (t : Nat) : (t % 4 != 0 || decide (2 ^ 48 ≤ t)) = true ↔ ¬ goodTarget t := by
  unfold goodTarget
  rw [Bool.or_eq_true, bne_iff_ne, decide_eq_true_eq]
  omega

/-- The state from which a jump leaves: its links are written, if it has any. -/
def State.linkedFor (s : State) (x : Acting) (link : Option (Fin 128)) : State :=
  match link with
  | none => s.issue
  | some d => x.lanes.foldl (fun s l => s.linkNow x.gid l d.val x.co.after) s.issue

/-- A jump of which every lane has a good target. -/
theorem jump_good {s : State} {x : Acting} (hx : s.acting = some x) (link : Option (Fin 128)) {a : Fin 128}
    (good : ∀ l ∈ x.lanes, goodTarget (P s x l a)) :
    s.jump link a = (s.linkedFor x link).transfer x.co (x.lanes.map (fun l => (l, ⟨P s x l a, 0⟩))) := by
  have fine (t : Nat × Nat) (ht : t ∈ x.lanes.map (fun l => (l, s.pair x.gang l a.val))) :
      (t.2 % 4 != 0 || decide (2 ^ 48 ≤ t.2)) = false := by
    obtain ⟨l, hl, rfl⟩ := List.mem_map.mp ht
    exact Bool.eq_false_iff.mpr (fun bad => (badTarget_iff _).mp bad (good l hl))
  unfold State.jump State.linkedFor
  rw [act_of_acting hx]
  dsimp only
  rw [List.filter_eq_nil_iff.mpr (fun t ht bad => Bool.false_ne_true ((fine t ht).symm.trans bad)),
    List.filter_eq_self.mpr (fun t ht => by rw [fine t ht]; rfl), List.map_map, List.map_nil, trapEach_nil]
  cases link with
  | none => rfl
  | some d =>
    dsimp only
    rw [List.foldl_map]
    rfl

/-- A jump of one lane whose target is bad: the lane traps at the word, and no link is written. -/
theorem jump_bad {s : State} {x : Acting} (hx : s.acting = some x) (link : Option (Fin 128)) {a : Fin 128} {l : Nat}
    (hl : x.lanes = [l]) (bad : ¬ goodTarget (P s x l a)) :
    s.jump link a = (s.issue.leave 0).trap (maskOf [l]) { cause := 0x04, tinfo := 0x20, taddr := P s x l a } := by
  have bad' : ((s.pair x.gang l a.val) % 4 != 0 || decide (2 ^ 48 ≤ s.pair x.gang l a.val)) = true :=
    (badTarget_iff _).mpr bad
  unfold State.jump
  rw [act_of_acting hx]
  simp only [hl, List.map_cons, List.map_nil, List.filter_cons, List.filter_nil, bad', if_true, Bool.not_true,
    Bool.false_eq_true, if_false]
  cases link <;> rfl

/-- A lane with a bad target takes the trap 0x04. -/
theorem jump_traps {s : State} {x : Acting} (hx : s.acting = some x) (link : Option (Fin 128)) {a : Fin 128} {l : Nat}
    (hl : x.lanes = [l]) (bad : ¬ goodTarget (P s x l a)) (htrap : x.mayTrap) :
    TookTrap s (s.jump link a) x (maskOf [l]) 0x04 0x20 (P s x l a) := by
  obtain ⟨-, -, hc, -⟩ := acting_gang hx
  have mask : maskOf [l] = x.co.mask := by rw [← hl]; exact maskOf_lanesOf _
  have some : x.co.mask ≠ 0 := mask_ne_zero (hl ▸ List.mem_singleton_self l)
  have moves := leaving_moves (x.issued s) s.cur.2 0
  rw [jump_bad hx link hl bad, mask]
  refine (trap_takes hx ((becomes_issue hx).leave 0) ?_ moves.keeps.frames moves.keeps.team
    (leaving_none hc some) htrap some (show ¬ (0x06 ≤ 0x04 ∧ 0x04 ≤ 0x0A) by decide)).1
  unfold Gang.leaving
  split
  · rfl
  · split <;> rfl

/-- Settles O15: the lanes that take the branch leave as one group, and the rest of the cohort finishes the word. -/
theorem branches : Obligations.Branches := by
  unfold Obligations.Branches
  intro a o s x hx hplain goes
  have branch (i : Instr) (take : Acting → Nat → Bool) (hi : exec i s = .next (s.branch o take)) (p : Nat → Prop)
      (hp : ∀ l, take x l = true ↔ p l) : goes i p := by
    obtain ⟨-, hg, -, -⟩ := acting_gang hx
    obtain ⟨h, becomes, moves⟩ := branch_becomes hx hplain o take
    have issued := issued_keeps s x
    refine ⟨_, hi, becomes.step hg (issued.trans moves.keeps), noResult_of becomes.gang moves.seq moves.results, h,
      becomes.gang, fun l hlen => ?_⟩
    rw [moves.pcs l hlen, ← nextPc_eq, ← target_eq]
    unfold movedBy
    simp only [staying_getLsbD, taken_getLsbD]
    refine ⟨fun hl taken => ?_, fun hl stays => ?_, fun hl => ?_⟩
    · have taken := (hp l).mpr taken
      rw [if_neg (fun h => Bool.false_ne_true (h.2.symm.trans taken)), if_pos ⟨hl, taken⟩]
    · have stays := Bool.eq_false_iff.mpr (fun taken => stays ((hp l).mp taken))
      rw [if_pos ⟨hl, stays⟩]
    · rw [if_neg (fun h => hl h.1), if_neg (fun h => hl h.1)]
      rfl
  exact ⟨branch _ _ rfl _ (fun _ => iff_of_true rfl trivial), branch _ _ rfl _ (fun _ => bne_iff_ne),
    branch _ _ rfl _ (fun _ => beq_iff_eq)⟩

/-- Settles O16: the links are exact writes before the lanes leave, and a bad target is the trap of its lane. -/
theorem callsAndJumps : Obligations.CallsAndJumps := by
  unfold Obligations.CallsAndJumps
  intro d a o s x hx hplain ha hd n linked good
  have issue := becomes_issue hx
  -- Lanes that leave with the links of a pair written.
  have links (r : Fin 128) (hr : r.val + 1 < 8 * x.gang.nregs) (pc : Nat → Pc) :
      let t : State := (x.lanes.foldl (fun s l => s.linkNow x.gid l r.val x.co.after) s.issue).transfer x.co
        (x.lanes.map (fun l => (l, pc l)))
      GangOnly s t x.gid ∧ NoResult t x ∧ Then t x.gid (fun h => linked r t h ∧ Stand x h pc) := by
    have writes := lanes_write hplain (g := x.issued s) rfl (ps := pairWords r.val x.co.after) (by
      simp only [pairWords, List.forall_mem_cons]
      exact ⟨Nat.lt_of_succ_lt hr, hr, nofun⟩)
    obtain ⟨h, becomes, moves, -⟩ := transfer_becomes (links_become issue x.lanes r.val x.co.after) x.co x.lanes pc
    have nregs : h.nregs = x.gang.nregs := by rw [moves.keeps.nregs, writes.rest]; rfl
    refine ⟨becomes.only, noResult_of becomes.gang ?_ ?_, h, becomes.gang,
      linked_of writes moves (fun _ => rfl) (nregs ▸ hr) _, stand_of_pcs fun l hl => ?_⟩
    · rw [moves.seq, writes.rest]; rfl
    · rw [moves.results, writes.rest]; rfl
    · rw [moves.pcs l (writes.length ▸ hl), writes.pc]
      exact congrArg (fun m => movedBy m pc l _) (maskOf_lanesOf _)
  refine ⟨⟨_, rfl, ?_⟩, fun hgood => ⟨_, rfl, ?_⟩, fun hgood => ⟨_, rfl, ?_⟩, fun l hl bad htrap => ?_⟩
  · rw [act_of_acting hx, ← target_eq]
    exact links a ha (fun _ => x.target o)
  · rw [jump_good hx none hgood]
    obtain ⟨-, hg, -, -⟩ := acting_gang hx
    obtain ⟨h, becomes, moves, -⟩ := transfer_becomes issue x.co x.lanes (fun l => ⟨P s x l a, 0⟩)
    refine ⟨becomes.step hg ((issued_keeps s x).trans moves.keeps), noResult_of becomes.gang moves.seq moves.results, h,
      becomes.gang, stand_of_pcs fun l hl => (moves.pcs l hl).trans ?_⟩
    exact congrArg (fun m => movedBy m _ l _) (maskOf_lanesOf _)
  · rw [jump_good hx (some d) hgood]
    exact links d hd _
  · exact ⟨_, _, rfl, rfl, jump_traps hx none hl bad htrap, jump_traps hx (some d) hl bad htrap⟩

end Sys2Proof.Machine
end

section
/-! Trap, yield, nop and rep (05 R95; 06 R132 to R134), and O19. -/
namespace Sys2Proof.Machine

theorem acting_cid {s : State} {x : Acting} (hx : s.acting = some x) : x.cid = s.cur.2 := by
  unfold State.acting at hx
  split at hx
  · cases hx
  · split at hx <;> cases hx
    rfl

/-- A lane that has moved, written out. -/
theorem eq_of_sameBut {x y : Lane} (h : x.sameBut y) :
    y = { x with pc := y.pc, rep := y.rep, parked := y.parked, sw := y.sw } := by
  unfold Lane.sameBut at h
  rw [← h]

/-- A word that leaves its cohort whole lets it go on. -/
theorem goes_on {s u : State} {x : Acting} {g : Gang} (hx : s.acting = some x) (hplain : x.plain)
    (h : GangBecomes s u x.gid g) (hc : assocGet? g.cohorts s.cur.2 = some x.co) (team : g.team = x.gang.team) :
    ∃ g', GangBecomes s u.finish x.gid g' ∧ g.Moves g' (movedBy x.co.mask (fun _ => x.co.nextPc)) := by
  obtain ⟨-, -, -, ht⟩ := acting_gang hx
  exact finish_becomes h hc hplain.2 (team ▸ ht)

/-- A word that writes registers exactly and lets its cohort go on. -/
theorem writes_go_on {s u : State} {x : Acting} {g₀ g₁ g : Gang} {ws : List (Nat × List (Nat × Word))}
    (hx : s.acting = some x) (hplain : x.plain) (still : (x.issued s).Moves g₀ (fun _ p => p)) (writes : g₀.Writes g₁ ws)
    (still' : g₁.Moves g (fun _ p => p)) (h : GangBecomes s u x.gid g) (hc : assocGet? g.cohorts s.cur.2 = some x.co) :
    ∃ h, GangBecomes s u.finish x.gid h ∧ NoResult u.finish x ∧ Stand x h (fun _ => x.co.nextPc) ∧
      h.nregs = x.gang.nregs ∧
      ∀ w ∈ ws, (h.lane w.1).regs = ((x.gang.lane w.1).written (x.gang.seq + 1) w.2).regs := by
  have team : g₁.team = g₀.team := by rw [writes.rest]
  have nregs : g₁.nregs = g₀.nregs := by rw [writes.rest]
  have seq : g₁.seq = g₀.seq := by rw [writes.rest]
  have results : g₁.results = g₀.results := by rw [writes.rest]
  have seq₀ : g₀.seq = x.gang.seq + 1 := still.seq
  obtain ⟨h', becomes, goes⟩ := goes_on hx hplain h hc ((still'.keeps.team.trans team).trans still.keeps.team)
  have moves := still'.trans goes
  refine ⟨h', becomes, noResult_of becomes.gang ((moves.seq.trans seq).trans seq₀)
    ((moves.results.trans results).trans still.results), stand_of_pcs fun l hl => ?_,
    (moves.keeps.nregs.trans nregs).trans still.keeps.nregs, fun w hw => ?_⟩
  · rw [moves.pcs l (writes.length.symm ▸ still.length.symm ▸ hl), writes.pc, still.pcs l hl]
    rfl
  · rw [writes.regs moves hw, seq₀]
    exact written_regs (sameBut_regs (still.keeps.lanes w.1)) ..

/-- `yield` leaves its lanes deferred (06 R133). -/
def Lane.yields (x : Lane) (tick : Nat) : Lane := { x with deferred := true, yielded := tick + 1 }

/-- `rep` names the word that its cohort issues next, and how often (05 R95). -/
def Cohort.repeats (c : Cohort) (r : RepState) : Cohort :=
  { c with idx := c.idx + 1, rep := some r, hold := false, done := 0 }

theorem onCohort_cohort {g : Gang} {cid : Nat} {c : Cohort} (hc : assocGet? g.cohorts cid = some c) (f : Cohort → Cohort) :
    assocGet? (g.onCohort cid f).cohorts cid = some (f c) := by
  unfold Gang.onCohort
  simp only [hc]
  exact assocGet?_assocSet_self ..

theorem exec_rep {s : State} {x : Acting} (hx : s.acting = some x) (c : Fin 64) (u v w : Fin 4) :
    exec (.rep c u v w) s = .next
      (if repeatOk (x.co.words.getD (x.co.idx + 1) 0) (c.val + 1) u.val v.val w.val then
        (s.issue.onCohort (fun co => co.repeats ⟨c.val + 1, 0, u.val, v.val, w.val⟩)).setPcs
          x.co.mask (fun _ => ⟨x.co.hdr, x.co.idx + 1⟩) 0
      else s.trapWord 0x02) :=
  congrArg Host.Outcome.next (act_of_acting hx _)

/-- Settles O19: each word is a change of its cohort's lanes or of the cohort, or the trap of all its lanes. -/
theorem trapYieldNopRep : Obligations.TrapYieldNopRep := by
  unfold Obligations.TrapYieldNopRep
  intro s x hx hplain
  obtain ⟨-, hg, hc, -⟩ := acting_gang hx
  have issue := becomes_issue hx
  refine ⟨fun c htrap hm => ⟨_, rfl, ?_⟩, ⟨_, rfl, ?_⟩, ⟨_, rfl, ?_⟩, fun c u v w => ⟨fun ok => ⟨_, exec_rep hx .., ?_⟩,
    fun bad htrap hm => ⟨_, exec_rep hx .., ?_⟩⟩⟩
  · rw [act_of_acting hx]
    exact trap_takes hx issue rfl rfl rfl hc htrap hm (show ¬ (0x06 ≤ 0x10 ∧ 0x10 ≤ 0x0A) by decide)
  · rw [act_of_acting hx]
    obtain ⟨h, becomes, moves⟩ := goes_on hx hplain
      (issue.onGang (fun g => g.mapLanes x.co.mask (fun _ y => y.yields s.tick))) hc rfl
    have lane (l : Nat) := mapLanes_lane (x.issued s) x.co.mask (fun _ y => y.yields s.tick) l
    refine ⟨becomes.only, noResult_of becomes.gang moves.seq moves.results, h, becomes.gang,
      stand_of_pcs fun l hl => ?_, fun l hl => ?_⟩
    · rw [moves.pcs l ((mapLanes_length ..).symm ▸ hl), lane]
      split <;> rfl
    · have goes := eq_of_sameBut (moves.keeps.lanes l)
      rw [lane, if_pos ⟨hplain.1 l hl, (lanesOf_mem ..).mp hl⟩] at goes
      exact ⟨(congrArg Lane.deferred goes).trans rfl, (congrArg Lane.regs goes).trans rfl⟩
  · obtain ⟨h, becomes, moves⟩ := goes_on hx hplain issue hc rfl
    exact ⟨becomes.step hg ((issued_keeps s x).trans moves.keeps), noResult_of becomes.gang moves.seq moves.results, h,
      becomes.gang, stand_of_pcs moves.pcs⟩
  · rw [if_pos ok]
    have becomes := (issue.onCohort (fun co => co.repeats ⟨c.val + 1, 0, u.val, v.val, w.val⟩)).setPcs x.co.mask
      (fun _ => ⟨x.co.hdr, x.co.idx + 1⟩) 0
    have moves := (onCohort_moves (x.issued s) s.cur.2 (fun co => co.repeats ⟨c.val + 1, 0, u.val, v.val, w.val⟩)).trans
      (placed_moves _ x.co.mask (fun _ => ⟨x.co.hdr, x.co.idx + 1⟩) 0)
    refine ⟨becomes.step hg ((issued_keeps s x).trans moves.keeps), noResult_of becomes.gang moves.seq moves.results, _,
      becomes.gang, stand_of_pcs moves.pcs, x.co.repeats ⟨c.val + 1, 0, u.val, v.val, w.val⟩, ?_, rfl, rfl, rfl⟩
    rw [acting_cid hx]
    exact onCohort_cohort (g := x.issued s) hc _
  · rw [if_neg (Bool.eq_false_iff.mp bad)]
    exact (trapWord_takes hx htrap hm (by decide)).1

end Sys2Proof.Machine
end

section
/-! The join stack while it is held in hardware (06 R120 to R126), and O17. -/
namespace Sys2Proof.Machine

/-! ### The stack's operations without slots -/

/-- Three entries need no slot (06 R120). -/
theorem pushEntry_held (s : State) (c : Ctx) {g : Gang} (h : g.stack.length < 3) (e : Mask × Mask) :
    s.pushEntry c g e = .ok (s, e :: g.stack) := by
  unfold State.pushEntry
  split
  · rename_i full
    rw [full] at h
    simp only [List.length_cons] at h
    omega
  · rfl

/-- A stack of which no entry has a copy writes nothing through. -/
theorem writeThrough_uncopied (s : State) (c : Ctx) {g : Gang} (h : g.copied = 0) (changed : Bool) (st : List (Mask × Mask)) :
    s.writeThrough c g changed st = .ok s := by
  unfold State.writeThrough
  split
  · rfl
  · rw [h]
    simp

/-- The innermost entry waits: some of its lanes have not exited, and not all of these have arrived (06 R122). -/
def topWaits (gone : Mask) (st : List (Mask × Mask)) : Prop :=
  ∀ e ∈ st.head?, e.1 &&& ~~~gone ≠ 0 ∧ e.2 ≠ e.1 &&& ~~~gone

/-- A settle stops at an entry that waits. -/
theorem settle_waiting (s : State) (c : Ctx) (g : Gang) {gone : Mask} {st : List (Mask × Mask)} (h : topWaits gone st)
    (n : Nat) (rel : Mask) : s.settle c g gone (n + 1) st rel = .ok (s, st, rel) := by
  cases st with
  | nil => rfl
  | cons e rest =>
    obtain ⟨lanes, missing⟩ := h e rfl
    rw [State.settle]
    rw [if_neg (not_or.mpr ⟨lanes, missing⟩)]

/-- A complete entry pops and releases its lanes; while the entries below it are held, no slot is read. -/
theorem settle_complete (s : State) (c : Ctx) (g : Gang) {gone : Mask} {e : Mask × Mask} {rest : List (Mask × Mask)}
    (lanes : e.1 &&& ~~~gone ≠ 0) (complete : e.2 = e.1 &&& ~~~gone) (held : rest.length < 8) (n : Nat) (rel : Mask) :
    s.settle c g gone (n + 1) (e :: rest) rel = s.settle c g gone n rest (rel ||| e.2) := by
  rw [State.settle]
  rw [if_pos (.inr complete), if_neg lanes]
  unfold State.afterPop
  rw [if_neg (Nat.not_le_of_lt held)]

/-- Lanes dropped from entries that are held and have no copies (06 R125). -/
theorem dropFrom_held (s : State) (c : Ctx) {g : Gang} (h : g.copied = 0) (m : Mask) (k i : Nat) {st : List (Mask × Mask)}
    (held : i + st.length ≤ 8) :
    s.dropFrom c g m k i st = .ok (s, (st.take k).map (fun e => (e.1 &&& ~~~m, e.2)) ++ st.drop k) := by
  induction k generalizing i st with
  | zero => rfl
  | succ k ih =>
    cases st with
    | nil => rfl
    | cons e rest =>
      rw [List.length_cons] at held
      rw [State.dropFrom]
      dsimp only
      rw [if_neg (by omega)]
      dsimp only
      rw [if_neg (by omega)]
      dsimp only
      rw [ih (i + 1) (by omega)]
      rfl

/-! ### A change of the stack -/

/-- A gang with a new join stack, of which the entries below the three innermost have copies. -/
def Gang.stacked (g : Gang) (st : List (Mask × Mask)) : Gang :=
  { g with stack := st, copied := min st.length (max g.copied (st.length - 3)) }

theorem commitStack_becomes {s u : State} {k : Nat} {g : Gang} (h : GangBecomes s u k g) (st : List (Mask × Mask)) (rel : Mask) :
    ∃ ready since ws, GangBecomes s (u.commitStack k st rel) k ((g.stacked st).freed rel ready since ws) :=
  releaseClass_becomes (h.onGang _) rel

/-- A change of the stack that releases no lane. -/
theorem commitStack_none (u : State) (k : Nat) (st : List (Mask × Mask)) :
    u.commitStack k st 0 = u.onGang k (fun g => g.stacked st) := by
  unfold State.commitStack State.releaseClass
  rw [if_pos rfl]
  rfl

/-- What `jpush` and `jdrop` do: the stack is new, and the cohort goes on. -/
theorem restack_does {s : State} {x : Acting} (hx : s.acting = some x) (hplain : x.plain) (st : List (Mask × Mask)) :
    let t := (s.issue.commitStack x.gid st 0).finish
    GangOnly s t x.gid ∧ NoResult t x ∧ Then t x.gid (fun h => h.stack = st ∧ Stand x h (fun _ => x.co.nextPc) ∧
      ∀ l, (x.gang.lane l).sameBut (h.lane l)) := by
  obtain ⟨-, -, hc, -⟩ := acting_gang hx
  rw [commitStack_none]
  obtain ⟨h, becomes, moves⟩ := goes_on hx hplain ((becomes_issue hx).onGang (fun g => g.stacked st)) hc rfl
  exact ⟨becomes.only, noResult_of becomes.gang moves.seq moves.results, h, becomes.gang, moves.keeps.stack,
    stand_of_pcs moves.pcs, moves.keeps.lanes⟩

/-! ### Arrivals (06 R124) -/

/-- A gang of which lanes wait at an entry: they are parked, and remember the SWITCH bit of their word (05 R86). -/
def Gang.waiting (g : Gang) (m : Mask) (sw : Bool) (since : Nat) : Gang :=
  { g.mapLanes m (fun _ y => { y with parked := true, sw := sw }) with parkedSince := since }

/-- Lanes of the cohort have arrived: they have left their word for the next one and wait there. -/
def State.arriveAt (s : State) (x : Acting) (m : Mask) : State :=
  ((s.issue.leave m).setPcs m (fun _ => x.co.nextPc) 0).onGang x.gid (fun g =>
    g.waiting m x.co.switchBit (if m = 0 then g.parkedSince else s.issue.enabled g.core))

/-- A gang of which all lanes of a cohort have arrived. -/
def Gang.arriving (g : Gang) (cid : Nat) (m : Mask) (pc : Pc) (sw : Bool) (since : Nat) : Gang :=
  ((g.without cid).placed m (fun _ => pc) 0).waiting m sw since

/-- The gang of a cohort that has arrived. -/
def Acting.arrived (s : State) (x : Acting) : Gang :=
  (x.issued s).arriving s.cur.2 x.co.mask x.co.nextPc x.co.switchBit
    (if x.co.mask = 0 then x.gang.parkedSince else s.issue.enabled x.gang.core)

/-- A lane that has arrived. -/
def Lane.arrive (x : Lane) (pc : Pc) (sw : Bool) : Lane := { x with pc := pc, rep := 0, parked := true, sw := sw }

theorem leaving_all {g : Gang} {cid : Nat} {c : Cohort} (hc : assocGet? g.cohorts cid = some c) :
    g.leaving cid c.mask = g.without cid := by
  unfold Gang.leaving
  simp only [hc, BitVec.and_not_self, if_true]
  rfl

theorem arrive_becomes {s : State} {x : Acting} (hx : s.acting = some x) :
    GangBecomes s (s.arriveAt x x.co.mask) x.gid (x.arrived s) := by
  obtain ⟨-, -, hc, -⟩ := acting_gang hx
  have left := (becomes_issue hx).leave x.co.mask
  rw [leaving_all (g := x.issued s) hc] at left
  exact (left.setPcs x.co.mask (fun _ => x.co.nextPc) 0).onGang _

theorem arriving_keeps (g : Gang) (cid : Nat) (m : Mask) (pc : Pc) (sw : Bool) (since : Nat) :
    (g.arriving cid m pc sw since).seq = g.seq ∧ (g.arriving cid m pc sw since).results = g.results ∧
      (g.arriving cid m pc sw since).lanes.length = g.lanes.length ∧
      (g.arriving cid m pc sw since).cohorts = assocErase g.cohorts cid := by
  unfold Gang.arriving Gang.waiting Gang.placed
  exact ⟨rfl, rfl, (mapLanes_length ..).trans (mapLanes_length ..), rfl⟩

theorem arriving_lane {g : Gang} {l : Nat} (hl : l < g.lanes.length) (cid : Nat) (m : Mask) (pc : Pc) (sw : Bool)
    (since : Nat) : (g.arriving cid m pc sw since).lane l =
      if m.getLsbD l = true then (g.lane l).arrive pc sw else g.lane l := by
  have placed := mapLanes_lane (g.without cid) m (fun _ y => { y with pc := pc, rep := 0 }) l
  have parked := mapLanes_lane ((g.without cid).placed m (fun _ => pc) 0) m (fun _ y => { y with parked := true, sw := sw }) l
  rw [show (g.without cid).mapLanes m (fun _ y => { y with pc := pc, rep := 0 }) =
    (g.without cid).placed m (fun _ => pc) 0 from rfl] at placed
  refine parked.trans ?_
  rw [placed]
  by_cases hm : m.getLsbD l = true
  · rw [if_pos ⟨(mapLanes_length ..).symm ▸ hl, hm⟩, if_pos ⟨hl, hm⟩, if_pos hm]
    rfl
  · rw [if_neg (fun h => hm h.2), if_neg (fun h => hm h.2), if_neg hm]
    rfl

theorem arrived_lane {s : State} {x : Acting} {l : Nat} (hl : l < x.gang.lanes.length) : (x.arrived s).lane l =
    if l ∈ x.lanes then (x.gang.lane l).arrive x.co.nextPc x.co.switchBit else x.gang.lane l :=
  (arriving_lane (g := x.issued s) hl ..).trans (if_congr (lanesOf_mem ..).symm rfl rfl)

/-- A `jwait` whose lanes are all expected, as the settle answers. -/
theorem exec_jwait_all {s : State} {x : Acting} (hx : s.acting = some x) {top : Mask × Mask} {rest st : List (Mask × Mask)}
    (stack : x.gang.stack = top :: rest) (copied : x.gang.copied = 0) (expected : x.co.mask &&& top.1 = x.co.mask) {rel : Mask}
    (settles : s.issue.settle x.ctx x.gang x.gang.gone (rest.length + 2) ((top.1, top.2 ||| x.co.mask) :: rest) 0 =
      .ok (s.issue, st, rel)) :
    exec .jwait s = .next (((s.arriveAt x x.co.mask).commitStack x.gid st rel).finish) := by
  refine (congrArg Host.Outcome.next (act_of_acting hx _)).trans ?_
  simp only [stack, expected, writeThrough_uncopied _ _ copied, Except.bind, List.length_cons, settles]
  rfl

/-- What such a `jwait` does: its cohort is gone, and each of its lanes waits at the next word, or is released there. -/
theorem arrive_does {s : State} {x : Acting} (hx : s.acting = some x) (st : List (Mask × Mask)) (rel : Mask) :
    let t := ((s.arriveAt x x.co.mask).commitStack x.gid st rel).finish
    GangOnly s t x.gid ∧ NoResult t x ∧ Then t x.gid (fun h => h.stack = st ∧ Stand x h (fun _ => x.co.nextPc) ∧
      ∀ l, l < x.gang.lanes.length →
        let y := if l ∈ x.lanes then (x.gang.lane l).arrive x.co.nextPc x.co.switchBit else x.gang.lane l
        h.lane l = if rel.getLsbD l = true then y.freed else y) := by
  obtain ⟨ready, since, ws, becomes⟩ := commitStack_becomes (arrive_becomes hx) st rel
  obtain ⟨seq, results, length, cohorts⟩ : (x.arrived s).seq = x.gang.seq + 1 ∧ _ ∧ _ ∧ _ := arriving_keeps ..
  obtain ⟨seq', results', stack, -, cohorts'⟩ := freed_keeps ((x.arrived s).stacked st) rel ready since ws
  have lanes (l : Nat) (hl : l < x.gang.lanes.length) :
      (((x.arrived s).stacked st).freed rel ready since ws).lane l =
        if rel.getLsbD l = true then ((x.arrived s).lane l).freed else (x.arrived s).lane l :=
    (freed_lane ..).trans (if_congr (and_iff_right (length.symm ▸ hl)) rfl rfl)
  have ended : assocGet? (((x.arrived s).stacked st).freed rel ready since ws).cohorts s.cur.2 = none := by
    rw [cohorts', show ((x.arrived s).stacked st).cohorts = _ from cohorts]
    exact assocGet?_assocErase_self ..
  rw [finish_ended (acting_ended becomes ended)]
  refine ⟨becomes.only, noResult_of becomes.gang (seq'.trans seq) (results'.trans results), _, becomes.gang, stack,
    fun l hl => ?_, fun l hl => ?_⟩
  · rw [lanes l hl, arrived_lane hl]
    by_cases hm : l ∈ x.lanes
    · rw [if_pos hm, if_pos hm]
      split <;> rfl
    · rw [if_neg hm, if_neg hm]
      split <;> rfl
  · rw [lanes l hl, arrived_lane hl]

/-- On an empty stack no lane arrives, and the stack stays empty (06 R124). -/
theorem exec_jwait_empty {s : State} {x : Acting} (hx : s.acting = some x) (empty : x.gang.stack = []) :
    exec .jwait s = .next (((s.arriveAt x 0).commitStack x.gid [] 0).finish) := by
  refine (congrArg Host.Outcome.next (act_of_acting hx _)).trans ?_
  simp only [empty]
  rfl

theorem waiting_moves (g : Gang) (m : Mask) (sw : Bool) (since : Nat) : g.Moves (g.waiting m sw since) (fun _ p => p) :=
  (parked_moves g m sw).trans (rest_moves ..)

/-- A stack committed as it was keeps the gang. -/
theorem stacked_moves (g : Gang) {st : List (Mask × Mask)} (same : g.stack = st) : g.Moves (g.stacked st) (fun _ p => p) :=
  ⟨⟨fun _ => rfl, rfl, same.symm, rfl, rfl, rfl, rfl, rfl, rfl, rfl, rfl⟩, rfl, rfl, rfl, fun _ _ => rfl⟩

theorem movedBy_zero (pc : Nat → Pc) (l : Nat) (p : Pc) : movedBy 0 pc l p = p := by simp [movedBy]

/-- No lane leaves a cohort, and none is placed. -/
theorem none_moves (g : Gang) (cid : Nat) (pc : Nat → Pc) (rep : Nat) :
    g.Moves ((g.leaving cid 0).placed 0 pc rep) (fun _ p => p) :=
  ((leaving_moves g cid 0).trans (placed_moves _ 0 pc rep)).congr (fun _ _ => movedBy_zero ..)

/-- What such a `jwait` does: the cohort passes. -/
theorem jwait_passes {s : State} {x : Acting} (hx : s.acting = some x) (hplain : x.plain) (empty : x.gang.stack = []) :
    let t := ((s.arriveAt x 0).commitStack x.gid [] 0).finish
    GangStep s t x.gid ∧ NoResult t x ∧ Then t x.gid (fun h => Stand x h (fun _ => x.co.nextPc)) := by
  obtain ⟨-, hg, hc, ht⟩ := acting_gang hx
  rw [commitStack_none]
  have becomes := ((((becomes_issue hx).leave 0).setPcs 0 (fun _ => x.co.nextPc) 0).onGang (fun g =>
    g.waiting 0 x.co.switchBit (if (0 : Mask) = 0 then g.parkedSince else s.issue.enabled g.core))).onGang
      (fun g => g.stacked [])
  have waiting (since : Nat) := (none_moves (x.issued s) s.cur.2 (fun _ => x.co.nextPc) 0).trans
    (waiting_moves _ 0 x.co.switchBit since)
  have moves (since : Nat) := (waiting since).trans (stacked_moves _ ((waiting since).keeps.stack.trans empty))
  obtain ⟨h, finished, moves'⟩ := finish_left becomes (g₀ := x.issued s) (m := 0)
    (by simp only [Gang.stacked, Gang.waiting, Gang.placed, Gang.mapLanes]) hc hplain.2 ((moves _).keeps.team ▸ ht)
  have all := (moves _).trans moves'
  refine ⟨finished.step hg ((issued_keeps s x).trans all.keeps), noResult_of finished.gang all.seq all.results, h,
    finished.gang, stand_of_pcs fun l hl => ?_⟩
  rw [all.pcs l hl, and_not_zero]
  rfl

/-! ### O17 -/

theorem exec_jpush {s : State} {x : Acting} (hx : s.acting = some x) (room : x.gang.stack.length < 3) :
    exec .jpush s = .next ((s.issue.commitStack x.gid ((x.co.mask, 0) :: x.gang.stack) 0).finish) := by
  refine (congrArg Host.Outcome.next (act_of_acting hx _)).trans ?_
  simp only [pushEntry_held _ _ room]

theorem exec_jdrop {s : State} {x : Acting} (hx : s.acting = some x) {k : Fin 64} (held : x.gang.stack.length ≤ 3)
    (copied : x.gang.copied = 0)
    (waits : topWaits x.gang.gone ((x.gang.stack.take (k.val + 1)).map (fun e => (e.1 &&& ~~~x.co.mask, e.2)) ++
      x.gang.stack.drop (k.val + 1))) :
    exec (.jdrop k) s = .next ((s.issue.commitStack x.gid ((x.gang.stack.take (k.val + 1)).map
      (fun e => (e.1 &&& ~~~x.co.mask, e.2)) ++ x.gang.stack.drop (k.val + 1)) 0).finish) := by
  refine (congrArg Host.Outcome.next (act_of_acting hx _)).trans ?_
  simp only [dropFrom_held _ _ copied _ _ 0 (show 0 + x.gang.stack.length ≤ 8 by omega), settle_waiting _ _ _ waits]

/-- `jdepth` writes the depth exactly in every lane of its cohort (06 R126). -/
theorem jdepth_does {s : State} {x : Acting} (hx : s.acting = some x) (hplain : x.plain) (d : Fin 128)
    (hd : d.val < 8 * x.gang.nregs) :
    ∃ t, exec (.jdepth d) s = .next t ∧ GangOnly s t x.gid ∧ NoResult t x ∧ Then t x.gid (fun h =>
      Stand x h (fun _ => x.co.nextPc) ∧ ∀ l ∈ x.lanes, t.reg h l d.val = BitVec.ofNat 32 x.gang.stack.length ∧
        RegsKept (x.gang.lane l) (h.lane l) [d.val]) := by
  obtain ⟨-, -, hc, -⟩ := acting_gang hx
  refine ⟨_, congrArg Host.Outcome.next (act_of_acting hx _), ?_⟩
  have becomes := (becomes_issue hx).foldl (f := fun s l => s.onGang x.gid (fun g =>
    g.writeNow l d.val (BitVec.ofNat 32 x.gang.stack.length))) (fun _ _ _ h => h.onGang _) x.lanes
  have writes := lanes_write (g := x.issued s) hplain rfl (ps := [(d.val, BitVec.ofNat 32 x.gang.stack.length)]) (by
    simp only [List.forall_mem_cons]
    exact ⟨hd, nofun⟩)
  obtain ⟨h, finished, none, stands, nregs, regs⟩ := writes_go_on hx hplain (.refl _) writes (.refl _) becomes
    ((congrArg (fun g : Gang => assocGet? g.cohorts s.cur.2) writes.rest).trans hc)
  refine ⟨finished.only, none, h, finished.gang, stands, fun l hl => ?_⟩
  have regs := regs _ (List.mem_map_of_mem hl)
  refine ⟨reg_listed (nregs.symm ▸ hd) ?_, fun r hr => ?_⟩
  · rw [regs]
    exact assocGet?_assocSet_self ..
  · rw [regs]
    exact written_kept _ _ [(d.val, _)] r hr

/-- Settles O17: the settle stops, or pops the one entry that is complete, and each word does what is left of it. -/
theorem joinStack : Obligations.JoinStack := by
  unfold Obligations.JoinStack
  intro s x hx hplain hswitch eff waits next
  refine ⟨fun room => ⟨_, exec_jpush hx room, restack_does hx hplain _⟩,
    fun top rest stack held copied expected _ => ⟨fun entry => ?_, fun entry below => ?_⟩,
    fun empty => ⟨_, exec_jwait_empty hx empty, jwait_passes hx hplain empty⟩,
    fun k held copied waiting => ⟨_, exec_jdrop hx held copied waiting, restack_does hx hplain _⟩,
    fun d hd => jdepth_does hx hplain d hd⟩
  · have settles := settle_waiting s.issue x.ctx x.gang (gone := x.gang.gone)
      (st := (top.1, top.2 ||| x.co.mask) :: rest) (by rintro e ⟨⟩; exact entry) (rest.length + 1) 0
    obtain ⟨only, none, h, hg, hst, stands, lanes⟩ := arrive_does hx ((top.1, top.2 ||| x.co.mask) :: rest) 0
    refine ⟨_, exec_jwait_all hx stack copied expected settles, only, none, h, hg, hst, stands, fun l hl => ?_⟩
    rw [lanes l (hplain.1 l hl), if_pos hl, if_neg (by simp)]
    rfl
  · obtain ⟨some, complete⟩ := entry
    have settles := (settle_complete s.issue x.ctx x.gang (e := (top.1, top.2 ||| x.co.mask)) some complete held
      (rest.length + 1) 0).trans (settle_waiting _ _ _ below rest.length _)
    rw [show (0 : Mask) ||| (top.1, top.2 ||| x.co.mask).2 = top.2 ||| x.co.mask from BitVec.zero_or] at settles
    obtain ⟨only, none, h, hg, hst, stands, lanes⟩ := arrive_does hx rest (top.2 ||| x.co.mask)
    refine ⟨_, exec_jwait_all hx stack copied expected settles, only, none, h, hg, hst, stands, fun l hl released => ?_⟩
    rw [lanes l hl, if_pos released]
    refine ⟨rfl, rfl, fun cause => ?_⟩
    by_cases hm : l ∈ x.lanes
    · rw [if_pos hm]
      exact hswitch
    · rw [if_neg hm]
      exact cause.resolve_left hm

end Sys2Proof.Machine
end

section
/-! The team barrier (06 R128). -/
namespace Sys2Proof.Machine

/-! ### Release points with nothing to wait for (10 R223, 17 R335) -/

theorem takeDue_none {s : State} {x : Acting} (hx : s.acting = some x) (due : x.gang.due = []) : s.takeDue = s := by
  unfold State.takeDue
  rw [act_of_acting hx, due]
  rfl

/-- A release point of a cohort with no access and no record pending. -/
theorem afterAll_ready {s : State} {x : Acting} (hx : s.acting = some x) {pending : Acting → Bool} (ready : pending x = false)
    (records : s.dueRecords x.gid x.co.mask true = []) (k : State → State) : s.afterAll pending k = k s := by
  have due : s.dueLanes x.gid x.co.mask true = 0 := by
    unfold State.dueLanes
    rw [records]
    rfl
  unfold State.afterAll
  rw [act_of_acting hx, ready, due]
  rfl

/-! ### When the barrier completes -/

/-- A team waits at its barrier for a lane that has neither exited nor arrived. -/
def Gang.awaited (g : Gang) (team : Nat) : Prop :=
  g.team = team ∧ ∃ l, l < g.lanes.length ∧ l < 64 ∧ (g.lane l).live = true ∧ g.arrived.getLsbD l = false

theorem missing_getLsbD (g : Gang) (l : Nat) :
    (g.lanesWhere (fun _ x => x.live) &&& ~~~g.arrived).getLsbD l = true ↔
      l < g.lanes.length ∧ l < 64 ∧ (g.lane l).live = true ∧ g.arrived.getLsbD l = false := by
  unfold Gang.lanesWhere
  rw [BitVec.getLsbD_and, BitVec.getLsbD_not, maskOf_getLsbD]
  simp only [Bool.and_eq_true, Bool.not_eq_true', decide_eq_true_eq, List.mem_filter, List.mem_range]
  tauto

theorem missing_eq_zero (g : Gang) : (g.lanesWhere (fun _ x => x.live) &&& ~~~g.arrived == 0) = true ↔
    ¬ g.awaited g.team := by
  rw [beq_iff_eq]
  constructor
  · rintro none ⟨-, l, hl⟩
    have bit := (missing_getLsbD g l).mpr hl
    rw [none] at bit
    exact absurd bit (by simp)
  · intro none
    refine BitVec.eq_of_getLsbD_eq (fun l hl => Bool.eq_false_iff.mpr (fun bit => none ⟨rfl, l, ?_⟩) |>.trans ?_)
    · exact (missing_getLsbD g l).mp bit
    · exact BitVec.getLsbD_zero.symm

/-- While a lane is missing nothing happens. -/
theorem barrier_waits {s : State} {team : Nat} (h : ∃ p ∈ s.gangs, p.2.awaited team) : s.barrier team = s := by
  obtain ⟨p, hp, waits⟩ := h
  have mine : p ∈ s.gangsOf team := List.mem_filter.mpr ⟨hp, beq_iff_eq.mpr waits.1⟩
  have missing : (s.gangsOf team).all (fun g => g.2.lanesWhere (fun _ x => x.live) &&& ~~~g.2.arrived == 0) = false := by
    refine List.all_eq_false.mpr ⟨p, mine, fun none => (missing_eq_zero p.2).mp none ?_⟩
    rw [waits.1]
    exact waits
  unfold State.barrier
  split
  · rfl
  · simp only [missing, Bool.and_false, Bool.false_eq_true, if_false]

/-- The only gang of a team completes the barrier when no lane of it is missing. -/
theorem barrier_completes {s : State} {k : Nat} {g : Gang} {tm : Team} (only : s.gangs = [(k, g)])
    (ht : s.team? g.team = some tm) (some : g.arrived ≠ 0) (all : ¬ g.awaited g.team) :
    s.barrier g.team = (((s.acquireLanes k g.arrived tm.barVc).onGang k (fun y => { y with arrived := 0 })).releaseClass
      k g.arrived).onTeam g.team (fun x => { x with barVc := [] }) := by
  have mine : s.gangsOf g.team = [(k, g)] := by
    unfold State.gangsOf
    rw [only]
    simp
  unfold State.barrier
  simp only [ht, mine, List.any_cons, List.any_nil, List.all_cons, List.all_nil, (missing_eq_zero g).mpr all,
    bne_iff_ne.mpr some, Bool.or_false, Bool.and_true, if_true, List.foldl_cons, List.foldl_nil]

/-- An entry of a list of pairs stays, or is the one that a key sets anew. -/
theorem mem_assocSet {α : Type} {xs : List (Nat × α)} {p : Nat × α} (h : p ∈ xs) (k : Nat) (v : α) :
    p ∈ assocSet xs k v ∨ p.1 = k ∧ assocGet? xs k = some p.2 := by
  induction xs with
  | nil => cases h
  | cons q xs ih =>
    obtain ⟨j, w⟩ := q
    unfold assocSet
    split
    · exact .inl (List.mem_cons_of_mem _ h)
    · split
      · rename_i here
        rcases List.mem_cons.mp h with rfl | h
        · exact .inr ⟨here, by simp [assocGet?, here]⟩
        · exact .inl (List.mem_cons_of_mem _ h)
      · rename_i there
        rcases List.mem_cons.mp h with rfl | h
        · exact .inl List.mem_cons_self
        · refine (ih h).imp (List.mem_cons_of_mem _) (fun found => ⟨found.1, ?_⟩)
          simp only [assocGet?, there, if_false]
          exact found.2

/-! ### Arrivals -/

/-- Lanes that publish their clocks (11 R258). -/
def Gang.released (g : Gang) (k : Nat) (m : Mask) : Gang := g.mapLanes m (fun l x => (x.release (laneParty k l)).2)

theorem releaseLanes_becomes {s u : State} {k : Nat} {g : Gang} (h : GangBecomes s u k g) (m : Mask) :
    ∃ vc v, u.releaseLanes k m = (vc, v) ∧
      GangBecomes s v k (g.released k m) := by
  unfold State.releaseLanes
  rw [h.gang]
  exact ⟨_, _, rfl, h.setGang _⟩

theorem onTeam_rest (s : State) (t : Nat) (f : Team → Team) : s.onTeam t f = { s with teams := (s.onTeam t f).teams } := by
  unfold State.onTeam
  split <;> rfl

/-- A gang of which all lanes of a cohort wait at the barrier. -/
def Gang.barring (g : Gang) (cid : Nat) (m : Mask) (pc : Pc) (sw : Bool) (since : Nat) : Gang :=
  { g.arriving cid m pc sw since with arrived := g.arrived ||| m }

/-- What a cohort does to its gang when its lanes have released at the barrier. -/
theorem barring_becomes {s u : State} {k : Nat} {g : Gang} (h : GangBecomes s u k g) (m : Mask) (pc : Pc) (sw : Bool) :
    ∃ since, GangBecomes s ((u.endCohort.setPcs m (fun _ => pc) 0).onGang k (fun g =>
      { g.mapLanes m (fun _ x => { x with parked := true, sw := sw }) with
        arrived := g.arrived ||| m, parkedSince := u.endCohort.enabled g.core })) k (g.barring s.cur.2 m pc sw since) :=
  ⟨u.endCohort.enabled g.core, (h.endCohort.setPcs m (fun _ => pc) 0).onGang _⟩

theorem barring_keeps (g : Gang) (cid : Nat) (m : Mask) (pc : Pc) (sw : Bool) (since : Nat) :
    (g.barring cid m pc sw since).seq = g.seq ∧ (g.barring cid m pc sw since).results = g.results ∧
      (g.barring cid m pc sw since).lanes.length = g.lanes.length ∧ (g.barring cid m pc sw since).team = g.team ∧
      (g.barring cid m pc sw since).arrived = g.arrived ||| m := by
  obtain ⟨seq, results, length, -⟩ := arriving_keeps g cid m pc sw since
  exact ⟨seq, results, length, rfl, rfl⟩

/-- The gang of a cohort whose lanes wait at the barrier. -/
def Acting.barred (s : State) (x : Acting) (since : Nat) : Gang :=
  ((x.issued s).released x.gid x.co.mask).barring s.cur.2 x.co.mask x.co.nextPc x.co.switchBit since

theorem barred_keeps (s : State) (x : Acting) (since : Nat) : (x.barred s since).seq = x.gang.seq + 1 ∧
    (x.barred s since).results = x.gang.results ∧ (x.barred s since).lanes.length = x.gang.lanes.length ∧
    (x.barred s since).team = x.gang.team ∧ (x.barred s since).arrived = x.gang.arrived ||| x.co.mask := by
  obtain ⟨seq, results, length, team, arrived⟩ := barring_keeps ((x.issued s).released x.gid x.co.mask) s.cur.2 x.co.mask
    x.co.nextPc x.co.switchBit since
  exact ⟨seq, results, length.trans (mapLanes_length ..), team, arrived⟩

theorem barred_lane {s : State} {x : Acting} {l : Nat} (hl : l < x.gang.lanes.length) (since : Nat) :
    (x.barred s since).lane l = if l ∈ x.lanes then
      ((x.gang.lane l).release (laneParty x.gid l)).2.arrive x.co.nextPc x.co.switchBit else x.gang.lane l := by
  have released : ((x.issued s).released x.gid x.co.mask).lane l = _ := mapLanes_lane ..
  refine (arriving_lane (g := (x.issued s).released x.gid x.co.mask) ((mapLanes_length ..).symm ▸ hl) s.cur.2 x.co.mask
    x.co.nextPc x.co.switchBit since).trans ?_
  rw [released]
  unfold Acting.lanes
  simp only [lanesOf_mem]
  by_cases hm : x.co.mask.getLsbD l = true
  · rw [if_pos hm, if_pos ⟨hl, hm⟩, if_pos hm]
    rfl
  · rw [if_neg hm, if_neg (fun h => hm h.2), if_neg hm]
    rfl

/-- A team whose barrier takes the clock of lanes that arrive (06 R128). -/
def Team.joins (t : Team) (vc : Clock) : Team := { t with barVc := clockJoin t.barVc vc }

/-- A `bar` whose cohort has nothing pending: its lanes have arrived, its team's clock has theirs, and the barrier is looked
at. -/
theorem bar_arrives {s : State} {x : Acting} (hx : s.acting = some x) (due : x.gang.due = [])
    (accesses : s.accessPending x.gid x.co.mask 0 = false) (records : s.dueRecords x.gid x.co.mask true = []) :
    ∃ ts since u, exec .bar s = .next (u.barrier x.gang.team) ∧
      GangBecomes { s with teams := ts } u x.gid (x.barred s since) ∧ (u.team? x.gang.team).isSome := by
  obtain ⟨-, -, -, ht⟩ := acting_gang hx
  obtain ⟨vc, v, releases, released⟩ := releaseLanes_becomes (becomes_issue hx) x.co.mask
  have here : v.team? x.gang.team = some x.team := by
    unfold State.team? at ht ⊢
    rw [released.only.teams, ht]
  have joined := onTeam_rest v x.gang.team (·.joins vc)
  have team : (v.onTeam x.gang.team (·.joins vc)).team? x.gang.team = some (x.team.joins vc) := by
    rw [onTeam_eq _ _ _ here, setTeam_team, if_pos rfl]
  obtain ⟨since, arrives⟩ := barring_becomes (released.withTeams (v.onTeam x.gang.team (·.joins vc)).teams) x.co.mask x.co.nextPc
    x.co.switchBit
  rw [← joined] at arrives
  refine ⟨_, since, _, congrArg Host.Outcome.next ?_, arrives, ?_⟩
  · rw [takeDue_none hx due]
    unfold State.atRelease
    rw [afterAll_ready hx accesses records, act_of_acting hx, releases]
    rfl
  · unfold State.team? at team ⊢
    rw [arrives.only.teams]
    exact Option.isSome_of_eq_some team

theorem barred_stands {s : State} {x : Acting} (since : Nat) : Stand x (x.barred s since) (fun _ => x.co.nextPc) := by
  intro l hl
  rw [barred_lane hl]
  split <;> rfl

theorem barred_live {s : State} {x : Acting} {l : Nat} (hl : l < x.gang.lanes.length) (since : Nat) :
    ((x.barred s since).lane l).live = (x.gang.lane l).live := by
  rw [barred_lane hl]
  split <;> rfl

/-- A lane is still missing after the arrivals if it was missing before them and does not arrive itself. -/
theorem barred_awaited {s : State} {x : Acting} (since : Nat) : (x.barred s since).awaited x.gang.team ↔
    ∃ l, l < x.gang.lanes.length ∧ l < 64 ∧ (x.gang.lane l).live = true ∧ x.gang.arrived.getLsbD l = false ∧
      l ∉ x.lanes := by
  obtain ⟨-, -, length, team, arrived⟩ := barred_keeps s x since
  unfold Gang.awaited Acting.lanes
  rw [length, team, arrived]
  simp only [true_and, lanesOf_mem, BitVec.getLsbD_or, Bool.or_eq_false_iff, Bool.not_eq_true]
  exact exists_congr fun l => and_congr_right fun hl => by rw [barred_live hl]

/-- `bar` while a lane of the team is missing (06 R128). -/
theorem bar_waits {s : State} {x : Acting} (hx : s.acting = some x) (hplain : x.plain) (due : x.gang.due = [])
    (accesses : s.accessPending x.gid x.co.mask 0 = false) (records : s.dueRecords x.gid x.co.mask true = [])
    {g : Nat × Gang} (hg : g ∈ s.gangsOf x.gang.team) {l : Nat} (hl : l < g.2.lanes.length) (h64 : l < 64)
    (live : (g.2.lane l).live = true) (missing : g.2.arrived.getLsbD l = false) (other : ¬ (g.1 = x.gid ∧ l ∈ x.lanes)) :
    ∃ t, exec .bar s = .next t ∧ t.mem = s.mem ∧ NoResult t x ∧ Then t x.gid (fun h =>
      h.arrived = x.gang.arrived ||| x.co.mask ∧ Stand x h (fun _ => x.co.nextPc) ∧
        ∀ l ∈ x.lanes, (h.lane l).parked = true) := by
  obtain ⟨ts, since, u, runs, becomes, -⟩ := bar_arrives hx due accesses records
  obtain ⟨listed, team⟩ := List.mem_filter.mp hg
  obtain ⟨-, found, -, -⟩ := acting_gang hx
  have waits : ∃ p ∈ u.gangs, p.2.awaited x.gang.team := by
    rw [becomes.gangs]
    rcases mem_assocSet listed x.gid (x.barred s since) with stays | ⟨mine, here⟩
    · exact ⟨g, stays, beq_iff_eq.mp team, l, hl, h64, live, missing⟩
    · have same : x.gang = g.2 := Option.some.inj (found.symm.trans here)
      refine ⟨_, assocGet?_mem (assocGet?_assocSet_self ..), (barred_awaited since).mpr ⟨l, ?_⟩⟩
      rw [same]
      exact ⟨hl, h64, live, missing, fun arrives => other ⟨mine, arrives⟩⟩
  rw [barrier_waits waits] at runs
  obtain ⟨seq, results, -, -, arrived⟩ := barred_keeps s x since
  refine ⟨u, runs, becomes.only.mem, noResult_of becomes.gang seq results, _, becomes.gang, arrived, barred_stands since,
    fun l hl => ?_⟩
  rw [barred_lane (hplain.1 l hl), if_pos hl]
  rfl

/-- What a barrier that completes does to the gang: its arrived lanes acquire, and are released (06 R128). -/
theorem completed_becomes {s u : State} {k : Nat} {g : Gang} (h : GangBecomes s u k g) (vc : Clock) :
    ∃ g', GangBecomes s (((u.acquireLanes k g.arrived vc).onGang k (fun y => { y with arrived := 0 })).releaseClass k
      g.arrived) k g' ∧ g'.arrived = 0 ∧ ∀ l, l < g.lanes.length →
        g'.lane l = if g.arrived.getLsbD l = true then { g.lane l with vc := clockJoin (g.lane l).vc vc }.freed
          else g.lane l := by
  have acquired := h.onGang (fun y => y.mapLanes g.arrived (fun _ x => { x with vc := clockJoin x.vc vc }))
  obtain ⟨ready, since, ws, becomes⟩ := releaseClass_becomes (acquired.onGang (fun y => { y with arrived := 0 })) g.arrived
  obtain ⟨-, -, -, arrived, -⟩ := freed_keeps
    { g.mapLanes g.arrived (fun _ x => { x with vc := clockJoin x.vc vc }) with arrived := 0 } g.arrived ready since ws
  refine ⟨_, becomes, arrived, fun l hl => (freed_lane ..).trans ?_⟩
  have lane := mapLanes_lane g g.arrived (fun _ x => { x with vc := clockJoin x.vc vc }) l
  by_cases hm : g.arrived.getLsbD l = true
  · rw [if_pos ⟨(mapLanes_length ..).symm ▸ hl, hm⟩, if_pos hm]
    rw [if_pos ⟨hl, hm⟩] at lane
    exact congrArg Lane.freed lane
  · rw [if_neg (fun h => hm h.2), if_neg hm]
    rw [if_neg (fun h => hm h.2)] at lane
    exact lane

/-- `bar` of the last lanes of a machine with one gang (06 R128). -/
theorem bar_completes {s : State} {x : Acting} (hx : s.acting = some x) (hplain : x.plain) (due : x.gang.due = [])
    (accesses : s.accessPending x.gid x.co.mask 0 = false) (records : s.dueRecords x.gid x.co.mask true = [])
    (hm : x.co.mask ≠ 0) (only : s.gangs = [(x.gid, x.gang)]) (hswitch : x.co.switchBit = false)
    (all : ∀ l, l < x.gang.lanes.length → l < 64 → (x.gang.lane l).live = true → x.gang.arrived.getLsbD l = false →
      l ∈ x.lanes) :
    ∃ t, exec .bar s = .next t ∧ t.mem = s.mem ∧ Then t x.gid (fun h => h.arrived = 0 ∧
      Stand x h (fun _ => x.co.nextPc) ∧ ∀ l ∈ x.lanes, (h.lane l).parked = false ∧ (h.lane l).released = true) := by
  obtain ⟨ts, since, u, runs, becomes, present⟩ := bar_arrives hx due accesses records
  obtain ⟨tm, ht⟩ := Option.isSome_iff_exists.mp present
  obtain ⟨-, -, length, team, arrived⟩ := barred_keeps s x since
  have gangs : u.gangs = [(x.gid, x.barred s since)] := by
    rw [becomes.gangs, show State.gangs { s with teams := ts } = _ from only]
    simp [assocSet]
  have arrives (l : Nat) (hl : l ∈ x.lanes) : (x.barred s since).arrived.getLsbD l = true := by
    rw [arrived, BitVec.getLsbD_or, (lanesOf_mem ..).mp hl, Bool.or_true]
  have some : (x.barred s since).arrived ≠ 0 := fun none => by
    have bit := arrives x.leader (leader_mem hm)
    rw [none] at bit
    exact absurd bit (by simp)
  have complete : ¬ (x.barred s since).awaited (x.barred s since).team := by
    rw [team, barred_awaited]
    rintro ⟨l, hl, h64, live, missing, other⟩
    exact other (all l hl h64 live missing)
  obtain ⟨g, finished, none, lanes⟩ := completed_becomes becomes tm.barVc
  rw [← team, barrier_completes gangs (team.symm ▸ ht) some complete, onTeam_rest] at runs
  refine ⟨_, runs, finished.only.mem, g, finished.gang, none, fun l hl => ?_, fun l hl => ?_⟩
  · rw [lanes l (length.symm ▸ hl), ← barred_stands since l hl]
    split <;> rfl
  · rw [lanes l (length.symm ▸ hplain.1 l hl), if_pos (arrives l hl), barred_lane (hplain.1 l hl), if_pos hl]
    exact ⟨hswitch, rfl⟩

end Sys2Proof.Machine
end

section
/-! Exit, item refill (06 R130, R131), and O18. -/
namespace Sys2Proof.Machine

/-! ### The lanes that live, and what they hold -/

/-- Which lanes of a gang have exited, which live, and the registers that each holds. -/
abbrev Life : Type := Mask × (Nat → Bool × List (Nat × Word))

def Gang.life (g : Gang) : Life :=
  (g.gone, fun l => ((g.lane l).live, (g.lane l).regs))

/-- The same of a gang of the machine. -/
def State.lifeOf (s : State) (k : Nat) : Option Life := (s.gang? k).map Gang.life

theorem lifeOf_gangs {s t : State} (h : t.gangs = s.gangs) (k : Nat) : t.lifeOf k = s.lifeOf k := by
  unfold State.lifeOf State.gang?
  rw [h]

theorem lifeOf_becomes {s u : State} {k : Nat} {g : Gang} (h : GangBecomes s u k g) : u.lifeOf k = some g.life := by
  unfold State.lifeOf
  rw [h.gang]
  rfl

theorem lifeOf_onGang (s : State) (j k : Nat) {f : Gang → Gang} (hf : ∀ g, (f g).life = g.life) :
    (s.onGang j f).lifeOf k = s.lifeOf k := by
  unfold State.lifeOf
  rw [onGang_gang]
  split
  · cases s.gang? k with
    | none => rfl
    | some g => exact congrArg some (hf g)
  · rfl

theorem lifeOf_setGang {s : State} {j : Nat} {g g' : Gang} (hg : s.gang? j = some g) (same : g'.life = g.life) (k : Nat) :
    (s.setGang j g').lifeOf k = s.lifeOf k := by
  unfold State.lifeOf
  rw [setGang_gang]
  split
  · rename_i e
    rw [e, hg]
    exact congrArg some same
  · rfl

theorem life_mapLanes (g : Gang) (m : Mask) {f : Nat → Lane → Lane}
    (hf : ∀ l x, (f l x).live = x.live ∧ (f l x).regs = x.regs) : (g.mapLanes m f).life = g.life := by
  refine Prod.ext rfl (funext fun l => ?_)
  unfold Gang.life
  dsimp only
  rw [mapLanes_lane]
  split
  · rw [(hf l _).1, (hf l _).2]
  · rfl

/-- Lanes that have moved live and hold what they did. -/
theorem life_keeps {g h : Gang} (x : GangKeeps g h) : h.life = g.life := by
  refine Prod.ext x.gone (funext fun l => ?_)
  unfold Gang.life
  dsimp only
  rw [eq_of_sameBut (x.lanes l)]

theorem lifeOf_gangStep {s t : State} {j k : Nat} {y : Life} (h : GangStep s t j) (hy : s.lifeOf k = some y) :
    t.lifeOf k = some y := by
  rw [← hy]
  unfold State.lifeOf at hy ⊢
  obtain ⟨g, hg, -⟩ := Option.map_eq_some_iff.mp hy
  by_cases e : k = j
  · rw [e] at hg ⊢
    obtain ⟨g', hg', keeps⟩ := h.keeps hg
    rw [hg, hg']
    exact congrArg some (life_keeps keeps)
  · rw [h.others k e]

/-! ### What an exit does around its lanes -/

theorem fireMonitors_life (s : State) (line k : Nat) : (s.fireMonitors line).lifeOf k = s.lifeOf k := by
  unfold State.fireMonitors State.fireMonitorsIf
  refine foldl_reads (State.lifeOf · k) (fun s r => lifeOf_onGang s _ _ (fun g => life_mapLanes g _ (fun _ x => ?_))) _ s
  split
  · split <;> exact ⟨rfl, rfl⟩
  · exact ⟨rfl, rfl⟩

theorem trimMarks_gangs (s : State) (place n : Nat) : (s.trimMarks place n).gangs = s.gangs := by
  induction n generalizing s with
  | zero => rfl
  | succ n ih =>
    unfold State.trimMarks
    dsimp only
    split
    · rfl
    · split
      · rfl
      · split
        · rfl
        · rw [ih, tally_rest]
          rfl

theorem publishPins_life (s : State) (team : Nat) (pub : List Sync) (k : Nat) :
    (s.publishPins team pub).lifeOf k = s.lifeOf k := by
  unfold State.publishPins
  split
  · rfl
  · refine foldl_reads (State.lifeOf · k) (fun s p => (fireMonitors_life ..).trans ?_) _ s
    exact lifeOf_gangs (trimMarks_gangs ..) k

theorem releasePins_life (s : State) (team core scope : Nat) (vc : Clock) (k : Nat) :
    (s.releasePins team core scope vc).lifeOf k = s.lifeOf k := by
  unfold State.releasePins
  split
  · rfl
  · split
    · rfl
    · exact publishPins_life ..

/-- A release at team scope publishes no pin (11 R268). -/
theorem releasePins_team (s : State) (team core : Nat) (vc : Clock) : s.releasePins team core 0 vc = s := by
  unfold State.releasePins
  split <;> rfl

/-- What an exit leaves as it was, around the lanes that exit: memory, and the life of every gang. -/
def State.outward (s : State) (k : Nat) : Mem × Option Life := (s.mem, s.lifeOf k)

theorem onGang_mem (s : State) (k : Nat) (f : Gang → Gang) : (s.onGang k f).mem = s.mem := by rw [onGang_rest]

theorem outward_onGang (s : State) (j k : Nat) {f : Gang → Gang} (hf : ∀ g, (f g).life = g.life) :
    (s.onGang j f).outward k = s.outward k :=
  Prod.ext (onGang_mem s j f) (lifeOf_onGang s j k hf)

theorem lapseMonitors_outward (s : State) (p : MonReg → Bool) (k : Nat) : (s.lapseMonitors p).outward k = s.outward k := by
  unfold State.lapseMonitors
  refine (foldl_reads (State.outward · k) (fun s r => outward_onGang s _ _ (fun g => life_mapLanes g _ (fun _ x => ?_))) _
    _).trans rfl
  split
  · split <;> exact ⟨rfl, rfl⟩
  · exact ⟨rfl, rfl⟩

theorem wake_outward (s : State) (j : Nat) (m : Mask) (k : Nat) : (s.wake j m).outward k = s.outward k := by
  unfold State.wake
  split
  · rfl
  · rename_i g hg
    have same := life_mapLanes g m (f := fun _ x => { x with parked := x.sw, sw := false }) (fun _ _ => ⟨rfl, rfl⟩)
    dsimp only
    split
    · refine Prod.ext rfl (lifeOf_setGang hg ?_ k)
      exact same
    · refine Prod.ext rfl (lifeOf_setGang (s := { s with nextId := s.nextId + 1 }) hg ?_ k)
      exact same

theorem releaseClass_outward (s : State) (j : Nat) (m : Mask) (k : Nat) : (s.releaseClass j m).outward k = s.outward k := by
  unfold State.releaseClass
  split
  · rfl
  · exact (wake_outward ..).trans (outward_onGang s j k (fun g => life_mapLanes g m (fun _ _ => ⟨rfl, rfl⟩)))

theorem commitStack_outward (s : State) (j : Nat) (st : List (Mask × Mask)) (rel : Mask) (k : Nat) :
    (s.commitStack j st rel).outward k = s.outward k :=
  (releaseClass_outward ..).trans (outward_onGang s j k (fun _ => rfl))

theorem onTeam_outward (s : State) (t : Nat) (f : Team → Team) (k : Nat) : (s.onTeam t f).outward k = s.outward k := by
  rw [onTeam_rest]
  rfl

/-- The lanes that a barrier releases live on with their registers (06 R128). -/
theorem barrier_outward (s : State) (team k : Nat) : (s.barrier team).outward k = s.outward k := by
  unfold State.barrier
  split
  · rfl
  · dsimp only
    split
    · refine (onTeam_outward ..).trans (foldl_reads (State.outward · k) (fun s g => ?_) _ s)
      have cleared (u : State) := outward_onGang u g.1 k (f := fun y => { y with arrived := 0 }) (fun _ => rfl)
      have acquired (vc : Clock) := outward_onGang s g.1 k
        (f := fun y => y.mapLanes g.2.arrived (fun _ x => { x with vc := clockJoin x.vc vc }))
        (fun y => life_mapLanes y _ (fun _ _ => ⟨rfl, rfl⟩))
      exact (releaseClass_outward ..).trans ((cleared _).trans (acquired _))
    · rfl

/-! ### Lanes that exit -/

/-- The life of a gang of which lanes exit: what they held is still theirs. -/
def Life.without (x : Life) (m : Mask) : Life := (x.1 ||| m, fun l => ((x.2 l).1 && !m.getLsbD l, (x.2 l).2))

theorem retire_life (g : Gang) (m : Mask) : (g.retire m).life = Life.without g.life m := by
  refine Prod.ext rfl (funext fun l => ?_)
  have lane := mapLanes_lane g m
    (fun _ x => { x with live := false, parked := false, sw := false, monitor := none, frame := none }) l
  refine (congrArg (fun x : Lane => (x.live, x.regs)) lane).trans ?_
  unfold Life.without Gang.life
  by_cases hm : m.getLsbD l = true
  · by_cases hl : l < g.lanes.length
    · simp [hl, hm]
    · have absent : g.lane l = noLane := List.getD_eq_default _ _ (Nat.le_of_not_lt hl)
      simp [hl, hm, absent, noLane]
  · simp [hm]

/-- Lanes of a gang without a join stack exit (06 R131): around them the release, the monitors and the barrier leave every
gang's life as it is, and a release at team scope leaves memory as it is. -/
theorem exitLanes_does {s u : State} {k : Nat} {g : Gang} {t : Team} (h : GangBecomes s u k g) (ht : s.team? g.team = some t)
    (empty : g.stack = []) (m : Mask) (scope : Nat) :
    (u.exitLanes k m scope).lifeOf k = some (Life.without g.life m) ∧
      (scope = 0 → (u.exitLanes k m scope).mem = s.mem) := by
  have here : u.team? g.team = some t := by rw [← ht, h.rest]; rfl
  obtain ⟨vc, v, releases, released⟩ := releaseLanes_becomes h m
  have life : (g.released k m).life = g.life := life_mapLanes g m (fun _ _ => ⟨rfl, rfl⟩)
  have pins := (releasePins_life v g.team g.core scope (u.leadClock k m) k).trans (lifeOf_becomes released)
  rw [life] at pins
  have retired : ((v.releasePins g.team g.core scope (u.leadClock k m)).onGang k (fun g => g.retire m)).lifeOf k =
      some (Life.without g.life m) := by
    unfold State.lifeOf at pins ⊢
    obtain ⟨g', hg', same⟩ := Option.map_eq_some_iff.mp pins
    rw [onGang_gang, if_pos rfl, hg', ← same]
    exact congrArg some (retire_life g' m)
  have around : (u.exitLanes k m scope).outward k =
      ((v.releasePins g.team g.core scope (u.leadClock k m)).onGang k (fun g => g.retire m)).outward k := by
    unfold State.exitLanes
    simp only [h.gang, here, releases, empty]
    refine (barrier_outward ..).trans ((commitStack_outward ..).trans ?_)
    refine Eq.trans ?_ (lapseMonitors_outward _ (fun r => r.gang == k && m.getLsbD r.lane) k)
    split <;> rfl
  refine ⟨(congrArg Prod.snd around).trans retired, fun team => ?_⟩
  refine (congrArg Prod.fst around).trans ((onGang_mem ..).trans ?_)
  rw [team, releasePins_team]
  exact released.only.mem

/-- Lanes of the acting cohort have exited, and the others live as before (06 R131). -/
theorem gone_of_life {t : State} {x : Acting} (h : t.lifeOf x.gid = some (Life.without x.gang.life x.co.mask)) :
    Then t x.gid (fun h =>
      (∀ l ∈ x.lanes, (h.lane l).live = false ∧ h.gone.getLsbD l = true ∧ (h.lane l).regs = (x.gang.lane l).regs) ∧
      ∀ l, l < x.gang.lanes.length → l ∉ x.lanes → (h.lane l).live = (x.gang.lane l).live) := by
  obtain ⟨g, hg, same⟩ := Option.map_eq_some_iff.mp h
  obtain ⟨gone, lanes⟩ := Prod.mk.inj same
  have lane (l : Nat) := Prod.mk.inj (congrFun lanes l)
  refine ⟨g, hg, fun l hl => ?_, fun l _ hl => ?_⟩
  · have bit := (lanesOf_mem ..).mp hl
    obtain ⟨live, regs⟩ := lane l
    rw [bit, Bool.not_true, Bool.and_false] at live
    refine ⟨live, ?_, regs⟩
    rw [gone, BitVec.getLsbD_or, bit, Bool.or_true]
  · have bit := Bool.eq_false_iff.mpr (fun bit => hl ((lanesOf_mem x.co.mask l).mpr bit))
    obtain ⟨live, -⟩ := lane l
    rw [bit, Bool.not_false, Bool.and_true] at live
    exact live

/-- A cohort with no access pending may exit (06 R131). -/
theorem exitPending_of_accesses {s : State} {gid scope : Nat} {m : Mask} (h : s.accessPending gid m scope = false) :
    s.exitPending gid m scope = false := by
  refine Bool.eq_false_iff.mpr (fun pending => Bool.eq_false_iff.mp h ?_)
  obtain ⟨p, hp, waits⟩ := List.any_eq_true.mp pending
  refine List.any_eq_true.mpr ⟨p, hp, ?_⟩
  simp only [Bool.and_eq_true] at waits ⊢
  exact ⟨waits.1.1, waits.2⟩

/-- `exit` of a cohort with nothing pending, in a gang without a join stack. -/
theorem exit_does {s : State} {x : Acting} (hx : s.acting = some x) (due : x.gang.due = []) {scope : Fin 4}
    (accesses : s.accessPending x.gid x.co.mask scope.val = false) (records : s.dueRecords x.gid x.co.mask true = [])
    (empty : x.gang.stack = []) : ∃ t, exec (.exitv scope) s = .next t ∧
      t.lifeOf x.gid = some (Life.without x.gang.life x.co.mask) ∧ (scope = 0 → t.mem = s.mem) := by
  obtain ⟨-, -, -, ht⟩ := acting_gang hx
  obtain ⟨life, mem⟩ := exitLanes_does (becomes_issue hx).endCohort ht empty x.co.mask scope.val
  refine ⟨_, congrArg Host.Outcome.next ?_, life, fun h => mem (congrArg Fin.val h)⟩
  unfold State.exitWord
  rw [takeDue_none hx due, afterAll_ready hx (exitPending_of_accesses accesses) records, act_of_acting hx]

/-! ### Item refill (06 R129, R130) -/

theorem exitPending_none (s : State) (gid scope : Nat) : s.exitPending gid 0 scope = false :=
  List.any_eq_false.mpr (fun p _ => by simp)

theorem dueRecords_none (s : State) (gid : Nat) (strong : Bool) : s.dueRecords gid 0 strong = [] := by
  unfold State.dueRecords
  split
  · rfl
  · exact List.filter_eq_nil_iff.mpr (fun r _ => by simp [Gang.deliverable])

theorem deliver_none {s : State} {gid : Nat} {m : Mask} {strong : Bool} (h : s.dueRecords gid m strong = []) (pc : Pc)
    (rep tword : Nat) : s.deliver gid m strong pc rep tword = s := by
  unfold State.deliver
  rw [h]

/-- Without its oldest value of a launch a queue holds the later ones. -/
theorem itemsOf_takeItem {c : Core} {launch : Nat} {v : Word} {vs : List Word} (h : c.itemsOf launch = v :: vs) :
    Core.itemsOf { c with items := takeItem launch c.items } launch = vs := by
  unfold Core.itemsOf at h ⊢
  dsimp only
  generalize c.items = ps at h
  induction ps with
  | nil => cases h
  | cons p ps ih =>
    unfold takeItem
    by_cases mine : p.1 = launch
    · rw [List.filter_cons_of_pos (by simpa using mine), List.map_cons] at h
      rw [if_pos mine]
      exact (List.cons.inj h).2
    · rw [List.filter_cons_of_neg (by simpa using mine)] at h
      rw [if_neg mine, List.filter_cons_of_neg (by simpa using mine)]
      exact ih h

/-- The core of a cohort of which one lane has taken a value. -/
theorem itemsOf_taken {u : State} {core launch : Nat} {v : Word} {vs : List Word} (h : (u.core core).itemsOf launch = v :: vs)
    (k : Nat) (f : Gang → Gang) : (((u.onCore core (fun c => { c with items := takeItem launch c.items })).onGang k f).core
      core).itemsOf launch = vs := by
  rw [onGang_rest]
  refine (congrArg (Core.itemsOf · launch) ((setCore_core ..).trans (if_pos rfl))).trans ?_
  exact itemsOf_takeItem h

/-- A cohort takes values while the queue has one for each of its lanes. -/
theorem takeItems_becomes {s u : State} {k : Nat} {g : Gang} (h : GangBecomes s u k g) (core launch d : Nat) {ls : List Nat}
    {queued : List Word} (items : (u.core core).itemsOf launch = queued) (room : ls.length ≤ queued.length) :
    ∃ cs, GangBecomes { s with cores := cs } (u.takeItems k core launch d ls).1 k
      ((ls.zip queued).foldl (fun g p => g.writeNow p.1 d p.2) g) := by
  induction ls generalizing s u g queued with
  | nil => exact ⟨s.cores, h⟩
  | cons l ls ih =>
    cases queued with
    | nil => exact absurd room (by simp)
    | cons v vs =>
      have taken := (h.withCores (u.onCore core (fun c => { c with items := takeItem launch c.items })).cores).onGang
        (fun g => g.writeNow l d v)
      unfold State.takeItems
      rw [items]
      exact ih taken (itemsOf_taken items ..) (Nat.le_of_succ_le_succ room)

theorem takeItems_none {u : State} {core launch : Nat} (items : (u.core core).itemsOf launch = []) (k d : Nat) (ls : List Nat) :
    (u.takeItems k core launch d ls).1 = u := by
  cases ls with
  | nil => rfl
  | cons l ls =>
    unfold State.takeItems
    rw [items]

/-- A `refill` of a cohort whose lanes all find a value. -/
theorem exec_refill_all {s : State} {x : Acting} (hx : s.acting = some x) (d : Fin 128)
    (room : x.lanes.length ≤ ((s.core x.gang.core).itemsOf x.team.launch).length) :
    exec (.refill d) s = .next (((((s.leave 0).issue.takeItems x.gid x.gang.core x.team.launch d.val x.lanes).1.leave 0).setPcs
      0 (fun _ => x.pc) 0).finish) := by
  have rest : s.withoutItem x.gang.core x.team.launch x.lanes = [] := List.drop_eq_nil_of_le room
  have due : s.dueLanes x.gid 0 true = 0 := by
    unfold State.dueLanes
    rw [dueRecords_none]
    rfl
  refine congrArg Host.Outcome.next ((act_of_acting hx _).trans ?_)
  simp only [rest, show maskOf [] = 0 from rfl, ite_self, exitPending_none, Bool.false_eq_true, if_false, due,
    deliver_none (dueRecords_none ..), if_true]
  rfl

/-- A `refill` of a cohort whose lanes find no value while none is left for them (06 R130). -/
theorem exec_refill_none {s : State} {x : Acting} (hx : s.acting = some x) (d : Fin 128) (hm : x.co.mask ≠ 0)
    (accesses : s.accessPending x.gid x.co.mask 0 = false) (records : s.dueRecords x.gid x.co.mask true = [])
    (items : (s.core x.gang.core).itemsOf x.team.launch = []) (left : s.valuesLeft x.team.launch = false) :
    exec (.refill d) s = .next ((((s.leave 0).issue.leave x.co.mask).exitLanes x.gid x.co.mask 0).finish) := by
  have rest : maskOf (s.withoutItem x.gang.core x.team.launch x.lanes) = x.co.mask := by
    unfold State.withoutItem
    rw [items]
    exact maskOf_lanesOf _
  have due : s.dueLanes x.gid x.co.mask true = 0 := by
    unfold State.dueLanes
    rw [records]
    rfl
  have issued : ((s.leave 0).issue.core x.gang.core).itemsOf x.team.launch = [] := by
    unfold State.core at items ⊢
    rw [(becomes_leave hx 0).issue.only.cores]
    exact items
  refine congrArg Host.Outcome.next ((act_of_acting hx _).trans ?_)
  simp only [rest, left, Bool.false_eq_true, if_false, exitPending_of_accesses accesses, due,
    deliver_none (dueRecords_none ..), hm, takeItems_none issued, and_not_zero]

/-- The values that the lanes of a cohort take, one each. -/
theorem values_write {x : Acting} {g : Gang} (hplain : x.plain) (length : g.lanes.length = x.gang.lanes.length) {d : Nat}
    (hd : d < 8 * g.nregs) {queued : List Word} (room : x.lanes.length ≤ queued.length) :
    g.Writes ((x.lanes.zip queued).foldl (fun g p => g.writeNow p.1 d p.2) g)
      ((x.lanes.zip queued).map (fun p => (p.1, [(d, p.2)]))) := by
  have firsts : (x.lanes.zip queued).map (·.1) = x.lanes := List.map_fst_zip room
  have writes := writeLanes_writes g (ws := (x.lanes.zip queued).map (fun p => (p.1, [(d, p.2)]))) ?_ ?_ ?_
  · rwa [List.foldl_map] at writes
  · rw [List.map_map]
    exact firsts.symm ▸ lanesOf_nodup _
  · rintro w hw
    obtain ⟨p, hp, rfl⟩ := List.mem_map.mp hw
    have hl : p.1 ∈ x.lanes := (List.of_mem_zip hp).1
    exact ⟨lane_lt_64 hl, length.symm ▸ hplain.1 p.1 hl⟩
  · rintro w hw
    obtain ⟨p, -, rfl⟩ := List.mem_map.mp hw
    simp only [List.forall_mem_cons]
    exact ⟨hd, nofun⟩

/-- Each lane takes its value exactly, in ascending order (06 R130). -/
theorem refill_takes {s : State} {x : Acting} (hx : s.acting = some x) (hplain : x.plain) (hm : x.co.mask ≠ 0) (d : Fin 128)
    (hd : d.val < 8 * x.gang.nregs) {queued : List Word} (items : (s.core x.gang.core).itemsOf x.team.launch = queued)
    (room : x.lanes.length ≤ queued.length) :
    ∃ t, exec (.refill d) s = .next t ∧ t.mem = s.mem ∧ NoResult t x ∧
      Then t x.gid (fun h => Stand x h (fun _ => x.co.nextPc) ∧
        ∀ (j l : Nat), x.lanes[j]? = some l → queued[j]? = some (t.reg h l d.val) ∧
          RegsKept (x.gang.lane l) (h.lane l) [d.val]) := by
  obtain ⟨-, -, hc, -⟩ := acting_gang hx
  have begun := (becomes_leave hx 0).issue
  have still : (x.issued s).Moves ((x.gang.leaving s.cur.2 0).issued (s.leave 0).now) (fun _ p => p) :=
    (leaving_moves ..).issued ..
  have queue : ((s.leave 0).issue.core x.gang.core).itemsOf x.team.launch = queued := by
    unfold State.core at items ⊢
    rw [begun.only.cores]
    exact items
  obtain ⟨cs, taken⟩ := takeItems_becomes begun x.gang.core x.team.launch d.val queue room
  have writes := values_write (g := (x.gang.leaving s.cur.2 0).issued (s.leave 0).now) hplain still.length
    (still.keeps.nregs.symm ▸ hd) room
  have cohort := (congrArg (fun g : Gang => assocGet? g.cohorts s.cur.2) writes.rest).trans (leaving_none hc hm)
  obtain ⟨h, becomes, none, stands, nregs, regs⟩ := writes_go_on (s := { s with cores := cs }) hx hplain still writes
    (none_moves ..) ((taken.leave 0).setPcs 0 (fun _ => x.pc) 0) (leaving_none cohort hm)
  refine ⟨_, exec_refill_all hx d (items.symm ▸ room), becomes.only.mem, none, h, becomes.gang, stands, fun j l hj => ?_⟩
  obtain ⟨hlen, -⟩ := List.getElem?_eq_some_iff.mp hj
  obtain ⟨v, hv⟩ : ∃ v, queued[j]? = some v := ⟨_, List.getElem?_eq_getElem (Nat.lt_of_lt_of_le hlen room)⟩
  have pair : (l, v) ∈ x.lanes.zip queued :=
    List.mem_of_getElem? (List.getElem?_zip_eq_some.mpr ⟨hj, hv⟩)
  have regs := regs _ (List.mem_map_of_mem pair)
  refine ⟨hv.trans (congrArg some (reg_listed (nregs.symm ▸ hd) ?_).symm), fun r hr => ?_⟩
  · rw [regs]
    exact assocGet?_assocSet_self ..
  · rw [regs]
    exact written_kept _ _ [(d.val, _)] r hr

/-- Lanes that find no value, when none is left for them, exit with a release at team scope (06 R130). -/
theorem refill_exits {s : State} {x : Acting} (hx : s.acting = some x) (d : Fin 128) (hm : x.co.mask ≠ 0)
    (accesses : s.accessPending x.gid x.co.mask 0 = false) (records : s.dueRecords x.gid x.co.mask true = [])
    (items : (s.core x.gang.core).itemsOf x.team.launch = []) (left : s.valuesLeft x.team.launch = false)
    (empty : x.gang.stack = []) : ∃ t, exec (.refill d) s = .next t ∧
      t.lifeOf x.gid = some (Life.without x.gang.life x.co.mask) ∧ t.mem = s.mem := by
  obtain ⟨-, -, -, ht⟩ := acting_gang hx
  have begun := (becomes_leave hx 0).issue.leave x.co.mask
  have keeps := ((leaving_moves x.gang s.cur.2 0).issued s.now (s.leave 0).now).trans (leaving_moves _ s.cur.2 x.co.mask) |>.keeps
  have all := (issued_keeps s x).trans keeps
  obtain ⟨life, mem⟩ := exitLanes_does begun (all.team ▸ ht) (all.stack.trans empty) x.co.mask 0
  rw [life_keeps all] at life
  have finish := gangStep_finish (((s.leave 0).issue.leave x.co.mask).exitLanes x.gid x.co.mask 0)
  refine ⟨_, exec_refill_none hx d hm accesses records items left, lifeOf_gangStep finish life, ?_⟩
  exact finish.only.mem.trans (mem rfl)

/-- Settles O18: nothing is due at the release, so that the word arrives, exits or takes values at once. -/
theorem barrierRefillExit : Obligations.BarrierRefillExit := by
  unfold Obligations.BarrierRefillExit
  intro s x hx hplain hm due accesses records _ team waitsFor gone
  refine ⟨?_, fun only hswitch all => ?_, fun scope empty => ?_, fun d hd => ⟨fun room => ?_, fun items left empty => ?_⟩⟩
  · rintro ⟨g, hg, l, hl, h64, live, missing, other⟩
    exact bar_waits hx hplain due (accesses 0) records hg hl h64 live missing other
  · refine bar_completes hx hplain due (accesses 0) records hm only hswitch (fun l hl h64 live missing => ?_)
    exact not_not.mp (fun other => all ⟨l, hl, h64, live, missing, fun mine => other mine.2⟩)
  · obtain ⟨t, runs, life, mem⟩ := exit_does hx due (accesses scope.val) records empty
    exact ⟨t, runs, gone_of_life life, mem⟩
  · exact refill_takes hx hplain hm d hd rfl room
  · obtain ⟨t, runs, life, mem⟩ := refill_exits hx d hm (accesses 0) records items left empty
    exact ⟨t, runs, gone_of_life life, mem⟩

end Sys2Proof.Machine
end

section
/-! Which storage keeps its canonical form: DRAM with the host's pages, or the buffers of cores and the C-stores with those
of saved contexts. One rule for each part of the state; the operations that follow are built on them (log entry 4). -/
namespace Sys2Proof.Machine

/-- The storage of which a form is asked: wafer and host memory, or the buffers and C-stores. -/
inductive Storage where
  | memory
  | buffers

/-- The parts of a core, of an array, of a quad and of a tenant that are of this storage have their canonical form. -/
def Core.formed (κ : Storage) (c : Core) : Prop := κ = .buffers → memCanon c.abuf = true ∧ memCanon c.wbuf = true
def Array.formed (κ : Storage) (a : Array) : Prop := κ = .buffers → a.canonTiles
def Quad.formed (κ : Storage) (q : Quad) : Prop := ∀ y ∈ q.arrays, y.2.formed κ
def SavedQuad.formed (κ : Storage) (q : SavedQuad) : Prop := ∀ y ∈ q.arrays, y.2.formed κ
def Tenant.formed (κ : Storage) (t : Tenant) : Prop := ∀ q ∈ t.saved, q.2.formed κ

/-- Every part that is of this storage has its canonical form, among all the parts that hold storage. -/
structure Stored (κ : Storage) (mem host : Mem) (cores : List (Nat × Core)) (quads : List (Nat × Quad))
    (tenants : List (Nat × Tenant)) : Prop where
  mem : κ = .memory → memCanon mem = true
  host : κ = .memory → memCanon host = true
  cores : ∀ c ∈ cores, c.2.formed κ
  quads : ∀ q ∈ quads, q.2.formed κ
  tenants : ∀ t ∈ tenants, t.2.formed κ

/-- Every part of the machine that is of this storage has its canonical form. -/
structure State.formed (κ : Storage) (s : State) : Prop where
  stored : Stored κ s.mem s.host s.cores s.quads s.tenants

theorem formed_iff (κ : Storage) (s : State) : s.formed κ ↔ Stored κ s.mem s.host s.cores s.quads s.tenants :=
  ⟨fun h => h.stored, fun h => ⟨h⟩⟩

theorem formed_memory_iff (s : State) : s.formed .memory ↔ s.canon :=
  ⟨fun ⟨h⟩ => ⟨h.mem rfl, h.host rfl⟩, fun h => ⟨⟨fun _ => h.1, fun _ => h.2, fun _ _ => nofun, fun _ _ _ _ => nofun,
    fun _ _ _ _ _ _ => nofun⟩⟩⟩

theorem formed_buffers_iff (s : State) : s.formed .buffers ↔ s.canonBuffers :=
  ⟨fun ⟨h⟩ => ⟨fun c hc => h.cores c hc rfl, fun q hq y hy => h.quads q hq y hy rfl,
    fun t ht q hq y hy => h.tenants t ht q hq y hy rfl⟩,
   fun ⟨cores, quads, tenants⟩ => ⟨⟨nofun, nofun, fun c hc _ => cores c hc, fun q hq y hy _ => quads q hq y hy,
    fun t ht q hq y hy _ => tenants t ht q hq y hy⟩⟩⟩

/-! ### Lists of pairs -/

/-- What holds of every value of a list of pairs holds after one is set. -/
theorem forall_assocSet {α : Type} {p : α → Prop} {xs : List (Nat × α)} (h : ∀ y ∈ xs, p y.2) (i : Nat) {x : α} (hx : p x) :
    ∀ y ∈ assocSet xs i x, p y.2 := by
  induction xs with
  | nil => simpa [assocSet] using hx
  | cons y xs ih =>
    obtain ⟨j, w⟩ := y
    rw [List.forall_mem_cons] at h
    unfold assocSet
    split
    · exact List.forall_mem_cons.mpr ⟨hx, List.forall_mem_cons.mpr h⟩
    · split
      · exact List.forall_mem_cons.mpr ⟨hx, h.2⟩
      · exact List.forall_mem_cons.mpr ⟨h.1, ih h.2⟩

theorem mem_of_assocGet? {α : Type} {xs : List (Nat × α)} {i : Nat} {x : α} (h : assocGet? xs i = some x) : (i, x) ∈ xs := by
  induction xs with
  | nil => cases h
  | cons y xs ih =>
    obtain ⟨j, w⟩ := y
    unfold assocGet? at h
    split at h
    · rename_i e
      cases h
      rw [e]
      exact List.mem_cons_self
    · exact List.mem_cons_of_mem _ (ih h)

/-- What holds of every value of a list of pairs, and of the one that an absent key reads, holds of the one read. -/
theorem assocGet_of_forall {α : Type} {p : α → Prop} {d : α} {xs : List (Nat × α)} (h : ∀ y ∈ xs, p y.2) (hd : p d) (i : Nat) :
    p (assocGet d xs i) := by
  unfold assocGet
  cases hx : assocGet? xs i with
  | none => exact hd
  | some x => exact h _ (mem_of_assocGet? hx)

/-! ### Parts of the state -/

variable {κ : Storage} {s : State}

/-- The parts of the machine that hold storage. -/
def State.storage (s : State) : Mem × Mem × List (Nat × Core) × List (Nat × Quad) × List (Nat × Tenant) :=
  (s.mem, s.host, s.cores, s.quads, s.tenants)

/-- A change that leaves all storage alone. -/
theorem formed_same {t : State} (h : s.formed κ) (e : t.storage = s.storage) : t.formed κ := by
  simp only [State.storage, Prod.mk.injEq] at e
  obtain ⟨mem, host, cores, quads, tenants⟩ := e
  rw [formed_iff, mem, host, cores, quads, tenants]
  exact h.stored

theorem stored_mem {m n m' : Mem} {cs : List (Nat × Core)} {qs : List (Nat × Quad)} {ts : List (Nat × Tenant)}
    (h : Stored κ m n cs qs ts) (hm : memCanon m = true → memCanon m' = true) : Stored κ m' n cs qs ts :=
  { h with mem := fun e => hm (h.mem e) }

theorem stored_host {m n n' : Mem} {cs : List (Nat × Core)} {qs : List (Nat × Quad)} {ts : List (Nat × Tenant)}
    (h : Stored κ m n cs qs ts) (hn : memCanon n = true → memCanon n' = true) : Stored κ m n' cs qs ts :=
  { h with host := fun e => hn (h.host e) }

theorem formed_mapCores {f : Nat × Core → Core} (h : s.formed κ) (hf : ∀ c, c.2.formed κ → (f c).formed κ) :
    ({ s with cores := s.cores.map (fun c => (c.1, f c)) } : State).formed κ :=
  ⟨{ h.stored with cores := List.forall_mem_map.mpr fun c hc => hf c (h.stored.cores c hc) }⟩

theorem formed_mapQuads {f : Nat × Quad → Quad} (h : s.formed κ) (hf : ∀ q, q.2.formed κ → (f q).formed κ) :
    ({ s with quads := s.quads.map (fun q => (q.1, f q)) } : State).formed κ :=
  ⟨{ h.stored with quads := List.forall_mem_map.mpr fun q hq => hf q (h.stored.quads q hq) }⟩

theorem formed_mapTenants {f : Nat × Tenant → Tenant} (h : s.formed κ) (hf : ∀ t, t.2.formed κ → (f t).formed κ) :
    ({ s with tenants := s.tenants.map (fun t => (t.1, f t)) } : State).formed κ :=
  ⟨{ h.stored with tenants := List.forall_mem_map.mpr fun t ht => hf t (h.stored.tenants t ht) }⟩

theorem core_formed {c : Nat} (h : s.formed κ) : (s.core c).formed κ :=
  assocGet_of_forall h.stored.cores (fun _ => ⟨rfl, rfl⟩) c

theorem quad_formed {q : Nat} (h : s.formed κ) : (s.quad q).formed κ :=
  assocGet_of_forall h.stored.quads (fun _ hy => absurd hy List.not_mem_nil) q

theorem tenant_formed {i : Nat} (h : s.formed κ) : (s.tenantOf i).formed κ :=
  assocGet_of_forall h.stored.tenants (fun _ hq => absurd hq List.not_mem_nil) i

theorem formed_setGang {g : Nat} {x : Gang} (h : s.formed κ) : (s.setGang g x).formed κ := formed_same h rfl
theorem formed_setTeam {t : Nat} {x : Team} (h : s.formed κ) : (s.setTeam t x).formed κ := formed_same h rfl
theorem formed_setLaunch {l : Nat} {x : Launch} (h : s.formed κ) : (s.setLaunch l x).formed κ := formed_same h rfl
theorem formed_setLease {l : Nat} {x : Lease} (h : s.formed κ) : (s.setLease l x).formed κ := formed_same h rfl

theorem formed_accesses {xs : List (Nat × Access)} (h : s.formed κ) : ({ s with accesses := xs } : State).formed κ :=
  ⟨h.stored⟩

theorem formed_setCore {c : Nat} {x : Core} (h : s.formed κ) (hx : x.formed κ) : (s.setCore c x).formed κ :=
  ⟨{ h.stored with cores := forall_assocSet h.stored.cores c hx }⟩

theorem formed_setQuad {q : Nat} {x : Quad} (h : s.formed κ) (hx : x.formed κ) : (s.setQuad q x).formed κ :=
  ⟨{ h.stored with quads := forall_assocSet h.stored.quads q hx }⟩

theorem formed_setTenant {i : Nat} {x : Tenant} (h : s.formed κ) (hx : x.formed κ) : (s.setTenant i x).formed κ :=
  ⟨{ h.stored with tenants := forall_assocSet h.stored.tenants i hx }⟩

theorem formed_onGang {g : Nat} {f : Gang → Gang} (h : s.formed κ) : (s.onGang g f).formed κ := by
  unfold State.onGang
  split
  · exact h
  · exact formed_setGang h

theorem formed_onTeam {t : Nat} {f : Team → Team} (h : s.formed κ) : (s.onTeam t f).formed κ := by
  unfold State.onTeam
  split
  · exact h
  · exact formed_setTeam h

theorem formed_onCore {c : Nat} {f : Core → Core} (h : s.formed κ) (hf : ∀ x : Core, x.formed κ → (f x).formed κ) :
    (s.onCore c f).formed κ :=
  formed_setCore h (hf _ (core_formed h))

theorem formed_onQuad {q : Nat} {f : Quad → Quad} (h : s.formed κ) (hf : ∀ x : Quad, x.formed κ → (f x).formed κ) :
    (s.onQuad q f).formed κ :=
  formed_setQuad h (hf _ (quad_formed h))

theorem formed_onPart {i : Nat} {f : Tenant → Tenant} (h : s.formed κ) (hf : ∀ x : Tenant, x.formed κ → (f x).formed κ) :
    (s.onPart i f).formed κ :=
  formed_setTenant h (hf _ (tenant_formed h))

theorem formed_onTenant {i : Nat} {f : Tenant → Tenant} (h : s.formed κ) (hf : ∀ x : Tenant, x.formed κ → (f x).formed κ) :
    (s.onTenant i f).formed κ := by
  unfold State.onTenant
  split
  · exact h
  · rename_i x hx
    exact formed_setTenant h (hf _ (h.stored.tenants _ (mem_of_assocGet? hx)))

/-- What keeps the form at each element keeps it along a list. -/
theorem formed_foldl {α : Type} {f : State → α → State} {xs : List α}
    (hf : ∀ (t : State) (x : α), t.formed κ → (f t x).formed κ) (h : s.formed κ) : (xs.foldl f s).formed κ :=
  List.foldlRecOn xs f h fun t ht x _ => hf t x ht

/-- The same for a state that something is carried along with. -/
theorem formed_foldl_fst {α β : Type} {f : State × β → α → State × β} {r : State × β} {xs : List α}
    (hf : ∀ (r : State × β) (x : α), r.1.formed κ → (f r x).1.formed κ) (h : r.1.formed κ) : (xs.foldl f r).1.formed κ :=
  List.foldlRecOn xs f h fun r hr x _ => hf r x hr

theorem formed_ite {p : Prop} [Decidable p] {t u : State} (ht : t.formed κ) (hu : u.formed κ) :
    (if p then t else u).formed κ := by
  split
  · exact ht
  · exact hu

theorem formed_getD {o : Option State} (h : s.formed κ) (ho : ∀ t, o = some t → t.formed κ) : (o.getD s).formed κ := by
  cases o with
  | none => exact h
  | some t => exact ho t rfl

/-- The effect of a word for the acting cohort. -/
theorem formed_act {f : Acting → State} (h : s.formed κ) (hf : ∀ x, (f x).formed κ) : (s.act f).formed κ := by
  unfold State.act
  split
  · exact h
  · exact hf _

end Sys2Proof.Machine
end

section
/-! The form of storage: the operations of Machine/Ops.lean. -/
namespace Sys2Proof.Machine

variable {κ : Storage} {s : State}

theorem formed_tally {part i n : Nat} (h : s.formed κ) : (s.tally part i n).formed κ := by
  grind [State.tally, formed_onTenant, Tenant.formed]

theorem formed_keepLine {line : Nat} (h : s.formed κ) : (s.keepLine line).formed κ := by
  grind [State.keepLine, formed_iff, State.formed.stored]

theorem formed_hwPut {a : Nat} {bs : List Byte} (h : s.formed κ) : (s.hwPut a bs).formed κ := by
  have kept := formed_keepLine (line := lineOf a) h
  unfold State.hwPut
  dsimp only
  split
  · exact formed_setCore kept (core_formed kept)
  · split <;> exact ⟨stored_mem kept.stored (memCanon_memWrite · a bs)⟩

theorem formed_issue (h : s.formed κ) : (s.issue).formed κ := by
  grind [State.issue, formed_tally, formed_onGang]

theorem formed_onCohort {f : Cohort → Cohort} (h : s.formed κ) : (s.onCohort f).formed κ := by
  grind [State.onCohort, formed_onGang]

theorem formed_endCohort (h : s.formed κ) : (s.endCohort).formed κ := by
  grind [State.endCohort, formed_onGang]

theorem formed_leave {m : Mask} (h : s.formed κ) : (s.leave m).formed κ := by
  grind [State.leave, formed_onGang]

theorem formed_setPcs {m : Mask} {pc : Nat → Pc} {rep : Nat} (h : s.formed κ) : (s.setPcs m pc rep).formed κ := by
  grind [State.setPcs, formed_onGang]

theorem formed_park {m : Mask} {k : WaitKind} {next : Pc} {sw : Bool} (h : s.formed κ) :
    (s.park m k next sw).formed κ := by
  grind [State.park, formed_onGang, formed_iff, State.formed.stored]

theorem formed_wake {gid : Nat} {m : Mask} (h : s.formed κ) : (s.wake gid m).formed κ := by
  grind [State.wake, formed_setGang, formed_iff, State.formed.stored]

theorem formed_unpark {gid w : Nat} {go : Bool} (h : s.formed κ) : (s.unpark gid w go).formed κ := by
  grind [State.unpark, formed_wake, formed_setGang]

theorem formed_parkAt {a : Acting} {m : Mask} {k : WaitKind} (h : s.formed κ) : (s.parkAt a m k).formed κ := by
  grind [State.parkAt, formed_leave, formed_setPcs, formed_onGang, formed_iff, State.formed.stored]

theorem formed_transfer {c : Cohort} {ts : List (Nat × Pc)} (h : s.formed κ) : (s.transfer c ts).formed κ := by
  grind [State.transfer, formed_leave, formed_setPcs, formed_park, formed_foldl]

theorem formed_goOn {c : Cohort} {m : Mask} (h : s.formed κ) : (s.goOn c m).formed κ := by
  grind [State.goOn, formed_leave, formed_setPcs, formed_park]

theorem formed_finishWord {a : Acting} (h : s.formed κ) : (s.finishWord a).formed κ := by
  grind [State.finishWord, formed_setPcs, formed_endCohort, formed_park, formed_onCohort]

theorem formed_finish (h : s.formed κ) : (s.finish).formed κ := by
  grind [State.finish, formed_setPcs, formed_finishWord, formed_act, formed_onCohort]

theorem formed_releaseLanes {gid : Nat} {m : Mask} (h : s.formed κ) : (s.releaseLanes gid m).2.formed κ := by
  grind [State.releaseLanes, formed_setGang, formed_foldl]

theorem formed_acquireLanes {gid : Nat} {m : Mask} {c : Clock} (h : s.formed κ) : (s.acquireLanes gid m c).formed κ := by
  grind [State.acquireLanes, formed_onGang]

theorem formed_fireMonitorsIf {line : Nat} {p : Nat → Bool} (h : s.formed κ) : (s.fireMonitorsIf line p).formed κ := by
  grind [State.fireMonitorsIf, formed_onGang, formed_foldl]

theorem formed_fireMonitors {line : Nat} (h : s.formed κ) : (s.fireMonitors line).formed κ := by
  grind [State.fireMonitors, formed_fireMonitorsIf]

theorem formed_firePinned {line team : Nat} (h : s.formed κ) : (s.firePinned line team).formed κ := by
  grind [State.firePinned, formed_fireMonitorsIf]

theorem formed_lapseMonitors {p : MonReg → Bool} (h : s.formed κ) : (s.lapseMonitors p).formed κ := by
  grind [State.lapseMonitors, formed_onGang, formed_iff, State.formed.stored, formed_foldl]

theorem formed_trimMarks {place n : Nat} (h : s.formed κ) : (s.trimMarks place n).formed κ := by
  induction n generalizing s with
  | zero => exact h
  | succ n ih =>
    have unmarked : ∀ ms, ({ s with marks := ms } : State).formed κ := fun _ => formed_same h rfl
    unfold State.trimMarks
    dsimp only
    split
    · exact h
    · split
      · exact unmarked _
      · split
        · exact unmarked _
        · exact ih (formed_tally (formed_onPart (unmarked _) fun _ hx => hx))

theorem formed_moveMarks {line : Nat} {p : Nat → Bool} {place : Nat} (h : s.formed κ) :
    (s.moveMarks line p place).formed κ := by
  grind [State.moveMarks, formed_trimMarks, formed_iff, State.formed.stored]

theorem formed_soil {line home : Nat} {fixed : Bool} (h : s.formed κ) : (s.soil line home fixed).formed κ := by
  grind [State.soil, formed_iff, State.formed.stored]

theorem formed_publishPin {core line : Nat} {p : Pin} {pub : List Sync} (h : s.formed κ) :
    (s.publishPin core line p pub).formed κ := by
  refine formed_fireMonitors (formed_moveMarks (formed_soil (formed_onCore ⟨?_⟩ fun _ hx => hx)))
  exact stored_mem h.stored (memCanon_memWrite · _ _)

theorem formed_publishPins {team : Nat} {pub : List Sync} (h : s.formed κ) : (s.publishPins team pub).formed κ := by
  grind [State.publishPins, formed_publishPin, formed_foldl]

theorem formed_releasePins {team core scope : Nat} {vc : Clock} (h : s.formed κ) :
    (s.releasePins team core scope vc).formed κ := by
  grind [State.releasePins, formed_publishPins]

theorem formed_setFb {r : FbRef} {f : FaultBuffer} (h : s.formed κ) : (s.setFb r f).formed κ := by
  unfold State.setFb
  split
  · exact formed_onTenant h fun _ hx => hx
  · split
    · exact formed_setLease h
    · exact h
  · exact formed_same h rfl

theorem formed_postWords {r : FbRef} {ws : List Nat} (h : s.formed κ) : (s.postWords r ws).formed κ := by
  have written : ∀ a bs, ({ s with host := memWrite s.host a bs } : State).formed κ :=
    fun a bs => ⟨stored_host h.stored (memCanon_memWrite · a bs)⟩
  unfold State.postWords
  split
  dsimp only
  split
  · split
    · exact formed_same (formed_setFb h) rfl
    · exact formed_setFb h
  · split
    · exact formed_same (formed_setFb (written ..)) rfl
    · exact formed_setFb (written ..)

theorem formed_postHeld {r : FbRef} {n : Nat} (h : s.formed κ) : (s.postHeld r n).formed κ := by
  induction n generalizing s with
  | zero => exact h
  | succ n ih => grind [State.postHeld, formed_setFb, formed_postWords]

theorem formed_post {r : FbRef} {e : Entry} (h : s.formed κ) : (s.post r e).formed κ := by
  grind [State.post, formed_postWords]

theorem formed_postRequest {r : FbRef} {e : Entry} {k : ReqKind} (h : s.formed κ) : (s.postRequest r e k).2.formed κ := by
  grind [State.postRequest, formed_post, formed_setFb]

theorem formed_stopTeam {t : Nat} (h : s.formed κ) : (s.stopTeam t).formed κ := by
  have stopped : ∀ (f : Gang → Gang) (gs : List Nat), (gs.foldl (fun s g => s.onGang g f) (s.publishPins t [])).formed
    κ :=
    fun _ _ => formed_foldl (fun _ _ => formed_onGang) (formed_publishPins h)
  have dropped : ∀ {u : State} gs, u.formed κ → ({ u with
      cores := u.cores.map (fun c => (c.1, { c.2 with sfq := c.2.sfq.filter (fun r => !isIn gs r.gang) }))
      tenants := u.tenants.map (fun x => (x.1, x.2.dropSavedRecords gs)) } : State).formed κ := fun gs hu =>
    formed_mapTenants (formed_mapCores hu (by exact fun _ hc => hc)) (f := fun x => x.2.dropSavedRecords gs)
      fun _ hx => List.forall_mem_map.mpr hx
  unfold State.stopTeam
  split
  · exact h
  · dsimp only
    split
    · exact formed_onTeam (formed_same (dropped _ (stopped _ _)) rfl)
    · exact formed_setLaunch (formed_onTeam (formed_same (dropped _ (stopped _ _)) rfl))

theorem formed_haltEntry {lease : Nat} {tenant : Option Nat} {lvl code core : Nat} (h : s.formed κ) :
    (s.haltEntry lease tenant lvl code core).formed κ := by
  unfold State.haltEntry
  grind [formed_post, formed_onTenant, Tenant.formed]

theorem formed_hwHalt {t code : Nat} (h : s.formed κ) : (s.hwHalt t code).formed κ := by
  grind [State.hwHalt, formed_haltEntry, formed_stopTeam]

theorem formed_enterFrame {gid : Nat} {m : Mask} {pc : Pc} {rep tword : Nat} {sfr : Bool} {i : TrapInfo} (h : s.formed
    κ) : (s.enterFrame gid m pc rep tword sfr i).formed κ := by
  grind [State.enterFrame, formed_hwHalt, formed_onGang, formed_iff, State.formed.stored]

theorem formed_trapLanes {gid : Nat} {m : Mask} {pc : Pc} {rep tword : Nat} {i : TrapInfo} (h : s.formed κ) :
    (s.trapLanes gid m pc rep tword i).formed κ := by
  unfold State.trapLanes
  split <;> grind [formed_enterFrame, formed_postRequest, formed_onGang, formed_iff, State.formed.stored]

theorem formed_trap {m : Mask} {i : TrapInfo} (h : s.formed κ) : (s.trap m i).formed κ := by
  grind [State.trap, formed_trapLanes, formed_leave, formed_act]

theorem formed_trapEach {ts : List (Nat × TrapInfo)} (h : s.formed κ) : (s.trapEach ts).formed κ := by
  grind [State.trapEach, formed_trap, formed_foldl]

theorem formed_trapWord {cause : Nat} (h : s.formed κ) : (s.trapWord cause).formed κ := by
  grind [State.trapWord, formed_act, formed_trap]

theorem formed_rehold {core old new : Nat} (h : s.formed κ) : (s.rehold core old new).formed κ := by
  grind [State.rehold, formed_onCore, Core.formed]

theorem formed_deliver {gid : Nat} {m : Mask} {strong : Bool} {pc : Pc} {rep tword : Nat} (h : s.formed κ) :
    (s.deliver gid m strong pc rep tword).formed κ := by
  grind [State.deliver, formed_enterFrame, formed_onCore, Core.formed]

theorem formed_beginWord (h : s.formed κ) : (s.beginWord).formed κ := by
  grind [State.beginWord, formed_onCohort]

theorem formed_afterAll {pending : Acting → Bool} {k : State → State} (h : s.formed κ)
    (hk : ∀ t, t.formed κ → (k t).formed κ) : (s.afterAll pending k).formed κ := by
  refine formed_act h fun x => ?_
  grind [formed_deliver, formed_leave]

theorem formed_atRelease {scope : Nat} {k : State → State} (h : s.formed κ) (hk : ∀ t, t.formed κ → (k t).formed κ) :
    (s.atRelease scope k).formed κ :=
  formed_afterAll h hk

theorem formed_takeDue (h : s.formed κ) : (s.takeDue).formed κ := by
  grind [State.takeDue, formed_act, formed_trap, formed_onGang, formed_foldl]

theorem formed_pendLane {gid l : Nat} {long : Bool} {ws : List (Nat × Word)} (h : s.formed κ) :
    (s.pendLane gid l long ws).formed κ := by
  grind [State.pendLane, formed_onGang, formed_iff, State.formed.stored]

theorem formed_laneWord {long : Bool} {f : Acting → Nat → LaneOut} (h : s.formed κ) : (s.laneWord long f).formed κ := by
  unfold State.laneWord
  grind [formed_issue, formed_trapEach, formed_finish, formed_pendLane, formed_act, formed_trap, formed_foldl]

theorem formed_laneValue {long : Bool} {d : Nat} {f : Acting → Nat → Word} (h : s.formed κ) :
    (s.laneValue long d f).formed κ := by
  grind [State.laneValue, formed_laneWord]

end Sys2Proof.Machine
end

section
/-! The form of storage: the operations of Machine/Flags.lean. -/
namespace Sys2Proof.Machine

variable {κ : Storage} {s : State}

theorem formed_fpWord {long : Bool} {d : Fin 128} {f : Acting → Nat → Nat → Word × FpFlags} (h : s.formed κ) :
    (s.fpWord long d f).formed κ := by
  grind [State.fpWord, formed_laneWord]

end Sys2Proof.Machine
end

section
/-! The form of storage: the operations of Machine/Integer.lean. -/
namespace Sys2Proof.Machine

variable {κ : Storage} {s : State}

theorem formed_f3 {long : Bool} {d a b : Fin 128} {f : Word → Word → Word → Word} (h : s.formed κ) :
    (s.f3 long d a b f).formed κ := by
  grind [State.f3, formed_laneValue]

theorem formed_f2 {long : Bool} {d a : Fin 128} {f : Word → Word → Word} (h : s.formed κ) :
    (s.f2 long d a f).formed κ := by
  grind [State.f2, formed_laneValue]

theorem formed_pairWord {d : Fin 128} {f : Acting → Nat → Nat} (h : s.formed κ) : (s.pairWord d f).formed κ := by
  grind [State.pairWord, formed_laneWord]

end Sys2Proof.Machine
end

section
/-! The form of storage: the operations of Machine/FloatWords.lean. -/
namespace Sys2Proof.Machine

variable {κ : Storage} {s : State}

theorem formed_fp3 {long : Bool} {d a b : Fin 128} {f : RMode → Bool → Nat → Nat → Nat → Nat × FpFlags} (h : s.formed κ) :
    (s.fp3 long d a b f).formed κ := by
  grind [State.fp3, formed_fpWord]

theorem formed_fp1 {long : Bool} {d a : Fin 128} {f : RMode → Bool → Nat → Nat → Nat × FpFlags} (h : s.formed κ) :
    (s.fp1 long d a f).formed κ := by
  grind [State.fp1, formed_fpWord]

theorem formed_transWord {fn : Nat} {d a : Fin 128} (h : s.formed κ) : (s.transWord fn d a).formed κ := by
  grind [State.transWord, formed_fpWord]

theorem formed_packedWord {d a b : Fin 128} {f : RMode → Nat → Nat → Nat → Nat × FpFlags} (h : s.formed κ) :
    (s.packedWord d a b f).formed κ := by
  grind [State.packedWord, formed_fp3]

theorem formed_packWord {f : Fmt} {d a : Fin 128} {j : Nat} (h : s.formed κ) : (s.packWord f d a j).formed κ := by
  grind [State.packWord, formed_fpWord, formed_act, formed_onGang]

theorem formed_unpackWord {f : Fmt} {d a : Fin 128} {j : Nat} (h : s.formed κ) : (s.unpackWord f d a j).formed κ := by
  grind [State.unpackWord, formed_fpWord]

end Sys2Proof.Machine
end

section
/-! The form of storage: the operations of Machine/Collective.lean. -/
namespace Sys2Proof.Machine

variable {κ : Storage} {s : State}

theorem formed_collective {long : Bool} {d a : Fin 128} {f : List Word → Word} (h : s.formed κ) :
    (s.collective long d a f).formed κ := by
  grind [State.collective, formed_laneValue]

theorem formed_shuffleWord {d a : Fin 128} {src : Acting → Nat → Int} (h : s.formed κ) :
    (s.shuffleWord d a src).formed κ := by
  grind [State.shuffleWord, formed_laneValue]

theorem formed_fpCollective {d a : Fin 128} {f : RMode → Bool → List Nat → Nat × FpFlags} (h : s.formed κ) :
    (s.fpCollective d a f).formed κ := by
  grind [State.fpCollective, formed_laneWord]

theorem formed_maskWord {d : Fin 128} {f : Acting → Nat → Mask} (h : s.formed κ) : (s.maskWord d f).formed κ := by
  grind [State.maskWord, formed_laneWord]

end Sys2Proof.Machine
end

section
/-! The form of storage: the operations of Machine/Lines.lean. -/
namespace Sys2Proof.Machine

variable {κ : Storage} {s : State}

theorem formed_fillsPass {p : Access → Bool} (h : s.formed κ) : (s.fillsPass p).formed κ := by
  grind [State.fillsPass, formed_iff, State.formed.stored]

theorem formed_dropCopies {line : Nat} (h : s.formed κ) : (s.dropCopies line).formed κ :=
  formed_same (formed_mapCores (formed_fillsPass h) (by exact fun _ hc => hc)) rfl

theorem formed_spliceOut {core line : Nat} (h : s.formed κ) : (s.spliceOut core line).formed κ := by
  grind [State.spliceOut, formed_fillsPass, formed_onCore, formed_iff, State.formed.stored, Core.formed]

theorem formed_setBucket {key : Nat} {b : Bucket} (h : s.formed κ) : (s.setBucket key b).formed κ := formed_same h rfl

theorem formed_spend {a n : Nat} {t : State} (h : s.formed κ) (e : s.spend a n = some t) : t.formed κ := by
  grind [State.spend, formed_setBucket]

theorem formed_owe {a n : Nat} (h : s.formed κ) : (s.owe a n).formed κ := by
  grind [State.owe, formed_setBucket]

theorem formed_leaveL2 {line : Nat} (h : s.formed κ) : (s.leaveL2 line).formed κ := by
  grind [State.leaveL2, formed_dropCopies, formed_iff, State.formed.stored]

theorem formed_evictL2 {line : Nat} {t : State} (h : s.formed κ) (e : s.evictL2 line = some t) : t.formed κ := by
  unfold State.evictL2 at e
  split at e
  · grind
  · obtain ⟨u, spent, rfl⟩ := Option.map_eq_some_iff.mp e
    grind [formed_leaveL2, formed_spend]

theorem formed_touchL2 {home line : Nat} {fixed write : Bool} {t : State} (h : s.formed κ)
    (e : s.touchL2 home line fixed write = some t) : t.formed κ := by
  unfold State.touchL2 at e
  split at e
  · cases e
    split
    · exact formed_same h rfl
    · exact h
  · split at e
    · grind
    · obtain ⟨u, spent, rfl⟩ := Option.map_eq_some_iff.mp e
      refine formed_same (formed_spend ?_ spent) rfl
      grind [formed_evictL2]

theorem formed_touchNow {home line : Nat} {fixed write : Bool} (h : s.formed κ) :
    (s.touchNow home line fixed write).formed κ := by
  grind [State.touchNow, formed_leaveL2, formed_owe, formed_iff, State.formed.stored]

end Sys2Proof.Machine
end

section
/-! The form of storage: the operations of Machine/Translate.lean. -/
namespace Sys2Proof.Machine

variable {κ : Storage} {s : State}

theorem formed_orEntry {a e b : Nat} (h : s.formed κ) : (s.orEntry a e b).formed κ := by
  grind [State.orEntry, formed_hwPut]

theorem formed_markLeaves {x : Leaves} {write : Bool} (h : s.formed κ) : (s.markLeaves x write).formed κ := by
  grind [State.markLeaves, formed_orEntry]

theorem formed_walked {c : Ctx} {n : Nat} {rs : List WalkRead} (h : s.formed κ) : (s.walked c n rs).formed κ := by
  grind [State.walked, formed_onQuad, formed_touchNow, formed_foldl, Quad.formed]

theorem formed_walkNow {c : Ctx} {va acc : Nat} {peerOk : Bool} (h : s.formed κ) :
    (s.walkNow c va acc peerOk).1.formed κ := by
  grind [State.walkNow, formed_walked, formed_tally]

theorem formed_xlateWalk {c : Ctx} {n va acc : Nat} {peerOk : Bool} (h : s.formed κ) :
    (s.xlateWalk c n va acc peerOk).1.formed κ := by
  grind [State.xlateWalk, formed_markLeaves, formed_walkNow, formed_onCore, Core.formed]

theorem formed_xlate {tag : Nat} {c : Ctx} {va acc : Nat} {peerOk : Bool} (h : s.formed κ) :
    (s.xlate tag c va acc peerOk).1.formed κ := by
  grind [State.xlate, formed_xlateWalk]

theorem formed_dropWalks {ten : Nat} (h : s.formed κ) : (s.dropWalks ten).formed κ :=
  formed_mapQuads h (by exact fun _ hq => hq)

theorem formed_dropTlb {p : TlbEntry → Bool} (h : s.formed κ) : (s.dropTlb p).formed κ :=
  formed_mapQuads (formed_mapCores h (by exact fun _ hc => hc)) (by exact fun _ hq => hq)

theorem formed_sendPacket {id : Nat} (h : s.formed κ) : (s.sendPacket id).formed κ := by
  grind [State.sendPacket, formed_iff, State.formed.stored]

end Sys2Proof.Machine
end

section
/-! The form of storage: the operations of Machine/Memory.lean. -/
namespace Sys2Proof.Machine

variable {κ : Storage} {s : State}

theorem formed_setAccess {id : Nat} {x : Access} (h : s.formed κ) : (s.setAccess id x).formed κ := formed_same h rfl

theorem formed_dropAccess {id : Nat} (h : s.formed κ) : (s.dropAccess id).formed κ := formed_same h rfl

theorem formed_putMark {place w lease : Nat} {r : Racer} (h : s.formed κ) : (s.putMark place w lease r).formed κ := by
  grind [State.putMark, formed_trimMarks, formed_iff, State.formed.stored]

theorem formed_raceCheck {place a size lease : Nat} {r : Racer} (h : s.formed κ) :
    (s.raceCheck place a size lease r).2.formed κ := by
  grind [State.raceCheck, formed_onPart, formed_putMark, formed_foldl, Tenant.formed]

theorem memCanon_combine {m : Mem} (sums : List (Nat × Int)) (h : memCanon m = true) :
    memCanon (sums.foldl combineOne m) = true := by
  refine List.foldlRecOn (motive := fun m => memCanon m = true) sums combineOne h fun m hm p _ => ?_
  unfold combineOne
  dsimp only
  split <;> exact memCanon_memPut hm ..

theorem formed_combineCores {line : Nat} {cores : List Nat} (h : s.formed κ) : (s.combineCores line cores).formed κ := by
  have dropped : ∀ hs : List (Nat × List Nat), ({ s with
      cores := s.cores.map (fun c => (c.1, if isIn cores c.1 then
        { c.2 with partials := c.2.partials.filter (fun p => p.1 / 128 != line) } else c.2))
      holders := hs } : State).formed κ := fun hs =>
    formed_same (formed_mapCores h (f := fun c => if isIn cores c.1 then
      { c.2 with partials := c.2.partials.filter (fun p => p.1 / 128 != line) } else c.2)
        fun c hc => by split <;> exact hc) rfl
  unfold State.combineCores
  dsimp only
  split
  · exact dropped _
  · exact formed_fireMonitors ⟨stored_mem (formed_keepLine (line := line) (dropped [])).stored (memCanon_combine _)⟩

theorem formed_combine {line : Nat} (h : s.formed κ) : (s.combine line).formed κ := by
  grind [State.combine, formed_combineCores]

theorem formed_makeRoom {core : Nat} (h : s.formed κ) : (s.makeRoom core).formed κ := by
  grind [State.makeRoom, formed_combineCores, formed_onCore, Core.formed]

theorem formed_roomNow {core line : Nat} (h : s.formed κ) : (s.roomNow core line).formed κ := by
  grind [State.roomNow, formed_spliceOut, formed_makeRoom]

theorem formed_addPartial {core pa size ten aidx : Nat} {v : Int} (h : s.formed κ) :
    (s.addPartial core pa size ten aidx v).formed κ := by
  grind [State.addPartial, formed_roomNow, formed_onCore, formed_iff, State.formed.stored, Core.formed]

theorem formed_pinLine {core : Nat} {x : Access} (h : s.formed κ) : (s.pinLine core x).formed κ := by
  grind [State.pinLine, formed_dropCopies, formed_moveMarks, formed_onCore, Core.formed]

theorem formed_asCohort {gid cid : Nat} {f : State → State} (h : s.formed κ) (hf : ∀ t, t.formed κ → (f t).formed κ) :
    (s.asCohort gid cid f).formed κ :=
  formed_same (hf { s with cur := (gid, cid) } (formed_same h rfl)) rfl

theorem formed_settleHold {gid cid : Nat} (h : s.formed κ) : (s.settleHold gid cid).formed κ := by
  grind [State.settleHold, formed_finish, formed_asCohort]

theorem formed_decided {id : Nat} {x : Access} (h : s.formed κ) : (s.decided id x).formed κ := by
  grind [State.decided, formed_setAccess, formed_settleHold]

theorem formed_supply {gid : Nat} {ids : List Nat} {vs : List Word} (h : s.formed κ) :
    (s.supply gid ids vs).formed κ := by
  grind [State.supply, formed_onGang]

theorem formed_cancelResults {gid : Nat} {ids : List Nat} (h : s.formed κ) : (s.cancelResults gid ids).formed κ := by
  grind [State.cancelResults, formed_onGang]

theorem formed_failAccess {id : Nat} {x : Access} {i : TrapInfo} {synd : Nat} (h : s.formed κ) :
    (s.failAccess id x i synd).formed κ := by
  grind [State.failAccess, formed_setAccess, formed_dropAccess, formed_settleHold, formed_asCohort,
    formed_cancelResults, formed_trap]

theorem formed_refuse {id : Nat} {x : Access} (h : s.formed κ) : (s.refuse id x).formed κ := by
  grind [State.refuse, formed_setAccess, formed_failAccess]

theorem formed_takeSyncs {x : Access} {ss : List Sync} (h : s.formed κ) : (s.takeSyncs x ss).formed κ := by
  grind [State.takeSyncs, formed_onGang]

theorem formed_writeSync {x : Access} (h : s.formed κ) : (s.writeSync x).formed κ := by
  grind [State.writeSync, formed_iff, State.formed.stored, formed_foldl]

theorem formed_afterRelease {x : Access} (h : s.formed κ) : (s.afterRelease x).formed κ := by
  grind [State.afterRelease, formed_releasePins]

theorem formed_hideBelow {x : Access} (h : s.formed κ) : (s.hideBelow x).formed κ := by
  grind [State.hideBelow, formed_iff, State.formed.stored]

theorem formed_executed {id : Nat} {x : Access} {found : List Byte} (h : s.formed κ) :
    (s.executed id x found).formed κ := by
  grind [State.executed, formed_setAccess, formed_dropAccess, formed_decided]

theorem formed_serveAtPin {id core : Nat} {p : Pin} {x : Access} (h : s.formed κ) :
    (s.serveAtPin id core p x).formed κ := by
  have kept : (if x.op.late then s else s.takeSyncs x (s.syncsAt x)).formed κ := by grind [formed_takeSyncs]
  unfold State.serveAtPin
  dsimp only
  refine formed_afterRelease (formed_executed (formed_supply ?_))
  split
  · exact kept
  · exact formed_hideBelow (formed_firePinned (formed_writeSync (formed_onCore (formed_keepLine kept) (by exact fun _
    hc => hc))))

theorem formed_stamped (h : s.formed κ) : (s.stamped).formed κ := by
  grind [State.stamped, formed_iff, State.formed.stored]

theorem formed_serveZero {id : Nat} {x : Access} (h : s.formed κ) : (s.serveZero id x).formed κ := by
  grind [State.serveZero, formed_stamped, formed_decided]

theorem formed_serveFill {id : Nat} {x : Access} (h : s.formed κ) : (s.serveFill id x).formed κ := by
  grind [State.serveFill, formed_stamped, formed_takeSyncs, formed_decided, formed_iff, State.formed.stored]

theorem formed_serveAtHome {id : Nat} {x : Access} (h : s.formed κ) : (s.serveAtHome id x).formed κ := by
  unfold State.serveAtHome
  dsimp only
  generalize hu : (if x.mode = 2 ∨ x.mode = 3 then s.combine (lineOf x.pa) else s) = u
  have hu : u.formed κ := by grind [formed_combine]
  split
  · exact formed_serveFill hu
  · generalize hv : (if x.op.late then u else u.takeSyncs x (u.syncsAt x)) = v
    have hv : v.formed κ := by grind [formed_takeSyncs]
    split
    · refine formed_afterRelease (formed_decided (formed_stamped (formed_fireMonitors (formed_hideBelow (formed_writeSync
        (formed_touchNow ⟨?_⟩))))))
      exact stored_mem (formed_keepLine (line := lineOf x.pa) (formed_supply hv)).stored (memCanon_memWrite · _ _)
    · exact formed_afterRelease (formed_decided (formed_stamped (formed_supply hv)))

theorem formed_clearDisc {x : Leaves} {t : State} (h : s.formed κ) (e : s.clearDisc x = some t) : t.formed κ := by
  grind [State.clearDisc, formed_hwPut]

theorem formed_clearDisc_getD {x : Leaves} (h : s.formed κ) : ((s.clearDisc x).getD s).formed κ := by
  cases e : s.clearDisc x with
  | none => exact h
  | some t => exact formed_clearDisc h e

theorem formed_reviveAt {pa : Nat} {writes disc : Bool} {x : Leaves} (h : s.formed κ) :
    (s.reviveAt pa writes disc x).2.formed κ := by
  grind [State.reviveAt, formed_clearDisc, formed_iff, State.formed.stored]

theorem formed_revive {x : Access} (h : s.formed κ) : (s.revive x).2.formed κ := by
  grind [State.revive, formed_reviveAt, formed_foldl]

theorem formed_firePage {page : Nat} (h : s.formed κ) : (s.firePage page).formed κ := by
  grind [State.firePage, formed_fireMonitors, formed_foldl]

theorem formed_endFill {page : Nat} (h : s.formed κ) : (s.endFill page).formed κ :=
  formed_firePage ⟨stored_mem h.stored (memCanon_filter · _)⟩

theorem formed_execute {id : Nat} {x : Access} (h : s.formed κ) : (s.execute id x).formed κ := by
  grind [State.execute, formed_setAccess, formed_serveAtPin, formed_serveAtHome]

theorem formed_checkThen {id : Nat} {x : Access} {place : Nat} {k : State → State} (h : s.formed κ)
    (hk : ∀ t, t.formed κ → (k t).formed κ) : (s.checkThen id x place k).formed κ := by
  grind [State.checkThen, formed_raceCheck, formed_failAccess]

theorem formed_holdForToken {id : Nat} {x : Access} (h : s.formed κ) : (s.holdForToken id x).formed κ := by
  grind [State.holdForToken, formed_setAccess, formed_iff, State.formed.stored]

theorem formed_serve {id : Nat} {x : Access} (h : s.formed κ) : (s.serve id x).formed κ := by
  unfold State.serve
  dsimp only
  split
  · split
    · exact formed_checkThen h fun _ => formed_execute
    · exact formed_refuse h
  · split
    · exact formed_checkThen h fun _ => formed_serveZero
    · have revived : (s.revive x).2.formed κ := formed_revive h
      split
      · grind [formed_setAccess]
      · rename_i u hu
        rw [hu] at revived
        split
        · exact formed_addPartial (formed_dropAccess revived)
        · split
          · exact formed_holdForToken revived
          · rename_i v hv
            have touched : v.formed κ := by grind [formed_touchL2]
            split
            · exact formed_dropAccess touched
            · split
              · split
                · exact formed_checkThen touched fun _ ht => formed_execute (formed_pinLine ht)
                · exact formed_makeRoom touched
              · exact formed_checkThen touched fun _ => formed_execute

theorem formed_follow {id : Nat} {x : Access} (h : s.formed κ) : (s.follow id x).formed κ := by
  grind [State.follow, formed_execute]

theorem formed_loadHit {x : Access} {place : Nat} {bs : List Byte} {ss : List Sync} (h : s.formed κ) :
    (s.loadHit x place bs ss).1.formed κ := by
  grind [State.loadHit, formed_raceCheck, formed_takeSyncs]

theorem formed_leaveCore {id : Nat} {x : Access} (h : s.formed κ) : (s.leaveCore id x).formed κ := by
  unfold State.leaveCore
  grind [formed_setAccess, formed_dropAccess, formed_failAccess, formed_decided, formed_sendPacket, formed_supply,
    formed_loadHit]

theorem formed_updateSharer {id : Nat} {x : Access} (h : s.formed κ) : (s.updateSharer id x).formed κ := by
  grind [State.updateSharer, formed_setAccess, formed_onCore, Core.formed]

theorem formed_fillL1 {id : Nat} {x : Access} (h : s.formed κ) : (s.fillL1 id x).formed κ := by
  grind [State.fillL1, formed_dropAccess, formed_makeRoom, formed_supply, formed_onCore, Core.formed]

theorem formed_ackStore {id : Nat} {x : Access} (h : s.formed κ) : (s.ackStore id x).formed κ := by
  unfold State.ackStore
  split
  · exact formed_dropAccess h
  · split
    · split
      · exact formed_dropAccess h
      · exact formed_dropAccess (formed_writeSync (formed_hideBelow ⟨stored_host h.stored (memCanon_memWrite · _ _)⟩))
    · exact h

end Sys2Proof.Machine
end

section
/-! The form of storage: the operations of Machine/Operands.lean. -/
namespace Sys2Proof.Machine

variable {κ : Storage} {s : State}

theorem formed_placeRecord {core : Nat} {r : SfRec} (h : s.formed κ) : (s.placeRecord core r).formed κ := by
  grind [State.placeRecord, formed_onCore, Core.formed]

theorem formed_storeWord {k : State → Acting → List Nat → State} (h : s.formed κ)
    (hk : ∀ t x ls, t.formed κ → (k t x ls).formed κ) : (s.storeWord k).formed κ := by
  refine formed_act h fun x => ?_
  dsimp only
  split
  · have issued := hk _ x (lanesOf (partOf (x.co.mask &&& ~~~x.co.done) (s.sfqEver x))) (formed_onCohort
      (f := fun c => { c with done := c.done ||| partOf (x.co.mask &&& ~~~x.co.done) (s.sfqEver x), num := x.wordSeq })
      (show (if x.co.done = 0 then s.issue else s).formed κ by grind [formed_issue]))
    refine formed_act issued fun y => ?_
    grind [formed_finish]
  · grind [formed_deliver, formed_leave, formed_goOn]

theorem formed_migrateHint {c : Ctx} {slot l va : Nat} {f : TFault} (h : s.formed κ) :
    (s.migrateHint c slot l va f).formed κ := by
  grind [State.migrateHint, formed_postRequest]

theorem formed_checkLane {a : Acting} {g : GWord} {l : Nat} (h : s.formed κ) : (s.checkLane a g l).1.formed κ := by
  grind [State.checkLane, formed_migrateHint, formed_xlate]

theorem formed_nextRegion {a : Acting} {ord l : Nat} (h : s.formed κ) : (s.nextRegion a ord l).formed κ := by
  grind [State.nextRegion, formed_releaseLanes]

theorem formed_beginPrecise {a : Acting} {g : GWord} {l : Nat} {x : Xlat} (h : s.formed κ) :
    (s.beginPrecise a g l x).1.formed κ := by
  unfold State.beginPrecise
  dsimp only
  split
  · split
    · split <;> grind [formed_loadHit, formed_onGang, formed_iff, State.formed.stored]
    · grind [formed_onCohort, formed_nextRegion, formed_sendPacket, formed_setAccess, formed_tally, formed_onGang,
      formed_iff, State.formed.stored]
    · grind [formed_onCohort, formed_nextRegion, formed_sendPacket, formed_setAccess, formed_tally, formed_onGang,
      formed_iff, State.formed.stored]
    · exact h
  · split
    · grind [formed_onCohort, formed_nextRegion, formed_sendPacket, formed_setAccess, formed_tally, formed_onGang,
      formed_iff, State.formed.stored]
    · grind [formed_clearDisc_getD, formed_onCohort, formed_nextRegion, formed_sendPacket, formed_setAccess,
      formed_tally, formed_onGang, formed_iff, State.formed.stored]

theorem formed_failStore {a : Acting} {g : GWord} {l : Nat} {i : TrapInfo} {synd : Nat} (h : s.formed κ) :
    (s.failStore a g l i synd).formed κ := by
  grind [State.failStore, formed_placeRecord, formed_trap]

theorem formed_sendLate {a : Acting} {g : GWord} {l : Nat} {x : Xlat} (h : s.formed κ) :
    (s.sendLate a g l x).formed κ := by
  unfold State.sendLate
  refine formed_nextRegion (formed_sendPacket (formed_setAccess ?_))
  split
  · exact formed_same (formed_clearDisc_getD h) rfl
  · exact formed_same h rfl

end Sys2Proof.Machine
end

section
/-! The form of storage: the operations of Machine/Hardware.lean. -/
namespace Sys2Proof.Machine

variable {κ : Storage} {s : State}

theorem formed_reviveNow {x : Xlat} (h : s.formed κ) : (s.reviveNow x).formed κ := by
  grind [State.reviveNow, formed_owe, formed_endFill, formed_clearDisc]

theorem formed_hostAnswer {c : Ctx} {acc : Nat} (h : s.formed κ) : (s.hostAnswer c acc).1.formed κ := by
  grind [State.hostAnswer, formed_iff, State.formed.stored]

theorem formed_hwXlat {c : Ctx} {va acc : Nat} {op : AccOp} (h : s.formed κ) : (s.hwXlat c va acc op).1.formed κ := by
  grind [State.hwXlat, formed_migrateHint, formed_markLeaves, formed_walkNow]

theorem formed_hwTouch {c : Ctx} {x : Xlat} {n : Nat} {write : Bool} (h : s.formed κ) :
    (s.hwTouch c x n write).formed κ := by
  grind [State.hwTouch, formed_combine, formed_touchNow, formed_foldl]

theorem formed_hwSet {a : Nat} {bs : List Byte} (h : s.formed κ) : (s.hwSet a bs).formed κ := by
  grind [State.hwSet, formed_hwPut, formed_foldl]

theorem formed_hwLoad {c : Ctx} {va n acc : Nat} {op : AccOp} (h : s.formed κ) : (s.hwLoad c va n acc op).1.formed κ := by
  refine formed_foldl_fst (fun r p hr => ?_) h
  grind [formed_hwXlat, formed_hostAnswer, formed_hwTouch]

theorem formed_hwStore {c : Ctx} {va : Nat} {bs : List Byte} {acc : Nat} (h : s.formed κ) :
    (s.hwStore c va bs acc).1.formed κ := by
  unfold State.hwStore
  split
  rename_i u r hr
  have checked : u.formed κ := by
    rw [show u = (u, r).1 from rfl, ← hr]
    refine formed_foldl_fst (fun r p hr => ?_) h
    grind [formed_hwXlat, formed_hostAnswer]
  split
  · exact checked
  · refine formed_foldl (fun t p ht => ?_) checked
    dsimp only
    split
    · exact ⟨stored_host (formed_reviveNow ht).stored (memCanon_memWrite · _ _)⟩
    · exact formed_foldl (fun _ _ => formed_fireMonitors) (formed_same (formed_hwSet (formed_hwTouch (formed_reviveNow
      ht))) rfl)

end Sys2Proof.Machine
end

section
/-! The form of storage: the operations of Machine/Control.lean. -/
namespace Sys2Proof.Machine

variable {κ : Storage} {s : State}

theorem formed_branch {o : Fin 262144} {take : Acting → Nat → Bool} (h : s.formed κ) : (s.branch o take).formed κ := by
  grind [State.branch, formed_issue, formed_finish, formed_transfer, formed_act]

theorem formed_linkNow {gid l d v : Nat} (h : s.formed κ) : (s.linkNow gid l d v).formed κ := by
  grind [State.linkNow, formed_onGang]

theorem formed_jump {link : Option (Fin 128)} {a : Fin 128} (h : s.formed κ) : (s.jump link a).formed κ := by
  grind [State.jump, formed_issue, formed_trapEach, formed_linkNow, formed_transfer, formed_act, formed_foldl]

theorem formed_slotRead {c : Ctx} {g : Gang} {i : Nat} {t : State} {y : Mask × Mask} (h : s.formed κ)
    (e : s.slotRead c g i = .ok (t, y)) : t.formed κ := by
  grind [State.slotRead, formed_hwLoad]

theorem formed_slotWrite {c : Ctx} {g : Gang} {i : Nat} {e : Mask × Mask} {t : State} (h : s.formed κ)
    (e : s.slotWrite c g i e = .ok t) : t.formed κ := by
  grind [State.slotWrite, formed_hwStore]

theorem formed_pushEntry {c : Ctx} {g : Gang} {e : Mask × Mask} {t : State} {y : List (Mask × Mask)} (h : s.formed κ)
    (e : s.pushEntry c g e = .ok (t, y)) : t.formed κ := by
  grind [State.pushEntry, formed_slotWrite]

theorem formed_afterPop {c : Ctx} {g : Gang} {st : List (Mask × Mask)} {t : State} {y : List (Mask × Mask)}
    (h : s.formed κ) (e : s.afterPop c g st = .ok (t, y)) : t.formed κ := by
  unfold State.afterPop at e
  grind [formed_slotRead]

theorem formed_settle {c : Ctx} {g : Gang} {gone : Mask} {n : Nat} {st : List (Mask × Mask)} {rel : Mask} {t : State}
    {y : List (Mask × Mask) × Mask} (h : s.formed κ) (e : s.settle c g gone n st rel = .ok (t, y)) : t.formed κ := by
  induction n generalizing s st rel with
  | zero => grind [State.settle]
  | succ n ih => cases st <;> grind [State.settle, formed_afterPop]

theorem formed_releaseClass {gid : Nat} {m : Mask} (h : s.formed κ) : (s.releaseClass gid m).formed κ := by
  grind [State.releaseClass, formed_wake, formed_onGang]

theorem formed_commitStack {gid : Nat} {st : List (Mask × Mask)} {rel : Mask} (h : s.formed κ) :
    (s.commitStack gid st rel).formed κ := by
  grind [State.commitStack, formed_releaseClass, formed_onGang]

theorem formed_spillTrap {f : SpillFault} (h : s.formed κ) : (s.spillTrap f).formed κ := by
  grind [State.spillTrap, formed_act, formed_trap]

theorem formed_writeThrough {c : Ctx} {g : Gang} {changed : Bool} {st : List (Mask × Mask)} {t : State} (h : s.formed κ)
    (e : s.writeThrough c g changed st = .ok t) : t.formed κ := by
  cases st <;> grind [State.writeThrough, formed_slotWrite]

theorem formed_dropFrom {c : Ctx} {g : Gang} {m : Mask} {k i : Nat} {st : List (Mask × Mask)} {t : State}
    {y : List (Mask × Mask)} (h : s.formed κ) (e : s.dropFrom c g m k i st = .ok (t, y)) : t.formed κ := by
  induction k generalizing s i st t y with
  | zero => grind [State.dropFrom]
  | succ k ih =>
    cases st with
    | nil => grind [State.dropFrom]
    | cons z zs =>
      unfold State.dropFrom at e
      dsimp only at e
      split at e
      · cases e
      · rename_i u z hu
        have read : u.formed κ := by grind [formed_slotRead]
        split at e
        · cases e
        · rename_i v hv
          have wrote : v.formed κ := by grind [formed_slotWrite]
          split at e
          · cases e
          · rename_i hw
            cases e
            exact ih wrote hw

theorem formed_barrier {t : Nat} (h : s.formed κ) : (s.barrier t).formed κ := by
  grind [State.barrier, formed_onTeam, formed_acquireLanes, formed_releaseClass, formed_onGang, formed_foldl]

theorem formed_exitLanes {gid : Nat} {m : Mask} {scope : Nat} (h : s.formed κ) : (s.exitLanes gid m scope).formed κ := by
  unfold State.exitLanes
  split
  · exact h
  · split
    · exact h
    · rename_i g _ _ t _
      have left := formed_lapseMonitors (p := fun r => r.gang == gid && m.getLsbD r.lane) (formed_onGang (g := gid)
        (f := fun g => g.retire m) (formed_releasePins (team := g.team) (core := g.core) (scope := scope)
          (vc := s.leadClock gid m) (formed_releaseLanes (gid := gid) (m := m) h)))
      dsimp only
      split
      · exact formed_hwHalt (by split <;> [exact formed_setLaunch left; exact left])
      · rename_i hu
        refine formed_barrier (formed_commitStack (formed_settle ?_ hu))
        split <;> [exact formed_setLaunch left; exact left]

theorem formed_exitWord {scope : Nat} (h : s.formed κ) : (s.exitWord scope).formed κ := by
  grind [State.exitWord, formed_afterAll, formed_issue, formed_takeDue, formed_exitLanes, formed_act, formed_endCohort]

theorem formed_takeItems {gid core launch d : Nat} {ls : List Nat} (h : s.formed κ) :
    (s.takeItems gid core launch d ls).1.formed κ := by
  induction ls generalizing s with
  | nil => exact h
  | cons l ls ih =>
    unfold State.takeItems
    split
    · exact h
    · exact ih (formed_onGang (formed_onCore h (by exact fun _ hc => hc)))

end Sys2Proof.Machine
end

section
/-! The form of storage: the operations of Machine/Queues.lean. -/
namespace Sys2Proof.Machine

variable {κ : Storage} {s : State}

theorem formed_setQueue {d : Dom} {q : Nat} {x : Queue} (h : s.formed κ) : (s.setQueue d q x).formed κ := by
  unfold State.setQueue
  grind [formed_onTenant, formed_setLease, Tenant.formed]

theorem formed_onQueue {d : Dom} {q : Nat} {f : Queue → Queue} (h : s.formed κ) : (s.onQueue d q f).formed κ := by
  grind [State.onQueue, formed_setQueue]

theorem formed_queueBase {d : Dom} {q v : Nat} (h : s.formed κ) : (s.queueBase d q v).formed κ := by
  grind [State.queueBase, formed_onQueue]

theorem formed_queueClear {d : Dom} {q v : Nat} (h : s.formed κ) : (s.queueClear d q v).formed κ := by
  grind [State.queueClear, formed_onQueue]

theorem formed_hwFault {d : Dom} {f : TFault} {va : Nat} {acc : HwAccess} (h : s.formed κ) :
    (s.hwFault d f va acc).formed κ := by
  grind [State.hwFault, formed_postRequest]

theorem formed_disown {d : Dom} {q : Nat} (h : s.formed κ) : (s.disown d q).formed κ := by
  unfold State.disown
  grind [formed_onTenant, formed_setFb, formed_foldl, Tenant.formed]

theorem formed_queueCtl {d : Dom} {q v : Nat} (h : s.formed κ) : (s.queueCtl d q v).formed κ := by
  grind [State.queueCtl, formed_setQueue, formed_disown]

theorem formed_refuseRecord {d : Dom} {addr : Nat} (h : s.formed κ) : (s.refuseRecord d addr).formed κ := by
  unfold State.refuseRecord
  grind [formed_post, formed_hwStore]

theorem formed_readForFit {d : Dom} {addr : Nat} (h : s.formed κ) : (s.readForFit d addr).1.formed κ := by
  grind [State.readForFit, formed_hwLoad]

theorem formed_appendCode {d : Dom} {q addr : Nat} (h : s.formed κ) : (s.appendCode d q addr).1.formed κ := by
  unfold State.appendCode
  dsimp only
  split
  · exact h
  · split
    · exact h
    · split
      · exact h
      · split <;> exact formed_readForFit h

theorem formed_ringPut {d : Dom} {q addr : Nat} {vc : Clock} (h : s.formed κ) : (s.ringPut d q addr vc).formed κ := by
  grind [State.ringPut, formed_hwFault, formed_onQueue, formed_hwStore]

theorem formed_appendAs {d : Dom} {q addr code : Nat} {vc : Clock} {last : Bool} (h : s.formed κ) :
    (s.appendAs d q addr code vc last).formed κ := by
  grind [State.appendAs, formed_ringPut, formed_onQueue]

theorem formed_append {d : Dom} {q addr : Nat} {vc : Clock} (h : s.formed κ) : (s.append d q addr vc).formed κ := by
  grind [State.append, formed_appendCode, formed_appendAs]

theorem formed_drainHeld {d : Dom} {q n : Nat} (h : s.formed κ) : (s.drainHeld d q n).formed κ := by
  induction n generalizing s with
  | zero => exact h
  | succ n ih =>
    unfold State.drainHeld
    dsimp only
    split
    · exact h
    · split
      · exact h
      · exact ih (formed_ringPut (formed_onQueue h))

theorem formed_joinAppend {d : Dom} {addr : Nat} {vc : Clock} (h : s.formed κ) : (s.joinAppend d addr vc).formed κ := by
  grind [State.joinAppend, formed_drainHeld, formed_readForFit, formed_ringPut, formed_refuseRecord, formed_hwFault,
    formed_onQueue]

theorem formed_decrementWait {c : Ctx} {addr : Nat} {pubs : List Sync} (h : s.formed κ) :
    (s.decrementWait c addr pubs).1.formed κ := by
  have reached : (s.hwXlat c (addr + 0x10) 1 (.atomic 12)).1.formed κ := formed_hwXlat h
  unfold State.decrementWait
  dsimp only
  split
  · rename_i hu
    rwa [hu] at reached
  · rename_i u x hu
    rw [hu] at reached
    have answered : (if x.kind = 1 then u.hostAnswer c 1 else (u, none)).1.formed κ := by grind [formed_hostAnswer]
    split
    · rename_i hv
      rwa [hv] at answered
    · rename_i v hv
      rw [hv] at answered
      have revived : (v.reviveNow x).formed κ := formed_reviveNow answered
      by_cases hx : x.kind = 1
      · simp only [hx, if_true]
        split
        · exact revived
        · exact ⟨stored_host revived.stored (memCanon_memWrite · _ _)⟩
      · simp only [hx, if_false]
        split
        · exact revived
        · exact formed_fireMonitors (formed_hwPut (formed_hwTouch (formed_same revived rfl)))

end Sys2Proof.Machine
end

section
/-! The form of storage: the operations of Machine/Sync.lean. -/
namespace Sys2Proof.Machine

variable {κ : Storage} {s : State}

theorem formed_onWait {gid w : Nat} {f : Wait → Wait} (h : s.formed κ) : (s.onWait gid w f).formed κ := by
  grind [State.onWait, formed_onGang]

theorem formed_trapWait {gid w : Nat} {i : TrapInfo} (h : s.formed κ) : (s.trapWait gid w i).formed κ := by
  grind [State.trapWait, formed_trapLanes, formed_unpark]

theorem formed_deliverWait {gid w : Nat} (h : s.formed κ) : (s.deliverWait gid w).formed κ := by
  grind [State.deliverWait, formed_deliver, formed_onGang]

theorem formed_fenceEffect {gid : Nat} {m : Mask} {ord scope : Nat} (h : s.formed κ) :
    (s.fenceEffect gid m ord scope).formed κ := by
  unfold State.fenceEffect
  grind [formed_releaseLanes, formed_releasePins, formed_onGang]

theorem formed_fenceWord {ord scope : Nat} (h : s.formed κ) : (s.fenceWord ord scope).formed κ := by
  grind [State.fenceWord, formed_fenceEffect, formed_leave, formed_issue, formed_finish, formed_parkAt,
    formed_deliver, formed_act]

theorem formed_fenceWake {gid w ord scope : Nat} (h : s.formed κ) : (s.fenceWake gid w ord scope).formed κ := by
  grind [State.fenceWake, formed_fenceEffect, formed_deliverWait, formed_unpark, formed_onWait]

theorem formed_obtainRound {gid part core k c : Nat} (h : s.formed κ) : (s.obtainRound gid part core k c).formed κ :=
  formed_onGang (formed_onPart h fun _ hx => hx)

theorem formed_roundEffect {gid : Nat} {m : Mask} {part core d k : Nat} (h : s.formed κ) :
    (s.roundEffect gid m part core d k).formed κ := by
  grind [State.roundEffect, formed_obtainRound, formed_pendLane, formed_acquireLanes, formed_foldl]

theorem formed_roundWake {gid w d k : Nat} (h : s.formed κ) : (s.roundWake gid w d k).formed κ := by
  grind [State.roundWake, formed_roundEffect, formed_unpark]

theorem formed_unarm {gid l : Nat} (h : s.formed κ) : (s.unarm gid l).formed κ := by
  grind [State.unarm, formed_onGang, formed_iff, State.formed.stored]

theorem formed_trimMonitors {home : Nat} (h : s.formed κ) : (s.trimMonitors home).formed κ := by
  grind [State.trimMonitors, formed_lapseMonitors]

theorem formed_armedWait {a : Acting} {l va : Nat} {x : Xlat} (h : s.formed κ) : (s.armedWait a l va x).formed κ := by
  grind [State.armedWait, formed_setAccess, formed_iff, State.formed.stored]

theorem formed_armMonitor {a : Acting} {l va : Nat} {x : Xlat} (h : s.formed κ) : (s.armMonitor a l va x).formed κ :=
  formed_trimMonitors (formed_armedWait (formed_same (formed_onGang (formed_unarm h)) rfl))

theorem formed_monCheck {a : Acting} {l va : Nat} (h : s.formed κ) : (s.monCheck a l va).1.formed κ := by
  grind [State.monCheck, formed_migrateHint, formed_xlate]

theorem formed_mwaitDone {gid l d st : Nat} (h : s.formed κ) : (s.mwaitDone gid l d st).formed κ := by
  grind [State.mwaitDone, formed_pendLane, formed_onGang]

theorem formed_mwaitWord {d b : Fin 128} {trap : Bool} (h : s.formed κ) : (s.mwaitWord d b trap).formed κ := by
  grind [State.mwaitWord, formed_mwaitDone, formed_issue, formed_trapEach, formed_finish, formed_parkAt, formed_act,
    formed_foldl]

theorem formed_mwaitWake {gid w d : Nat} {trap : Bool} {st : Nat} (h : s.formed κ) :
    (s.mwaitWake gid w d trap st).formed κ := by
  grind [State.mwaitWake, formed_mwaitDone, formed_trapWait, formed_unpark]

theorem formed_cacheWord {va : Fin 128} {f : State → Acting → Nat → Nat → Xlat → State} (h : s.formed κ)
    (hf : ∀ t a l v x, t.formed κ → (f t a l v x).formed κ) : (s.cacheWord va f).formed κ := by
  refine formed_act h fun x => formed_finish (formed_foldl (fun t l ht => ?_) (formed_issue h))
  grind [formed_xlate]

theorem formed_sendCache {a : Acting} {op : AccOp} {l v : Nat} {x : Xlat} (h : s.formed κ) :
    (s.sendCache a op l v x).formed κ := by
  grind [State.sendCache, formed_setAccess, formed_sendPacket, formed_iff, State.formed.stored]

theorem formed_dropPage {page : Nat} (h : s.formed κ) : (s.dropPage page).formed κ :=
  formed_lapseMonitors (formed_same (formed_mapCores (formed_fillsPass h) (by exact fun _ hc => hc)) rfl)

theorem formed_publishPage {page : Nat} (h : s.formed κ) : (s.publishPage page).formed κ := by
  grind [State.publishPage, formed_publishPins, formed_foldl]

theorem formed_discardPage {a : Acting} {l va : Nat} {x : Xlat} (h : s.formed κ) :
    (s.discardPage a l va x).1.formed κ := by
  grind [State.discardPage, formed_publishPage, formed_dropTlb, formed_orEntry, formed_dropPage]

end Sys2Proof.Machine
end

section
/-! The form of storage: the operations of Machine/Semaphores.lean. -/
namespace Sys2Proof.Machine

variable {κ : Storage} {s : State}

theorem formed_setSem {p : Nat × Nat} {x : Sem} (h : s.formed κ) : (s.setSem p x).formed κ := by
  grind [State.setSem, formed_onCore, Core.formed]

theorem formed_semWord {n : Fin 128} {k : State → Acting → Nat × Nat → State} (h : s.formed κ)
    (hk : ∀ t x p, t.formed κ → (k t x p).formed κ) : (s.semWord n k).formed κ := by
  refine formed_act (formed_takeDue h) fun x => ?_
  grind [formed_takeDue, formed_trap, formed_issue]

theorem formed_semTake {gid : Nat} {m : Mask} {p : Nat × Nat} {dec : Bool} {x : Nat} (h : s.formed κ) :
    (s.semTake gid m p dec x).formed κ := by
  grind [State.semTake, formed_setSem, formed_acquireLanes]

theorem formed_semWait {dec : Bool} {n b : Fin 128} (h : s.formed κ) : (s.semWait dec n b).formed κ := by
  grind [State.semWait, formed_issue, formed_finish, formed_parkAt, formed_semWord, formed_semTake, formed_trap]

theorem formed_semWake {gid w : Nat} {dec : Bool} {n x : Nat} (h : s.formed κ) : (s.semWake gid w dec n x).formed κ := by
  grind [State.semWake, formed_trapWait, formed_unpark, formed_semTake]

end Sys2Proof.Machine
end

section
/-! The form of storage: the operations of Machine/Errors.lean. -/
namespace Sys2Proof.Machine

variable {κ : Storage} {s : State}

theorem formed_countAt {quad j : Nat} (h : s.formed κ) : (s.countAt quad j).formed κ := by
  grind [State.countAt, formed_iff, State.formed.stored]

theorem formed_machineError {core : Nat} (h : s.formed κ) : (s.machineError core).formed κ := by
  grind [State.machineError, formed_post, formed_countAt, formed_iff, State.formed.stored]

theorem formed_laneError {core team : Nat} (h : s.formed κ) : (s.laneError core team).formed κ := by
  grind [State.laneError, formed_hwHalt, formed_machineError]

end Sys2Proof.Machine
end

section
/-! The form of storage: the operations of Machine/Scratch.lean. -/
namespace Sys2Proof.Machine

variable {κ : Storage} {s : State}

theorem formed_bufWrite {wbuf : Bool} {core o : Nat} {bs : List Byte} (h : s.formed κ) :
    (s.bufWrite wbuf core o bs).formed κ := by
  refine formed_onCore h fun c hc => ?_
  split
  · exact fun e => ⟨(hc e).1, memCanon_memWrite (hc e).2 _ _⟩
  · exact fun e => ⟨memCanon_memWrite (hc e).1 _ _, (hc e).2⟩

theorem formed_unitPut {w : BufParty} {wbuf : Bool} {core unit : Nat} {part : List (Nat × Byte)} {atomic : Bool} (h :
    s.formed κ) : (s.unitPut w wbuf core unit part atomic).formed κ := by
  grind [State.unitPut, formed_bufWrite, formed_onCore, formed_foldl, Core.formed]

theorem formed_bufPut {w : BufParty} {wbuf : Bool} {core o : Nat} {bs : List Byte} {atomic : Bool} (h : s.formed κ) :
    (s.bufPut w wbuf core o bs atomic).formed κ := by
  grind [State.bufPut, formed_unitPut, formed_foldl]

theorem formed_scratchApply {id : Nat} (h : s.formed κ) : (s.scratchApply id).formed κ := by
  grind [State.scratchApply, formed_bufPut, formed_dropAccess, formed_supply]

theorem formed_landScratch {gid : Nat} {m : Mask} (h : s.formed κ) : (s.landScratch gid m).formed κ := by
  grind [State.landScratch, formed_scratchApply, formed_foldl]

theorem formed_afterScratch {f : Acting → State → State} (h : s.formed κ)
    (hf : ∀ a t, t.formed κ → (f a t).formed κ) : (s.afterScratch f).formed κ :=
  formed_act h fun _ => formed_act (formed_landScratch h) fun a => hf a _ (formed_landScratch h)

theorem formed_scratchLoad {wbuf : Bool} {size : Nat} {d ra : Fin 128} {i : Fin 2048} (h : s.formed κ) :
    (s.scratchLoad wbuf size d ra i).formed κ := by
  refine formed_afterScratch h fun a t ht => ?_
  dsimp only
  split
  · exact formed_laneError (formed_issue ht)
  · refine formed_finish (formed_trapEach (formed_foldl (fun u p hu => ?_) (formed_issue ht)))
    split
    · exact formed_same (formed_onGang hu) rfl
    · exact hu

theorem formed_scratchStore {wbuf : Bool} {size kind : Nat} {d ra : Fin 128} {i : Fin 2048} (h : s.formed κ) :
    (s.scratchStore wbuf size kind d ra i).formed κ := by
  refine formed_afterScratch h fun _ t ht => formed_storeWord ht fun u a ls hu => formed_foldl (fun v l hv => ?_) hu
  dsimp only
  split
  · exact formed_placeRecord hv
  · exact formed_bufPut hv

theorem formed_sca {fn : Nat} {d ra b : Fin 128} (h : s.formed κ) : (s.sca fn d ra b).formed κ := by
  refine formed_afterScratch h fun a t ht => ?_
  dsimp only
  split
  · exact formed_laneError (formed_issue ht)
  · exact formed_finish (formed_trapEach (formed_foldl
      (fun u p hu => formed_setAccess (formed_same (formed_onGang hu) rfl)) (formed_issue ht)))

end Sys2Proof.Machine
end

section
/-! The form of storage: the operations of Machine/Shapes.lean. -/
namespace Sys2Proof.Machine

variable {κ : Storage} {s : State}

theorem formed_readSlot {t : Team} {core slot : Nat} (h : s.formed κ) : (s.readSlot t core slot).1.formed κ := by
  grind [State.readSlot, formed_onQuad, formed_hwLoad, Quad.formed]

theorem formed_useHandle {t : Team} {core operand v : Nat} (h : s.formed κ) :
    (s.useHandle t core operand v).1.formed κ := by
  have read : (s.readSlot t core (v / 2 ^ 12)).1.formed κ := formed_readSlot h
  unfold State.useHandle
  grind

theorem formed_useHandles {t : Team} {core : Nat} {hs : List (Nat × Nat)} (h : s.formed κ) :
    (s.useHandles t core hs).1.formed κ := by
  unfold State.useHandles
  dsimp only
  split <;> rename_i e <;> have used := congrArg Prod.fst e ▸ formed_foldl_fst (fun r v hr => by
    split
    · exact hr
    · rename_i u ws
      have hu : (u.useHandle t core v.1 v.2).1.formed κ := formed_useHandle hr
      split <;> (rename_i e; rw [e] at hu; exact hu)) h
  · exact used
  · split <;> exact used

theorem formed_dropShape {ten slot : Nat} (h : s.formed κ) : (s.dropShape ten slot).formed κ :=
  formed_mapQuads h (by exact fun _ hq => hq)

theorem formed_engineEntry {gid : Nat} {m : Mask} {t : Team} {lvl core cause info addr synd : Nat} (h : s.formed κ) :
    (s.engineEntry gid m t lvl core cause info addr synd).formed κ := by
  grind [State.engineEntry, formed_post]

theorem formed_raiseDue {gid : Nat} {live : Mask} {cause info : Nat} (h : s.formed κ) :
    (s.raiseDue gid live cause info).formed κ := by
  grind [State.raiseDue, formed_onGang]

/-- An array of a quad, which is empty before its first use. -/
theorem Quad.formed.array {q : Quad} (h : q.formed κ) (k : Nat) : (assocGet {} q.arrays k).formed κ :=
  assocGet_of_forall h (fun _ => ⟨rfl, fun _ hp => absurd hp List.not_mem_nil, fun _ hw => absurd hw List.not_mem_nil⟩) k

theorem array_formed {q k : Nat} (h : s.formed κ) : (s.array q k).formed κ := (quad_formed h).array k

end Sys2Proof.Machine
end

section
/-! The form of storage: the operations of Machine/Copies.lean. -/
namespace Sys2Proof.Machine

variable {κ : Storage} {s : State}

theorem formed_onArray {q k : Nat} {f : Array → Array} (h : s.formed κ) (hf : ∀ a : Array, a.formed κ → (f a).formed κ) :
    (s.onArray q k f).formed κ :=
  formed_onQuad h fun _ hx => forall_assocSet hx k (hf _ (hx.array k))

theorem mem_assocErase {α : Type} {xs : List (Nat × α)} {k : Nat} {y : Nat × α} (h : y ∈ assocErase xs k) : y ∈ xs := by
  unfold assocErase at h
  exact (List.mem_filter.mp h).1

theorem tiles_canon {a : Array} (h : a.canonTiles) (part : Nat) : memCanon (a.tiles part).cstore = true := by
  obtain ⟨cstore, parked, -⟩ := h
  unfold Array.tiles
  split
  · exact cstore
  · exact assocGet_of_forall (p := fun x : TileSet => memCanon x.cstore = true) parked rfl part

theorem claim_formed {a : Array} {part : Nat} {keep : Nat → Bool} (h : a.formed κ) : (a.claim part keep).formed κ := by
  intro e
  obtain ⟨cstore, parked, was⟩ := h e
  unfold Array.claim
  split
  · exact ⟨cstore, parked, was⟩
  · refine ⟨tiles_canon (h e) part, fun p hp => ?_, fun _ hw => absurd hw List.not_mem_nil⟩
    have aside := mem_assocErase (List.mem_filter.mp hp).1
    split at aside
    · split at aside
      · exact forall_assocSet (p := fun x : TileSet => memCanon x.cstore = true) parked _ (tiles_canon (h e) _) p aside
      · exact parked p aside
    · exact parked p aside

theorem formed_claimArray {q k part : Nat} (h : s.formed κ) : (s.claimArray q k part).formed κ :=
  formed_onArray h fun _ => claim_formed

theorem formed_copyTouch {c : Copy} {x : Xlat} {place : Nat} {pin : Option Pin} {t : State} (h : s.formed κ)
    (e : s.copyTouch c x place pin = some t) : t.formed κ := by
  unfold State.copyTouch at e
  split at e
  · cases e
    exact h
  · split at e
    · exact formed_touchL2 h e
    · cases e

theorem formed_copyCombine {x : Xlat} (h : s.formed κ) : (s.copyCombine x).formed κ := by
  grind [State.copyCombine, formed_combine]

theorem formed_copyPut {c : Copy} {uid va : Nat} {x : Xlat} {place : Nat} {pin : Option Pin} {mask v : Nat} (h :
    s.formed κ) :
    (s.copyPut c uid va x place pin mask v).1.formed κ := by
  unfold State.copyPut
  have kept : (s.keepLine (lineOf x.pa)).formed κ := formed_keepLine h
  dsimp only
  split
  · exact formed_firePinned (formed_onCore (formed_same kept rfl) (by exact fun _ hc => hc))
  · have put : ((State.soil { s.keepLine (lineOf x.pa) with
        syncs := syncWrite (s.keepLine (lineOf x.pa)).syncs (x.pa / 4) false [],
        mem := memSet (s.keepLine (lineOf x.pa)).mem x.pa (mergeByte (memByte (s.keepLine (lineOf x.pa)).mem x.pa)
          mask v) }
        (lineOf x.pa) place x.fixed).fireMonitors (lineOf x.pa)).formed κ :=
      formed_fireMonitors (formed_soil ⟨stored_mem kept.stored (memCanon_memSet · _ _)⟩)
    split
    · exact put
    · exact formed_setAccess (formed_same put rfl)

theorem formed_setCopy {q uid : Nat} {c : Copy} (h : s.formed κ) : (s.setCopy q uid c).formed κ := by
  grind [State.setCopy, formed_onQuad, Quad.formed]

theorem formed_stopCopy {q uid : Nat} {c : Copy} {cause synd addr : Nat} (h : s.formed κ) :
    (s.stopCopy q uid c cause synd addr).formed κ := by
  grind [State.stopCopy, formed_post, formed_setCopy]

/-! ### Moves: a part of a copy's work with its outcome -/

/-- The state that a move leaves has its form. -/
def Move.formed {α : Type} (κ : Storage) : Move α → Prop
  | .ok s _ => s.formed κ
  | .wait s _ _ => s.formed κ
  | .stop s _ _ _ => s.formed κ
  | .outside => True

theorem move_bind {α β : Type} {m : Move α} {f : State → α → Move β} (h : m.formed κ)
    (hf : ∀ t v, t.formed κ → (f t v).formed κ) : (m.bind f).formed κ := by
  cases m with
  | ok t v => exact hf t v h
  | wait => exact h
  | stop => exact h
  | outside => trivial

theorem move_named {α : Type} {m : Move α} {addr : Nat} (h : m.formed κ) : (m.named addr).formed κ := by
  cases m <;> exact h

theorem move_foldl {α β : Type} {f : Move α → β → Move α} {m : Move α} {xs : List β} (h : m.formed κ)
    (hf : ∀ (m : Move α) (x : β), m.formed κ → (f m x).formed κ) : (xs.foldl f m).formed κ :=
  List.foldlRecOn xs f h fun m hm x _ => hf m x hm

theorem move_copyGoes {c : Copy} {va acc : Nat} {r : Except TFault Xlat} (h : s.formed κ) :
    (s.copyGoes c va acc r).formed κ := by
  unfold State.copyGoes
  split
  · exact formed_migrateHint h
  · split
    · exact h
    · split
      · trivial
      · exact formed_markLeaves h

theorem move_copyWalk {c : Copy} {va acc : Nat} (h : s.formed κ) : (s.copyWalk c va acc).formed κ := by
  have walked : (s.walkNow c.ctx va acc false).1.formed κ := formed_walkNow h
  refine move_copyGoes ?_
  split
  · split
    · exact walked
    · exact formed_onQuad walked (by exact fun _ hq => hq)
  · exact walked

theorem move_copyXlate {c : Copy} {va acc : Nat} (h : s.formed κ) : (s.copyXlate c va acc).formed κ := by
  unfold State.copyXlate
  dsimp only
  split
  · split
    · exact move_copyWalk h
    · exact move_copyGoes h
  · exact move_copyWalk h

theorem move_copyRace {c : Copy} {uid place : Nat} {x : Xlat} {va cls : Nat} (h : s.formed κ) :
    (s.copyRace c uid place x va cls).formed κ := by
  have checked : (s.raceCheck place x.pa 1 c.lease { c.racer uid cls with fixed := x.fixed }).2.formed κ :=
    formed_raceCheck h
  unfold State.copyRace
  split <;> (rename_i e; rw [e] at checked; exact checked)

theorem move_copyBad {c : Copy} {core addr : Nat} {b : Byte} {new : Bool} (h : s.formed κ) :
    (s.copyBad c core addr b new).formed κ := by
  unfold State.copyBad
  split
  · change (if new then s.machineError core else s).formed κ
    split
    · exact formed_machineError h
    · exact h
  · exact formed_machineError h

theorem move_copyReadMem {c : Copy} {uid va : Nat} (h : s.formed κ) : (s.copyReadMem c uid va).formed κ := by
  refine move_bind (move_copyXlate h) fun t x ht => ?_
  dsimp only
  split
  · split
    · exact ht
    · split <;> exact ht
  · split
    · exact move_bind (move_copyRace ht) fun _ _ hu => hu
    · split
      · exact ht
      · split
        · exact ht
        · split
          · exact ht
          · split
            · exact ht
            · rename_i u hu
              refine move_bind (move_copyRace (formed_copyCombine (formed_copyTouch ht hu))) fun v _ hv => ?_
              split
              · exact move_copyBad hv
              · exact hv

theorem move_copyWriteMem {c : Copy} {uid va mask v : Nat} {bad : Bool} (h : s.formed κ) :
    (s.copyWriteMem c uid va mask v bad).formed κ := by
  refine move_bind (move_copyXlate h) fun t x ht => ?_
  dsimp only
  split
  · have cleared : ((t.clearDisc x.leaves).getD t).formed κ := by
      cases e : t.clearDisc x.leaves with
      | none => exact ht
      | some u => exact formed_clearDisc ht e
    exact ⟨stored_host cleared.stored (memCanon_memSet · _ _)⟩
  · split
    · exact ht
    · split
      · exact ht
      · have revived : (t.reviveAt x.pa true x.disc x.leaves).2.formed κ := formed_reviveAt ht
        split <;> (rename_i e; rw [e] at revived)
        · exact revived
        · split
          · exact revived
          · rename_i u hu
            refine move_bind (move_copyRace (formed_copyCombine (formed_copyTouch revived hu))) fun v _ hv => ?_
            refine formed_copyPut ?_
            split
            · exact formed_same hv rfl
            · exact hv

theorem poisonUnit_formed {c : Core} {wbuf : Bool} {u : Nat} (h : c.formed κ) : (c.poisonUnit wbuf u).formed κ := by
  unfold Core.poisonUnit
  split <;> exact h

theorem move_copyRead {c : Copy} {uid : Nat} {x : Shape} {o : Nat} (h : s.formed κ) :
    (s.copyRead c uid x o).formed κ := by
  unfold State.copyRead
  split
  · exact move_copyReadMem h
  · exact h
  · exact h
  · split
    · exact h
    · dsimp only
      split
      · exact move_bind (move_copyBad h) fun t _ ht => formed_onCore ht fun _ hc => poisonUnit_formed hc
      · exact h

theorem move_copyWrite {c : Copy} {uid : Nat} {x : Shape} {o mask v : Nat} {bad : Bool} (h : s.formed κ) :
    (s.copyWrite c uid x o mask v bad).formed κ := by
  unfold State.copyWrite
  split
  · exact move_copyWriteMem h
  · exact formed_same h rfl
  · split
    · exact h
    · change State.formed κ (if bad then _ else _)
      split
      · exact formed_onCore (formed_bufPut h) fun _ hc => poisonUnit_formed hc
      · exact formed_bufPut h

theorem move_copyReadBits {c : Copy} {uid : Nat} {x : Shape} {b w : Nat} (h : s.formed κ) :
    (s.copyReadBits c uid x b w).formed κ :=
  move_bind (move_foldl h fun _ _ hm => move_bind hm fun _ _ ht => move_bind (move_copyRead ht) fun _ _ hu => hu)
    fun _ _ ht => ht

theorem move_copyWriteBits {c : Copy} {uid : Nat} {x : Shape} {b w v : Nat} {bad : Bool} (h : s.formed κ) :
    (s.copyWriteBits c uid x b w v bad).formed κ :=
  move_foldl h fun _ _ hm => move_bind hm fun _ _ ht => move_bind (move_copyWrite ht) fun _ _ hu => hu

theorem move_copyBytes {c : Copy} {uid : Nat} {x y : Shape} {src dst n : Nat} {zero : Bool} (h : s.formed κ) :
    (s.copyBytes c uid x y src dst n zero).formed κ :=
  move_foldl h fun _ _ hm => move_bind hm fun t _ ht => by
    refine move_bind ?_ fun _ _ hu => move_bind (move_copyWrite hu) fun _ _ hv => hv
    split
    · exact ht
    · exact move_copyRead ht

theorem move_rowPoisoned {c : Copy} {o n : Nat} (h : s.formed κ) : (s.rowPoisoned c o n).formed κ := by
  unfold State.rowPoisoned
  dsimp only
  split
  · exact move_bind (move_copyBad h) fun t _ ht =>
      formed_onQuad ht fun _ hq => forall_assocSet hq _ (by exact (quad_formed h).array _)
  · exact h

theorem move_copyElement {c : Copy} {uid : Nat} {src : Option (List Nat)} {dst : List Nat} (h : s.formed κ) :
    (s.copyElement c uid src dst).formed κ := by
  unfold State.copyElement
  dsimp only
  split
  · exact h
  · split
    · exact move_bind (move_named (move_copyWriteBits h)) fun _ _ ht => ht
    · refine move_bind ?_ fun t lost ht => ?_
      · split
        · exact move_rowPoisoned h
        · exact h
      · split
        · exact ht
        · exact move_bind (move_named (move_copyReadBits ht)) fun _ _ hu =>
            move_bind (move_named (move_copyWriteBits hu)) fun _ _ hv => hv

theorem move_copyScale {c : Copy} {uid pos : Nat} {src dst : List Nat} (h : s.formed κ) :
    (s.copyScale c uid pos src dst).formed κ := by
  unfold State.copyScale
  dsimp only
  split
  · refine move_bind ?_ fun _ _ ht => move_copyWrite ht
    split
    · exact move_copyRead h
    · exact h
  · exact h

theorem move_formElement {c : Copy} {uid : Nat} {p : List Nat} (h : s.formed κ) : (s.formElement c uid p).formed κ := by
  unfold State.formElement
  dsimp only
  split
  · exact h
  · refine move_bind ?_ fun t v ht => move_bind (move_foldl (by exact ht) fun _ _ hm => move_bind hm fun _ _ hu =>
      move_bind (move_copyWrite hu) fun _ _ hw => hw) fun u ids hu => ?_
    · split
      · exact move_named (move_copyReadBits h)
      · exact h
    · split
      · refine move_bind ?_ fun _ _ hv => move_bind (move_copyWrite hv) fun _ _ hw => hw
        split
        · exact move_copyRead hu
        · exact hu
      · exact hu

theorem move_copyUnit {c : Copy} {uid u : Nat} (h : s.formed κ) : (s.copyUnit c uid u).formed κ := by
  unfold State.copyUnit
  dsimp only
  split
  · exact h
  · exact move_bind (move_foldl h fun _ _ hm => move_bind hm fun _ _ ht => move_bind (move_copyBytes ht) fun _ _ hv => hv)
      fun _ _ ht => move_bind (move_copyBytes ht) fun _ _ hv => hv

theorem move_copyRow {c : Copy} {uid y : Nat} (h : s.formed κ) : (s.copyRow c uid y).formed κ := by
  unfold State.copyRow
  dsimp only
  split
  · exact move_bind (move_named (move_copyReadBits h)) fun _ _ ht => ht
  · exact h

theorem move_copyPosition {c : Copy} {uid pos : Nat} (h : s.formed κ) : (s.copyPosition c uid pos).formed κ := by
  unfold State.copyPosition
  dsimp only
  split
  · split
    · exact h
    · exact move_bind (move_copyRow h) fun _ _ ht => move_copyElement ht
  · split
    · exact h
    · refine move_bind (move_copyRow h) fun _ _ ht => ?_
      split
      · exact move_copyElement ht
      · exact ht
  · split
    · exact h
    · exact move_bind (move_named (move_copyWriteBits h)) fun _ _ ht => ht
  · split
    · exact move_bind (move_formElement h) fun _ _ ht => ht
    · refine move_bind (move_copyElement h) fun _ _ ht => ?_
      split
      · exact move_bind (move_copyScale ht) fun _ _ hu => hu
      · exact ht

theorem move_copyNext {c : Copy} {uid : Nat} (h : s.formed κ) : (s.copyNext c uid).formed κ := by
  unfold State.copyNext
  split
  · exact move_bind (move_copyUnit h) fun _ _ ht => ht
  · exact move_copyPosition h

/-- The next block of a copy, by induction on its positions. -/
theorem formed_copySteps {q uid n : Nat} {c : Copy} {t : State} (h : s.formed κ) (e : s.copySteps q uid c n = some t) :
    t.formed κ := by
  induction n generalizing s c with
  | zero =>
    cases e
    exact formed_setCopy h
  | succ n ih =>
    have moved : (s.copyNext c uid).formed κ := move_copyNext h
    unfold State.copySteps at e
    split at e <;> (rename_i hm; rw [hm] at moved)
    · exact ih moved e
    · split at e <;> cases e
      · exact formed_setCopy moved
      · exact formed_stopCopy moved
    · cases e
      exact formed_setCopy moved
    · cases e
      exact formed_setCopy ⟨moved.stored⟩
    · cases e
      exact formed_setCopy moved
    · cases e
      exact formed_stopCopy moved
    · cases e

theorem formed_peerStop {q uid : Nat} {c : Copy} {x : Shape} {cause : Nat} (h : s.formed κ) :
    (s.peerStop q uid c x cause).formed κ := by
  grind [State.peerStop, formed_stopCopy]

theorem formed_copyBlockNow {q uid : Nat} {c : Copy} {t : State} (h : s.formed κ) (e : s.copyBlockNow q uid c = some t) :
    t.formed κ := by
  have claimed : (if c.src.kind = 3 then (s.claimArray q 0 c.ten).claimArray q 1 c.ten else s).formed κ := by
    grind [formed_claimArray]
  unfold State.copyBlockNow at e
  dsimp only at e
  grind [formed_copySteps, formed_peerStop]

theorem formed_copyAnswer {q uid : Nat} {c : Copy} {ok : Bool} (h : s.formed κ) : (s.copyAnswer q uid c ok).formed κ := by
  grind [State.copyAnswer, formed_stopCopy, formed_setCopy]

theorem formed_endCommand {gid : Nat} {m : Mask} {t : Team} {lvl core word : Nat} {vc : Clock} {err : Option Progress}
    {trap : Option Nat} (h : s.formed κ) : (s.endCommand gid m t lvl core word vc err trap).formed κ := by
  unfold State.endCommand
  grind [formed_raiseDue, formed_setSem, formed_engineEntry]

theorem formed_increment {gid : Nat} {m : Mask} {t : Team} {lvl core word : Nat} {vc : Clock} {p : Progress} (h :
    s.formed κ) : (s.increment gid m t lvl core word vc p).formed κ := by
  grind [State.increment, formed_endCommand, formed_setSem]

theorem formed_joinFollows {launch : Nat} {vc : Clock} (h : s.formed κ) : (s.joinFollows launch vc).formed κ := by
  grind [State.joinFollows, formed_setLaunch]

theorem formed_copyEnd {q uid : Nat} {c : Copy} (h : s.formed κ) : (s.copyEnd q uid c).formed κ := by
  unfold State.copyEnd
  split <;> grind [formed_onQuad, formed_endCommand, formed_joinFollows, formed_increment, Quad.formed]

/-- A change of every array of a quad that keeps their form. -/
theorem formed_mapArrays {q : Nat} {f : Nat × Array → Array} (h : s.formed κ) (hf : ∀ a, a.2.formed κ → (f a).formed κ) :
    (s.onQuad q (fun x => { x with arrays := x.arrays.map (fun a => (a.1, f a)) })).formed κ :=
  formed_onQuad h fun _ hx => List.forall_mem_map.mpr fun a ha => hf a (hx a ha)

end Sys2Proof.Machine
end

section
/-! The form of storage: the operations of Machine/Matrix.lean. -/
namespace Sys2Proof.Machine

variable {κ : Storage} {s : State}

theorem formed_onCmd {q uid : Nat} {f : MCmd → MCmd} (h : s.formed κ) : (s.onCmd q uid f).formed κ :=
  formed_mapArrays h (by exact fun _ ha => ha)

theorem formed_putBits {c : MCmd} {x : Shape} {b w v : Nat} (h : s.formed κ) : (s.putBits c x b w v).formed κ := by
  refine formed_foldl (fun t i ht => ?_) h
  split
  · exact ht
  · exact formed_onCore (formed_bufWrite ht) (by exact fun _ hc => hc)

theorem formed_epilogue {c : MCmd} {k : Nat} (h : s.formed κ) : (s.epilogue c k).1.formed κ := by
  grind [State.epilogue, formed_putBits, formed_foldl]

theorem formed_commitFlags {c : MCmd} (h : s.formed κ) : (s.commitFlags c).formed κ :=
  formed_foldl (fun _ _ ht => formed_onArray (formed_claimArray ht) (by exact fun _ ha => ha)) h

theorem formed_finishCmd {c : MCmd} {stopped : Option Nat} (h : s.formed κ) : (s.finishCmd c stopped).formed κ := by
  grind [State.finishCmd, formed_onCmd]

/-! ### Canonical memories as lists -/

theorem memCanonFrom_iff {lo : Nat} {m : Mem} :
    memCanonFrom lo m = true ↔ (∀ c ∈ m, lo ≤ c.1 ∧ c.2 ≠ 0) ∧ m.Pairwise (fun x y => x.1 < y.1) := by
  induction m generalizing lo with
  | nil => simp [memCanonFrom]
  | cons c m ih =>
    obtain ⟨a, b⟩ := c
    simp only [memCanonFrom, Bool.and_eq_true, decide_eq_true_eq, ih, List.forall_mem_cons, List.pairwise_cons]
    constructor
    · rintro ⟨⟨ha, hb⟩, hm, hp⟩
      exact ⟨⟨⟨ha, hb⟩, fun c hc => ⟨by have := (hm c hc).1; omega, (hm c hc).2⟩⟩, fun c hc => (hm c hc).1, hp⟩
    · rintro ⟨⟨⟨ha, hb⟩, hm⟩, hlt, hp⟩
      exact ⟨⟨ha, hb⟩, fun c hc => ⟨hlt c hc, (hm c hc).2⟩, hp⟩

/-- A memory is canonical when no byte of it is zero and its addresses rise. -/
theorem memCanon_iff {m : Mem} : memCanon m = true ↔ (∀ c ∈ m, c.2 ≠ 0) ∧ m.Pairwise (fun x y => x.1 < y.1) := by
  simp [memCanon, memCanonFrom_iff]

theorem zipIdx_rises {α : Type} (xs : List α) (n : Nat) : (xs.zipIdx n).Pairwise (fun x y => x.2 < y.2) := by
  have := List.pairwise_lt_range' (s := n) (n := xs.length)
  rw [← List.zipIdx_map_snd n xs] at this
  exact List.pairwise_map.mp this

/-- A tile has room for 16384 words: one of at most that many replaces what it held and leaves the rest alone. -/
theorem memCanon_putTile {m : Mem} (h : memCanon m = true) (tile : Nat) {ws : List Nat} (fits : ws.length ≤ 16384) :
    memCanon (putTile m tile ws) = true := by
  rw [memCanon_iff] at h ⊢
  obtain ⟨nonzero, rises⟩ := h
  have placed : ∀ (p : Nat × Nat) (c : Nat × Byte),
      c ∈ ((leBytes 4 p.1).zipIdx.map (fun b => (0x10000 * tile + 4 * p.2 + b.2, b.1))).filter (fun b => b.2 != 0) →
      0x10000 * tile + 4 * p.2 ≤ c.1 ∧ c.1 < 0x10000 * tile + 4 * p.2 + 4 ∧ c.2 ≠ 0 := by
    intro p c hc
    obtain ⟨hc, hz⟩ := List.mem_filter.mp hc
    obtain ⟨b, hb, rfl⟩ := List.mem_map.mp hc
    have := List.snd_lt_of_mem_zipIdx hb
    simp [leBytes] at this
    exact ⟨by simp, by simp; omega, by simpa using hz⟩
  have inside : ∀ p ∈ ws.zipIdx, p.2 < 16384 := fun p hp => by
    have := List.snd_lt_of_mem_zipIdx hp
    omega
  unfold putTile
  refine ⟨?_, ?_⟩
  · simp only [List.mem_append, List.mem_flatMap]
    rintro c ((hc | ⟨p, -, hc⟩) | hc)
    · exact nonzero c (List.mem_filter.mp hc).1
    · exact (placed p c hc).2.2
    · exact nonzero c (List.mem_filter.mp hc).1
  · refine List.pairwise_append.mpr ⟨List.pairwise_append.mpr ⟨rises.filter _, ?_, ?_⟩, rises.filter _, ?_⟩
    · refine List.pairwise_flatMap.mpr ⟨fun p _ => ?_, (zipIdx_rises ws 0).imp fun {p q} hpq x hx y hy => ?_⟩
      · exact ((List.pairwise_map.mpr ((zipIdx_rises (leBytes 4 p.1) 0).imp fun {x y} hxy => by simp; omega))).filter _
      · have := placed p x hx
        have := placed q y hy
        omega
    · simp only [List.mem_filter, List.mem_flatMap, decide_eq_true_eq]
      rintro x ⟨-, hx⟩ y ⟨p, -, hy⟩
      have := placed p y (List.mem_filter.mpr hy)
      omega
    · simp only [List.mem_append, List.mem_flatMap]
      rintro x (hx | ⟨p, hp, hx⟩) y hy <;> have above := of_decide_eq_true (List.mem_filter.mp hy).2
      · have below := of_decide_eq_true (List.mem_filter.mp hx).2
        omega
      · have := placed p x hx
        have := inside p hp
        omega

/-- A tile of at most 16384 words. -/
theorem formed_setTile {c : MCmd} {k : Nat} {ws : List Nat} (fits : ws.length ≤ 16384) (h : s.formed κ) :
    (s.setTile c k ws).formed κ := by
  refine formed_onArray h fun a ha e => ?_
  obtain ⟨cstore, parked, was⟩ := ha e
  refine ⟨memCanon_putTile cstore _ fits, parked, fun w hw => ?_⟩
  rcases List.mem_append.mp hw with hw | hw
  · exact was w hw
  · rw [List.mem_singleton.mp hw]
    exact cstore

theorem formed_zeroTiles {c : MCmd} (h : s.formed κ) : (s.zeroTiles c).formed κ :=
  formed_foldl (fun _ _ ht => formed_setTile (by simp) ht) h

theorem groupStep_fits {c : MCmd} {k : Nat} {ws ovf poison : List Nat} (e : s.groupStep c k = .tile ws ovf poison) :
    ws.length ≤ 16384 := by
  unfold State.groupStep at e
  dsimp only at e
  split at e
  · cases e
  · split at e
    · cases e
    · injection e with e _ _
      rw [← e]
      simp [List.length_flatMap, Function.comp_def]

theorem groupSteps_fits {c : MCmd} {quad : Nat} {outs : List (Nat × List Nat × List Nat × List Nat)}
    (e : s.groupSteps c quad = some outs) : ∀ o ∈ outs, o.2.1.length ≤ 16384 := by
  unfold State.groupSteps at e
  generalize c.arraysOf = ks at e
  induction ks generalizing outs with
  | nil =>
    cases e
    exact fun _ ho => absurd ho List.not_mem_nil
  | cons k ks ih =>
    rw [List.foldr_cons] at e
    split at e
    · rename_i ht _ hr
      cases e
      exact List.forall_mem_cons.mpr ⟨groupStep_fits ht, ih hr⟩
    · rename_i hr
      cases e
      exact List.forall_mem_cons.mpr ⟨by simp [State.lostTile], ih hr⟩
    · rename_i ht _ hr
      cases e
      exact List.forall_mem_cons.mpr ⟨groupStep_fits ht, ih hr⟩
    · cases e

theorem formed_meetErrs {c : MCmd} {k : Nat} (h : s.formed κ) : (s.meetErrs c k).formed κ :=
  formed_foldl (fun _ _ ht => formed_onCore ht fun _ hc => poisonUnit_formed hc) (formed_machineError h)

/-- A K-group step: what it met is a machine error, and the tiles that it gives fit. -/
theorem formed_mulStep {c : MCmd} {quad : Nat} (h : s.formed κ) : (s.mulStep c quad).formed κ := by
  have met : ((c.arraysOf.filter (fun k => s.stepMeets c k)).foldl
      (fun s k => if s.poisonMode c.ten then s.meetErrs c k else s.machineError c.core) s).formed κ :=
    formed_foldl (fun t k ht => by
      split
      · exact formed_meetErrs ht
      · exact formed_machineError ht) h
  unfold State.mulStep
  dsimp only
  split
  · refine formed_finishCmd ?_
    split
    · exact formed_zeroTiles met
    · exact met
  · rename_i outs hr
    have set := List.foldlRecOn outs (fun (s : State) o => s.setTile c o.1 o.2.1) met
      fun t ht o ho => formed_setTile (groupSteps_fits hr o ho) ht
    split
    · exact formed_finishCmd set
    · exact formed_onCmd set

theorem formed_epiStep {c : MCmd} (h : s.formed κ) : (s.epiStep c).formed κ := by
  grind [State.epiStep, formed_finishCmd, formed_machineError, formed_epilogue]

theorem formed_churn {c : MCmd} {quad : Nat} (h : s.formed κ) : (s.churn c quad).formed κ := by
  refine formed_foldl (fun t k ht => formed_onArray ht (by exact fun _ ha => ha)) ?_
  have claimed := formed_foldl (xs := c.arraysOf) (fun t k ht => formed_claimArray (q := c.home) (k := k) (part :=
    c.ten) ht) h
  split
  · exact formed_finishCmd (formed_zeroTiles claimed)
  · exact formed_epiStep claimed
  · exact formed_mulStep claimed

theorem formed_retireCmd {q : Nat} {c : MCmd} (h : s.formed κ) : (s.retireCmd q c).formed κ := by
  have taken := formed_mapArrays (q := q) (f := fun a => { a.2 with
      queue := a.2.queue.filter (fun d => d.uid != c.uid), was := a.2.was.filter (·.1 != c.uid) })
    (formed_commitFlags (c := c) h) fun a ha e =>
      ⟨(ha e).1, (ha e).2.1, fun w hw => (ha e).2.2 w (List.mem_filter.mp hw).1⟩
  unfold State.retireCmd
  dsimp only
  split
  · exact taken
  · split
    · exact formed_endCommand taken
    · exact formed_increment taken

end Sys2Proof.Machine
end

section
/-! The form of storage: the operations of Machine/Routes.lean. -/
namespace Sys2Proof.Machine

variable {κ : Storage} {s : State}

theorem formed_onRoute {lease n rt : Nat} {f : Route → Route} (h : s.formed κ) : (s.onRoute lease n rt f).formed κ := by
  grind [State.onRoute, formed_onPart, Tenant.formed]

theorem formed_trapRouteWaits {lease n rt reason : Nat} {p : Bool → Bool} (h : s.formed κ) :
    (s.trapRouteWaits lease n rt reason p).formed κ := by
  unfold State.trapRouteWaits
  grind [formed_trapLanes, formed_unpark, formed_foldl]

theorem formed_routeSet {lease n rt v : Nat} (h : s.formed κ) : (s.routeSet lease n rt v).formed κ := by
  grind [State.routeSet, formed_onRoute]

theorem formed_routeClear {lease n rt v : Nat} (h : s.formed κ) : (s.routeClear lease n rt v).formed κ := by
  grind [State.routeClear, formed_trapRouteWaits, formed_onRoute, formed_routeSet]

theorem formed_routeWrite {lease n rt i v : Nat} (h : s.formed κ) : (s.routeWrite lease n rt i v).formed κ := by
  grind [State.routeWrite, formed_onRoute, formed_routeSet, formed_routeClear]

theorem wipe_formed {c : Core} {p q : Nat → Bool} (h : c.formed κ) : (c.wipe p q).formed κ :=
  fun e => ⟨memCanon_filter (h e).1 _, memCanon_filter (h e).2 _⟩

end Sys2Proof.Machine
end

section
/-! The form of storage: the operations of Machine/Placement.lean. -/
namespace Sys2Proof.Machine

variable {κ : Storage} {s : State}

theorem formed_takeCore {core part : Nat} (h : s.formed κ) : (s.takeCore core part).formed κ := by
  have kept : (if (s.core core).part = some part then s.core core else s.wipeOutside core (s.core core)).formed κ := by
    split
    · exact core_formed h
    · exact wipe_formed (core_formed h)
  exact formed_setCore h kept

theorem formed_takeArray {core part : Nat} (h : s.formed κ) : (s.takeArray core part).formed κ := by
  grind [State.takeArray, formed_claimArray]

theorem formed_startWindow {core tag : Nat} {a w : Nat × Nat} (h : s.formed κ) : (s.startWindow core tag a w).formed κ :=
  formed_onCore h fun _ hc e => ⟨memCanon_filter (hc e).1 _, memCanon_filter (hc e).2 _⟩

theorem formed_leaveWindows {t : Team} {core : Nat} (h : s.formed κ) : (s.leaveWindows t core).formed κ := by
  refine formed_onCore h fun c hc => ?_
  split
  · exact hc
  · exact wipe_formed hc

theorem formed_startGang {team core i : Nat} {t : Team} {y : Launch} (h : s.formed κ) :
    (s.startGang team core i t y).formed κ := by
  grind [State.startGang, formed_setGang, formed_iff, State.formed.stored]

theorem formed_powerOn {quad : Nat} (h : s.formed κ) : (s.powerOn quad).formed κ := by
  grind [State.powerOn, formed_onQuad, Quad.formed]

/-- Cores and their arrays taken for a partition. -/
theorem formed_takeAll {part : Nat} {cs : List Nat} (h : s.formed κ) :
    (cs.foldl (fun s c => (s.takeCore c part).takeArray c part) s).formed κ :=
  formed_foldl (fun _ _ ht => formed_takeArray (formed_takeCore ht)) h

theorem formed_placeTeam {launch : Nat} {y : Launch} {p : Spot} (h : s.formed κ) : (s.placeTeam launch y p).formed κ := by
  unfold State.placeTeam
  dsimp only
  split <;> exact formed_powerOn (formed_foldl (fun _ _ ht => formed_startGang ht) (formed_setLaunch (formed_setTeam
    (formed_ite (formed_startWindow (formed_startWindow (formed_takeAll (formed_same h rfl))))
      (formed_startWindow (formed_takeAll (formed_same h rfl)))))))

theorem formed_placeAll {launch n : Nat} {t : State} (h : s.formed κ)
    (e : s.placeAll launch n = some t) : t.formed κ := by
  induction n generalizing s with
  | zero =>
    cases e
    exact h
  | succ n ih =>
    unfold State.placeAll at e
    split at e
    · cases e
    · split at e
      · cases e
      · exact ih (formed_placeTeam h) e

theorem memCanon_putCells {m : Mem} (h : memCanon m = true) (base side : Nat) (cells : List Host.Cell) :
    memCanon (putCells m base side cells) = true :=
  List.foldlRecOn (motive := fun m => memCanon m = true) _ _ h fun _ hm _ _ => memCanon_memSet hm _ _

theorem formed_fillWindows {t : Team} {core side : Nat} {w : Nat × Nat} (h : s.formed κ) :
    (s.fillWindows t core side w).formed κ :=
  formed_onCore h fun _ hc e => ⟨memCanon_putCells (memCanon_filter (hc e).1 _) _ _ _,
    memCanon_putCells (memCanon_filter (hc e).2 _) _ _ _⟩

theorem formed_raiseViews {part core : Nat} {floors : List (Nat × Nat)} (h : s.formed κ) :
    (s.raiseViews part core floors).formed κ := by
  grind [State.raiseViews, formed_onPart, formed_foldl, Tenant.formed]

theorem formed_returnTeam {team : Nat} {t : Team} {p : Spot} (h : s.formed κ) : (s.returnTeam team t p).formed κ := by
  have placed : ∀ {u : State} {x : Team}, u.formed κ → (State.setTeam u team x).formed κ := formed_setTeam
  refine formed_powerOn (formed_foldl (fun _ _ ht => formed_raiseViews (formed_setGang ht)) (formed_ite (placed ?_)
    (formed_foldl (fun _ _ ht => formed_onCore ht (by exact fun _ hc => hc)) (placed ?_)))) <;>
  exact formed_ite (formed_fillWindows (formed_fillWindows (formed_takeAll h))) (formed_fillWindows (formed_takeAll h))

theorem formed_returnAll {dest : Nat → Nat} {ts : List (Nat × Team)} {t : State} (h : s.formed κ)
    (e : s.returnAll dest ts = some t) : t.formed κ := by
  induction ts generalizing s with
  | nil =>
    cases e
    exact h
  | cons x ts ih =>
    unfold State.returnAll at e
    split at e
    · cases e
    · exact ih (formed_returnTeam h) e

/-- The tiles that stand in one C-store together, tile by tile. -/
theorem memCanon_merge {x y : TileSet} (hx : memCanon x.cstore = true) (hy : memCanon y.cstore = true) :
    memCanon (x.merge y).cstore = true := by
  have part : ∀ i, memCanon ((if y.touches i then y else x).part (· == i)).cstore = true ∧
      ∀ c ∈ ((if y.touches i then y else x).part (· == i)).cstore, c.1 / 0x10000 = i := by
    intro i
    refine ⟨memCanon_filter ?_ _, fun c hc => beq_iff_eq.mp (List.mem_filter.mp hc).2⟩
    split
    · exact hy
    · exact hx
  refine memCanon_iff.mpr ⟨fun c hc => ?_, List.pairwise_flatMap.mpr ⟨fun i _ => ?_, ?_⟩⟩
  · obtain ⟨i, -, hc⟩ := List.mem_flatMap.mp hc
    exact (memCanon_iff.mp (part i).1).1 c hc
  · exact (memCanon_iff.mp (part i).1).2
  · refine List.pairwise_lt_range.imp fun {i j} hij c hc d hd => ?_
    have := (part i).2 c hc
    have := (part j).2 d hd
    omega

theorem saved_formed {part old : Nat} {k : SavedQuad} (h : s.formed κ)
    (e : assocGet? (s.tenantOf part).saved old = some k) :
    k.formed κ :=
  tenant_formed h _ (mem_of_assocGet? e)

/-- What was saved of a quad after a change of its arrays that keeps their form. -/
theorem savedQuad_formed {k : SavedQuad} {f : Nat × Array → Array} (h : k.formed κ)
    (hf : ∀ a, a.2.formed κ → (f a).formed κ) : ∀ y ∈ k.arrays.map (fun a => (a.1, f a)), y.2.formed κ :=
  List.forall_mem_map.mpr fun a ha => hf a (h a ha)

/-- A partition without what was saved of a quad, or with something else in its place. -/
theorem tenant_saved {x : Tenant} {xs : List (Nat × SavedQuad)} (hxs : ∀ q ∈ xs, q.2.formed κ) :
    ({ x with saved := xs } : Tenant).formed κ := hxs

theorem formed_returnCores {part old : Nat} {cs : List Nat} {dest : Nat → Nat} {held : Nat → Bool} (h : s.formed κ) :
    (s.returnCores part old cs dest held).formed κ := by
  unfold State.returnCores
  split
  · exact h
  · rename_i k hk
    have saved : k.formed κ := saved_formed h hk
    dsimp only
    refine formed_onPart (formed_onQuad (formed_onQuad (List.foldlRecOn k.arrays _ (formed_foldl
      (fun _ _ ht => formed_onCore ht (by exact fun _ hc => hc)) h) fun t ht a ha => ?_)
      (by exact fun _ hq => hq)) (by exact fun _ hq => hq)) fun x hx => tenant_saved ?_
    · refine formed_onArray (formed_claimArray ht) fun b hb e => ?_
      refine ⟨?_, (hb e).2.1, fun _ hw => absurd hw List.not_mem_nil⟩
      dsimp only
      split
      · exact memCanon_merge (tiles_canon (hb e) part) (tiles_canon (saved a ha e) part)
      · exact tiles_canon (saved a ha e) part
    · split
      · exact fun q hq => hx q (mem_assocErase hq)
      · exact forall_assocSet hx old (by exact savedQuad_formed saved (by exact fun _ ha => ha))

theorem formed_returnTo {part old : Nat} {cs : List Nat} {dest : Nat → Nat} {teams : State → Option State} {t : State}
    (h : s.formed κ) (ht : ∀ u v, u.formed κ → teams u = some v → v.formed κ)
    (e : s.returnTo part old cs dest teams = some t) : t.formed κ := by
  unfold State.returnTo at e
  split at e
  · obtain ⟨u, hu, rfl⟩ := Option.map_eq_some_iff.mp e
    exact formed_returnCores (ht s u h hu)
  · cases e

theorem formed_returnSome {dest : Nat → Nat} {ts : List (Nat × Team)} {t : State} (h : s.formed κ)
    (e : s.returnSome dest ts = some t) : t.formed κ := by
  unfold State.returnSome at e
  dsimp only at e
  split at e
  · cases e
    refine formed_foldl_fst (fun r p hr => ?_) h
    split
    · exact formed_returnTeam hr
    · exact hr
  · cases e

theorem formed_findSome {α : Type} {f : α → Option State} {xs : List α} {t : State}
    (hf : ∀ x u, f x = some u → u.formed κ) (e : xs.findSome? f = some t) : t.formed κ := by
  obtain ⟨x, -, hx⟩ := List.exists_of_findSome?_eq_some e
  exact hf x t hx

theorem formed_returnGroup {d : Dom} {part quad : Nat} {cs : List Nat} {split : Bool} {t : State} (h : s.formed κ)
    (e : s.returnGroup d part quad cs split = some t) : t.formed κ := by
  unfold State.returnGroup at e
  dsimp only at e
  split at e
  · rename_i u hu
    cases e
    exact formed_findSome (fun _ _ => formed_returnTo h fun _ _ => formed_returnAll) hu
  · split at e
    · exact formed_findSome (fun _ _ => formed_returnTo h fun _ _ => formed_returnSome) e
    · cases e

theorem formed_returnCluster {d : Dom} {part quad : Nat} {split : Bool} (h : s.formed κ) :
    (s.returnCluster d part quad split).formed κ := by
  unfold State.returnCluster
  dsimp only
  split
  · rename_i u hu
    exact formed_findSome (fun _ _ => formed_returnTo h fun _ _ => formed_returnAll) hu
  · have grouped := formed_foldl (κ := κ) (xs := coreGroups (s.cluster part quad [0, 1, 2, 3]))
      (f := fun s cs => (s.returnGroup d part quad cs split).getD s)
      (fun t cs ht => formed_getD ht fun _ => formed_returnGroup ht) h
    split
    · exact grouped
    · split
      · rename_i u hu
        split at hu
        · refine formed_returnTo grouped (fun v w hv hw => ?_) hu
          cases hw
          exact hv
        · cases hu
      · exact formed_onPart (formed_onQuad grouped (by exact fun _ hq => hq)) fun x hx =>
          tenant_saved fun q hq => hx q (mem_assocErase hq)

theorem formed_returnLone {d : Dom} {part id : Nat} {t : Team} (h : s.formed κ) :
    (s.returnLone d part id t).formed κ := by
  grind [State.returnLone, formed_returnTeam]

theorem formed_returnQuads {d : Dom} {part : Nat} {qs : List Nat} (h : s.formed κ) :
    (s.returnQuads d part qs).formed κ := by
  grind [State.returnQuads, formed_returnCluster, formed_foldl]

end Sys2Proof.Machine
end

section
/-! The form of storage: the operations of Machine/DispatchEvents.lean. -/
namespace Sys2Proof.Machine

variable {κ : Storage} {s : State}

theorem formed_hostQueue {d : Dom} {q : Nat} {k : State → State} (h : s.formed κ)
    (hk : ∀ t, t.formed κ → (k t).formed κ) :
    (s.hostQueue d q k).formed κ := by
  unfold State.hostQueue
  split
  · exact hk s h
  · exact h

theorem formed_takeHead {d : Dom} {q : Nat} (h : s.formed κ) : (s.takeHead d q).formed κ := by
  grind [State.takeHead, formed_onQueue]

theorem formed_takeFault {d : Dom} {q : Nat} {f : TFault × Nat} {acc : HwAccess} (h : s.formed κ) :
    (s.takeFault d q f acc).formed κ := by
  grind [State.takeFault, formed_hwFault, formed_onQueue]

theorem formed_takeFrame {d : Dom} {q addr : Nat} {w : List Nat} (h : s.formed κ) :
    (s.takeFrame d q addr w).formed κ := by
  have read : (if (recOf w).spill = 0 then (s, .ok []) else s.hwLoad (domCtx d) (recOf w).frame 8 0 :
      State × Except (TFault × Nat) (List Byte)).1.formed κ := by
    split
    · exact h
    · exact formed_hwLoad h
  unfold State.takeFrame
  dsimp only
  split <;> (rename_i e; rw [e] at read)
  · exact formed_takeFault read
  · exact formed_takeHead (formed_setLaunch ⟨read.stored⟩)

theorem formed_takeRecord {d : Dom} {q addr : Nat} (h : s.formed κ) : (s.takeRecord d q addr).formed κ := by
  grind [State.takeRecord, formed_takeFault, formed_hwLoad, formed_takeHead, formed_refuseRecord, formed_takeFrame]

theorem formed_takeEntry {d : Dom} {q : Nat} (h : s.formed κ) : (s.takeEntry d q).formed κ := by
  grind [State.takeEntry, formed_takeFault, formed_takeRecord, formed_hwLoad, formed_takeHead]

theorem formed_retake {d : Dom} {q : Nat} {k : State → State} (h : s.formed κ) (hk : ∀ t, t.formed κ → (k t).formed κ) :
    (s.retake d q k).formed κ := by
  unfold State.retake
  dsimp only
  split
  · exact h
  · split
    · exact hk _ (formed_setQueue h)
    · exact formed_setQueue h

theorem formed_passHead {d : Dom} {q : Nat} (h : s.formed κ) : (s.passHead d q).formed κ := by
  grind [State.passHead, formed_takeHead]

theorem formed_retryHw {d : Dom} {a : HwAccess} (h : s.formed κ) : (s.retryHw d a).formed κ := by
  unfold State.retryHw
  grind [formed_joinAppend, formed_takeEntry, formed_retake, formed_setLaunch, formed_takeRecord, formed_hwFault,
    formed_onQueue, formed_takeFrame, formed_hwStore]

theorem formed_abandonHw {d : Dom} {a : HwAccess} (h : s.formed κ) : (s.abandonHw d a).formed κ := by
  unfold State.abandonHw
  grind [formed_passHead, formed_refuseRecord, formed_onQueue, formed_iff, State.formed.stored]

theorem formed_endBlock {id : Nat} (h : s.formed κ) : (s.endBlock id).formed κ := by
  grind [State.endBlock, formed_setLaunch, formed_onQueue]

theorem formed_admitCoop {id : Nat} {y : Launch} {t : State} (h : s.formed κ) (e : s.admitCoop id y = some t) :
    t.formed κ := by
  obtain ⟨u, hu, rfl⟩ := Option.map_eq_some_iff.mp e
  have placed := formed_placeAll h hu
  refine formed_endBlock ?_
  split
  · exact formed_setLaunch placed
  · exact placed

theorem formed_setDisp {d : Dom} {x : Disp} (h : s.formed κ) : (s.setDisp d x).formed κ := by
  unfold State.setDisp
  grind [formed_onTenant, formed_setLease, Tenant.formed]

theorem formed_offer {id n : Nat} {y : Launch} {t : State} (h : s.formed κ)
    (e : s.offer id y = some (t, n)) : t.formed κ := by
  unfold State.offer at e
  split at e
  · obtain ⟨u, hu, e⟩ := Option.map_eq_some_iff.mp e
    cases e
    exact formed_admitCoop h hu
  · obtain ⟨z, -, e⟩ := Option.map_eq_some_iff.mp e
    cases e
    exact formed_placeTeam h

theorem formed_releaseAt {d : Dom} {p : Nat} {t : State} (h : s.formed κ)
    (e : s.releaseAt d p = some t) : t.formed κ := by
  unfold State.releaseAt at e
  dsimp only at e
  split at e
  · cases e
  · obtain ⟨⟨q, u, n⟩, hc, rfl⟩ := Option.map_eq_some_iff.mp e
    obtain ⟨a, -, ha⟩ := List.exists_of_findSome?_eq_some hc
    obtain ⟨y, -, hy⟩ := Option.bind_eq_some_iff.mp ha
    obtain ⟨r, hr, e'⟩ := Option.map_eq_some_iff.mp hy
    cases e'
    have offered := formed_offer h hr
    dsimp only
    repeat' split
    all_goals exact formed_setDisp offered

theorem formed_beginBlock {d : Dom} (h : s.formed κ) : (s.beginBlock d).formed κ := by
  grind [State.beginBlock, formed_setLaunch, formed_onQueue]

theorem formed_release {d : Dom} {t : State} (h : s.formed κ) (e : s.release d = some t) : t.formed κ := by
  unfold State.release at e
  split at e
  · dsimp only at e
    split at e
    · cases e
      exact formed_returnQuads h
    · cases e
  · dsimp only at e
    split at e
    · exact formed_admitCoop (formed_beginBlock h) e
    · exact formed_findSome (fun _ _ => formed_releaseAt (formed_beginBlock h)) e

theorem formed_returnItems {core launch : Nat} (h : s.formed κ) : (s.returnItems core launch).formed κ := by
  grind [State.returnItems, formed_setLaunch, formed_onCore, Core.formed]

theorem formed_exitTeam {team : Nat} {t : Team} (h : s.formed κ) : (s.exitTeam team t).formed κ := by
  unfold State.exitTeam
  dsimp only
  split
  on_goal 1 => refine formed_setLaunch ?_
  all_goals
    refine formed_ite ?_ (formed_onQuad ?_ (by exact fun _ hq => hq)) <;>
    exact formed_ite (formed_foldl (fun _ _ ht => formed_returnItems (formed_leaveWindows ht))
      (formed_same (formed_mapCores (formed_publishPins h) (by exact fun _ hc => hc)) rfl))
      (formed_same (formed_mapCores (formed_publishPins h) (by exact fun _ hc => hc)) rfl)

theorem formed_endLaunch {id : Nat} (h : s.formed κ) : (s.endLaunch id).formed κ :=
  formed_same (formed_mapCores h (by exact fun _ hc => hc)) rfl

theorem formed_joinSuccessor {id : Nat} {y : Launch} (h : s.formed κ) : (s.joinSuccessor id y).formed κ := by
  grind [State.joinSuccessor, formed_decrementWait, formed_joinAppend, formed_setLaunch, formed_endLaunch,
    formed_hwFault, formed_iff, State.formed.stored]

end Sys2Proof.Machine
end

section
/-! The form of storage: the operations of Machine/Engines.lean. -/
namespace Sys2Proof.Machine

variable {κ : Storage} {s : State}

theorem formed_checkCopy {a : Acting} {op : Nat} {v : Nat → Nat} (h : s.formed κ) : (s.checkCopy a op v).1.formed κ := by
  grind [State.checkCopy, formed_useHandles]

theorem formed_acceptCopy {op : Nat} {args : List Nat} (h : s.formed κ) : (s.acceptCopy op args).formed κ := by
  refine formed_act h fun a => ?_
  have checked : (s.checkCopy a op (fun i => args.getD i 0)).1.formed κ := formed_checkCopy h
  dsimp only
  split <;> (rename_i e; rw [e] at checked)
  · exact formed_trap checked
  · exact formed_finish (formed_setCopy ⟨(formed_releasePins (formed_releaseLanes checked)).stored⟩)

theorem formed_checkMatrix {a : Acting} {op : Nat} {v : Nat → Nat} (h : s.formed κ) :
    (s.checkMatrix a op v).1.formed κ := by
  grind [State.checkMatrix, formed_useHandles]

theorem formed_acceptMatrix {op : Nat} {args : List Nat} {order : Nat} (h : s.formed κ) :
    (s.acceptMatrix op args order).formed κ := by
  refine formed_act h fun a => ?_
  have checked : (s.checkMatrix a op (fun i => args.getD i 0)).1.formed κ := formed_checkMatrix h
  dsimp only
  split <;> (rename_i e; rw [e] at checked)
  · exact formed_trap checked
  · exact formed_finish (formed_foldl (fun _ _ ht => formed_onArray (formed_claimArray ht) (by exact fun _ ha => ha))
      ⟨checked.stored⟩)

theorem formed_acceptCmd {op : Nat} {args : List Nat} {order : Nat} (h : s.formed κ) :
    (s.acceptCmd op args order).formed κ := by
  grind [State.acceptCmd, formed_acceptCopy, formed_acceptMatrix]

theorem formed_cmdWord {op d n : Nat} {x : Option Nat} (h : s.formed κ) : (s.cmdWord op d n x).formed κ := by
  refine formed_act h fun a => ?_
  have issued : s.issue.fresh.2.formed κ := ⟨(formed_issue h).stored⟩
  exact formed_ite (formed_acceptCmd issued) (formed_onCohort issued)

end Sys2Proof.Machine
end

section
/-! The form of storage: the operations of Machine/Work.lean. -/
namespace Sys2Proof.Machine

variable {κ : Storage} {s : State}

theorem formed_routePut {lease n rt core : Nat} {vals : List Nat} (h : s.formed κ) :
    (s.routePut lease n rt core vals).formed κ := by
  grind [State.routePut, formed_onRoute]

theorem formed_routeTake {lease n rt core q : Nat} (h : s.formed κ) : (s.routeTake lease n rt core q).2.formed κ := by
  grind [State.routeTake, formed_onRoute]

theorem formed_giveWords {gid : Nat} {m : Mask} {d n : Nat} {vals : List Nat} (h : s.formed κ) :
    (s.giveWords gid m d n vals).formed κ := by
  grind [State.giveWords, formed_pendLane, formed_foldl]

theorem formed_routeWord {rt n : Nat} {send : Bool} {k : State → Acting → Nat → State} (h : s.formed κ)
    (hk : ∀ t a q, t.formed κ → (k t a q).formed κ) : (s.routeWord rt n send k).formed κ := by
  refine formed_act (formed_takeDue h) fun a => ?_
  dsimp only
  split
  · exact formed_trap (formed_issue (formed_takeDue h))
  · exact hk _ _ _ (formed_issue (formed_takeDue h))

theorem formed_routeWake {gid w : Nat} {send : Bool} {rt d n : Nat} {vals : List Nat} (h : s.formed κ) :
    (s.routeWake gid w send rt d n vals).formed κ := by
  grind [State.routeWake, formed_routePut, formed_trapWait, formed_unpark, formed_routeTake, formed_giveWords]

end Sys2Proof.Machine
end

section
/-! The form of storage: the operations of Machine/Tenants.lean. -/
namespace Sys2Proof.Machine

variable {κ : Storage} {s : State}

theorem formed_dropLines {part : Nat} (h : s.formed κ) : (s.dropLines part).formed κ := by
  grind [State.dropLines, formed_dropCopies, formed_foldl]

theorem without_formed {a : Array} {part : Nat} (h : a.formed κ) : (a.without part).formed κ := by
  intro e
  obtain ⟨cstore, parked, was⟩ := h e
  unfold Array.without
  split
  · exact ⟨rfl, fun p hp => parked p (mem_assocErase hp), fun _ hw => absurd hw List.not_mem_nil⟩
  · exact ⟨cstore, fun p hp => parked p (mem_assocErase hp), was⟩

theorem scrubCore_formed {part core : Nat} {gs ls : List Nat} {c : Core} (h : c.formed κ) :
    (s.scrubCore part gs ls core c).formed κ := by
  show Core.formed κ (if c.part = some part then s.wipeOutside core c else c)
  split
  · exact wipe_formed h
  · exact h

/-- What a tenant holds is discarded: nothing that stays gets a byte. -/
theorem formed_discard {lease n : Nat} (h : s.formed κ) : (s.discard lease n).formed κ := by
  unfold State.discard
  dsimp only
  generalize hu : State.dropLines _ _ = u
  have dropped : u.formed κ := by
    rw [← hu]
    exact formed_dropLines (formed_same (formed_foldl (fun _ _ ht => formed_ite (formed_foldl (fun _ _ hv =>
      formed_onCore hv fun _ hc => wipe_formed hc) ht) ht) h) rfl)
  exact ⟨{ dropped.stored with
    cores := List.forall_mem_map.mpr fun c hc => scrubCore_formed (dropped.stored.cores c hc)
    quads := List.forall_mem_map.mpr fun q hq => List.forall_mem_map.mpr fun a ha =>
      without_formed (dropped.stored.quads q hq a ha)
    tenants := List.forall_mem_map.mpr fun t ht => dropped.stored.tenants t ht }⟩

theorem formed_discardSaved {lease n : Nat} (h : s.formed κ) : (s.discardSaved lease n).formed κ := by
  grind [State.discardSaved, formed_onTenant, Tenant.formed]

theorem formed_tdispChange {lease n : Nat} (h : s.formed κ) : (s.tdispChange lease n).formed κ := by
  grind [State.tdispChange, formed_iff, State.formed.stored]

theorem formed_descConfigure {lease n : Nat} (h : s.formed κ) : (s.descConfigure lease n).formed κ :=
  formed_onPart h (by exact fun _ ht => ht)

theorem memCanon_rekey {m : Mem} (h : memCanon m = true) (f : Host.Cell → Byte) :
    memCanon ((m.map (fun c => (c.1, f c))).filter (fun c => c.2 != 0)) = true := by
  rw [memCanon_iff] at h ⊢
  exact ⟨fun c hc => bne_iff_ne.mp (List.mem_filter.mp hc).2, (List.pairwise_map (f := fun c : Host.Cell => (c.1, f
    c)).mpr h.2).filter _⟩

theorem formed_rekeyMemory {p : Nat → Bool} {f : Nat → Byte} (h : s.formed κ) : (s.rekeyMemory p f).formed κ :=
  ⟨stored_mem (formed_foldl (fun _ _ ht => formed_dropCopies ht) h).stored (memCanon_rekey · _)⟩

theorem formed_scrubMemory {lease n : Nat} (h : s.formed κ) : (s.scrubMemory lease n).formed κ := by
  grind [State.scrubMemory, formed_rekeyMemory]

theorem formed_descCommit {lease n : Nat} (h : s.formed κ) : (s.descCommit lease n).formed κ := by
  grind [State.descCommit, formed_onTenant, formed_scrubMemory, formed_iff, State.formed.stored, Tenant.formed]

theorem formed_descUncommit {lease n : Nat} (h : s.formed κ) : (s.descUncommit lease n).formed κ := by
  grind [State.descUncommit, formed_onTenant, formed_tdispChange, formed_rekeyMemory, Tenant.formed]

theorem formed_descRun {lease n : Nat} (h : s.formed κ) : (s.descRun lease n).formed κ := by
  grind [State.descRun, formed_onTenant, Tenant.formed]

theorem formed_descPreempt {lease n : Nat} (h : s.formed κ) : (s.descPreempt lease n).formed κ := by
  grind [State.descPreempt, formed_onTenant, formed_tally, Tenant.formed]

theorem formed_latWrite {lease off : Nat} {bs : List Byte} (h : s.formed κ) : (s.latWrite lease off bs).formed κ := by
  grind [State.latWrite, formed_dropCopies, formed_hwPut, formed_foldl]

theorem formed_bumpMap {lease : Nat} (h : s.formed κ) : (s.bumpMap lease).formed κ := by
  grind [State.bumpMap, formed_setLease, formed_latWrite]

theorem formed_homesMoved {lease n : Nat} {old new : List Nat} (h : s.formed κ) :
    (s.homesMoved lease n old new).formed κ := by
  unfold State.homesMoved
  grind [formed_leaveL2, formed_onPart, formed_owe, formed_lapseMonitors, formed_iff, State.formed.stored,
    formed_foldl, Tenant.formed]

theorem formed_breakLeavers {lease n : Nat} (h : s.formed κ) : (s.breakLeavers lease n).formed κ := by
  grind [State.breakLeavers, formed_onPart, Tenant.formed]

theorem formed_applyDraft {lease n : Nat} (h : s.formed κ) : (s.applyDraft lease n).formed κ := by
  unfold State.applyDraft
  split
  · exact h
  · exact formed_breakLeavers (formed_rekeyMemory (formed_homesMoved (formed_onTenant h (by exact fun _ ht => ht))))

theorem formed_reshape {lease n : Nat} (h : s.formed κ) : (s.reshape lease n).2.formed κ := by
  grind [State.reshape, formed_onTenant, formed_tdispChange, formed_bumpMap, formed_applyDraft, Tenant.formed]

theorem formed_descRestore {lease n : Nat} (h : s.formed κ) : (s.descRestore lease n).formed κ := by
  grind [State.descRestore, formed_onTenant, formed_reshape, Tenant.formed]

theorem formed_descHoldOut {lease n : Nat} (h : s.formed κ) : (s.descHoldOut lease n).formed κ := by
  grind [State.descHoldOut, formed_onTenant, Tenant.formed]

theorem formed_descFree {lease n : Nat} (h : s.formed κ) : (s.descFree lease n).formed κ := by
  grind [State.descFree, formed_setTenant, formed_tdispChange, formed_discardSaved, formed_discard,
    formed_scrubMemory, formed_iff, State.formed.stored, Tenant.formed]

theorem formed_descState {lease n v : Nat} (h : s.formed κ) : (s.descState lease n v).formed κ := by
  unfold State.descState
  grind [formed_descPreempt, formed_descUncommit, formed_descFree, formed_descHoldOut, formed_descCommit,
    formed_descConfigure, formed_descRestore, formed_descRun]

theorem formed_writeS2root {lease n v : Nat} (h : s.formed κ) : (s.writeS2root lease n v).formed κ := by
  grind [State.writeS2root, formed_onTenant, formed_dropWalks, formed_dropTlb, Tenant.formed]

theorem formed_writeS1root {lease n v : Nat} (h : s.formed κ) : (s.writeS1root lease n v).formed κ :=
  formed_ite h (formed_dropWalks (formed_dropTlb (formed_setTenant h (by exact tenant_formed h))))

theorem formed_writeQuantum {lease n v : Nat} (h : s.formed κ) : (s.writeQuantum lease n v).formed κ := by
  grind [State.writeQuantum, formed_onTenant, Tenant.formed]

theorem formed_fixBuckets {lease n : Nat} (h : s.formed κ) : (s.fixBuckets lease n).formed κ := by
  grind [State.fixBuckets, formed_setBucket, formed_foldl]

theorem setWord_formed {t : Tenant} {off v : Nat} (h : t.formed κ) : (t.setWord off v).formed κ := by
  have saved : (t.setWord off v).saved = t.saved := by
    unfold Tenant.setWord
    split
    case h_24 => split <;> rfl
    all_goals rfl
  unfold Tenant.formed
  rw [saved]
  exact h

theorem formed_descWord {lease n off v : Nat} (h : s.formed κ) : (s.descWord lease n off v).formed κ :=
  formed_ite (formed_descState h) (formed_ite (formed_writeQuantum h) (formed_ite
    (formed_ite h (formed_onTenant (formed_ite (formed_fixBuckets h) h) fun _ ht => setWord_formed ht))
    (formed_ite (formed_onTenant h fun _ ht => setWord_formed ht)
      (formed_ite (formed_onTenant h (by exact fun _ ht => ht)) h))))

theorem formed_descWrite {lease n off v : Nat} (h : s.formed κ) : (s.descWrite lease n off v).formed κ := by
  grind [State.descWrite, formed_writeS2root, formed_descWord]

theorem formed_writeAttr {lease n i v : Nat} (h : s.formed κ) : (s.writeAttr lease n i v).formed κ :=
  formed_ite (formed_onTenant h (by exact fun _ ht => ht)) (formed_ite h (formed_onPart (formed_dropTlb
    (formed_lapseMonitors
    (formed_foldl (fun _ _ ht => formed_dropCopies ht) (formed_accesses (formed_fillsPass (formed_foldl
      (fun _ _ ht => formed_publishPins ht) (formed_foldl (fun _ _ ht => formed_combine ht) h)))))))
    (by exact fun _ ht => ht)))

end Sys2Proof.Machine
end

section
/-! The form of storage: the operations of Machine/GangEvents.lean. -/
namespace Sys2Proof.Machine

variable {κ : Storage} {s : State}

theorem formed_beginTeam {team : Nat} (h : s.formed κ) : (s.beginTeam team).formed κ := by
  grind [State.beginTeam, formed_onTeam]

theorem formed_fetchTouch {c : Ctx} {x : Xlat} {n : Nat} {t : State} (h : s.formed κ) (e : s.fetchTouch c x n = some t) :
    t.formed κ := by
  unfold State.fetchTouch at e
  split at e
  · cases e
    exact h
  · refine List.foldlRecOn (motive := fun r : Option State => ∀ t, r = some t → t.formed κ) _ _ ?_ ?_ t e
    · intro t e
      cases e
      exact h
    · intro r hr line _ t e
      obtain ⟨u, hu, e⟩ := Option.bind_eq_some_iff.mp e
      split at e
      · exact formed_touchL2 (hr u hu) e
      · cases e

theorem formed_nextPage {l : Nat} {c : Ctx} {addr n : Nat} {x : Xlat} (h : s.formed κ) :
    (s.nextPage l c addr n x).1.formed κ := by
  unfold State.nextPage
  split
  · exact h
  · rename_i i _
    have page : (s.xlate (64 + l) c (addr + 4 + 4 * i) 2 false).1.formed κ := formed_xlate h
    split <;> (rename_i e; rw [e] at page; exact page)

theorem formed_fetchClause {team l : Nat} {c : Ctx} {addr : Nat} (h : s.formed κ) :
    (s.fetchClause team l c addr).1.formed κ := by
  unfold State.fetchClause
  split
  · exact h
  · have header : (s.xlate l c addr 2 false).1.formed κ := formed_xlate h
    generalize s.xlate l c addr 2 false = r at header ⊢
    obtain ⟨u, e | x⟩ := r
    · exact header
    · dsimp only at header ⊢
      split
      · exact header
      · rename_i v hv
        have touched := formed_fetchTouch header hv
        rw [word_state]
        split
        · exact touched
        · generalize (Fetched.word { s := v } team x.pa (v.reads0 x)).words.headD 0 = w
          have page : (v.nextPage l c addr (bits w 3 0) x).1.formed κ := formed_nextPage touched
          split
          · rename_i u f hu
            rwa [show v.nextPage l c addr (bits w 3 0) x = _ from hu] at page
          · rename_i u i y hu
            rw [show v.nextPage l c addr (bits w 3 0) x = _ from hu] at page
            split
            · exact page
            · rename_i z hz
              obtain ⟨z', first, second⟩ := Option.bind_eq_some_iff.mp hz
              have both : z.formed κ := by
                have one := formed_fetchTouch page first
                split at second
                · exact formed_fetchTouch one second
                · cases second
                  exact one
              split <;> exact (congrArg (State.formed κ) (foldl_reads Fetched.s (fun r j => word_state ..) _ _)).mpr both

theorem formed_startCohort {gid : Nat} {g : Gang} {m : Mask} {pc : Pc} {rep : Nat} (h : s.formed κ) :
    (s.startCohort gid g m pc rep).formed κ := by
  unfold State.startCohort
  split <;> grind [formed_trapLanes, formed_fetchClause, formed_beginTeam, formed_onGang, formed_iff, State.formed.stored]

theorem formed_deliverEach {gid : Nat} {m : Mask} (h : s.formed κ) : (s.deliverEach gid m).formed κ := by
  grind [State.deliverEach, formed_deliver, formed_foldl]

theorem formed_swap {gid i : Nat} {p : Gang → Bool} {f : Gang → Gang} (h : s.formed κ) : (s.swap gid i p f).formed κ := by
  grind [State.swap, formed_tally, formed_setGang]

end Sys2Proof.Machine
end

section
/-! The form of storage: the operations of Machine/MemEvents.lean. -/
namespace Sys2Proof.Machine

variable {κ : Storage} {s : State}

theorem formed_afterJoin {x : Access} {old : Nat} (h : s.formed κ) : (s.afterJoin x old).formed κ := by
  grind [State.afterJoin, formed_joinAppend, formed_iff, State.formed.stored]

theorem formed_readError {id : Nat} {x : Access} (h : s.formed κ) : (s.readError id x).formed κ := by
  grind [State.readError, formed_hwHalt, formed_dropAccess, formed_machineError]

theorem formed_joined {id : Nat} {x : Access} (h : s.formed κ) : (s.joined id x).formed κ := by
  grind [State.joined, formed_afterJoin]

theorem formed_arrive {id : Nat} {p : Access → Bool} (h : s.formed κ) : (s.arrive id p).formed κ := by
  grind [State.arrive, formed_joined, formed_serve, formed_failAccess, formed_readError]

theorem formed_withAccess {id : Nat} {f : Access → State} (h : s.formed κ) (hf : ∀ x, (f x).formed κ) :
    (s.withAccess id f).formed κ := by
  unfold State.withAccess
  split
  · exact h
  · exact hf _

theorem formed_coreRetry {id : Nat} (h : s.formed κ) : (s.coreRetry id).formed κ := by
  grind [State.coreRetry, formed_withAccess, formed_leaveCore]

theorem formed_fillTokens {page : Nat} {t : State} (h : s.formed κ) (e : s.fillTokens page = some t) : t.formed κ := by
  grind [State.fillTokens, formed_setBucket]

theorem formed_failHost {id : Nat} {x : Access} (h : s.formed κ) : (s.failHost id x).formed κ := by
  grind [State.failHost, formed_failAccess]

theorem formed_completeHost {id : Nat} {x : Access} (h : s.formed κ) : (s.completeHost id x).formed κ := by
  have taken : (s.takeSyncs x (s.syncsAt x)).formed κ := formed_takeSyncs h
  have ended : ∀ {u : State} {vs : List Word}, u.formed κ →
      ((((u.supply x.gang x.dst vs).decided id x).dropAccess id).afterRelease x).formed κ :=
    fun hu => formed_afterRelease (formed_dropAccess (formed_decided (formed_supply hu)))
  unfold State.completeHost
  dsimp only
  generalize x.effect (memRead s.host x.pa x.size) = r
  obtain ⟨nb, ret⟩ := r
  cases nb with
  | none => exact formed_ite (formed_afterJoin (ended taken)) (ended taken)
  | some bs =>
    have wrote : (State.writeSync { (s.takeSyncs x (s.syncsAt x)) with host := memWrite s.host x.pa bs } x).formed κ :=
      formed_writeSync ⟨{ taken.stored with host := fun e => memCanon_memWrite (h.stored.host e) _ _ }⟩
    exact formed_ite (formed_afterJoin (ended wrote)) (ended wrote)

end Sys2Proof.Machine
end

section
/-! The form of storage: the operations of Machine/ConfigSpace.lean. -/
namespace Sys2Proof.Machine

variable {κ : Storage} {s : State}

theorem formed_writeFbHead {r : FbRef} {v : Nat} (h : s.formed κ) : (s.writeFbHead r v).formed κ := by
  grind [State.writeFbHead, formed_setFb, formed_postHeld]

theorem formed_writeFbCtl {r : FbRef} {v : Nat} (h : s.formed κ) : (s.writeFbCtl r v).formed κ := by
  grind [State.writeFbCtl, formed_setFb]

theorem formed_answerPage {gid w action cause synd va : Nat} (h : s.formed κ) :
    (s.answerPage gid w action cause synd va).formed κ := by
  grind [State.answerPage, formed_hwHalt, formed_unpark, formed_enterFrame]

theorem formed_takeAnswer {gid w action cause synd va : Nat} (h : s.formed κ) :
    (s.takeAnswer gid w action cause synd va).formed κ := by
  grind [State.takeAnswer, formed_answerPage, formed_onGang]

theorem formed_answerHw {d : Dom} {a : HwAccess} {retry : Bool} (h : s.formed κ) : (s.answerHw d a retry).formed κ := by
  unfold State.answerHw
  grind [formed_onTenant, formed_abandonHw, formed_retryHw, Tenant.formed]

theorem formed_respond {r : FbRef} {v : Nat} (h : s.formed κ) : (s.respond r v).formed κ := by
  grind [State.respond, formed_setFb, formed_answerHw, formed_takeAnswer]

theorem formed_writeFb {r : FbRef} {off v : Nat} (h : s.formed κ) : (s.writeFb r off v).formed κ := by
  unfold State.writeFb
  grind [formed_setFb, formed_writeFbCtl, formed_writeFbHead, formed_respond, formed_iff, State.formed.stored]

theorem formed_writeQueue {d : Dom} {q off v : Nat} {vc : Clock} (h : s.formed κ) :
    (s.writeQueue d q off v vc).formed κ := by
  unfold State.writeQueue
  grind [formed_append, formed_queueClear, formed_queueCtl, formed_queueBase]

theorem formed_cfgWrite {lease : Nat} {own : Option Nat} {off v : Nat} {vc : Clock} (h : s.formed κ) :
    (s.cfgWrite lease own off v vc).formed κ := by
  unfold State.cfgWrite
  split
  · exact h
  · exact formed_ite h (formed_ite (formed_ite (formed_writeFb h) h) (formed_ite (formed_ite (formed_writeQueue h) h)
      (formed_ite h (formed_ite (formed_ite (formed_descWrite h) h) (formed_ite h (formed_ite
        (formed_ite (formed_writeFb h) h) (formed_ite h (formed_ite
          (formed_ite h (formed_ite (formed_writeAttr h) (formed_ite (formed_writeS1root h) h))) (formed_ite h (formed_ite
            (formed_ite (formed_routeWrite h) h) (formed_ite
              (formed_ite (formed_onQuad h (by exact fun _ hq => hq)) h) (formed_ite
                (formed_ite (formed_writeQueue h) h) h))))))))))))

theorem formed_barWrite {port vfn off v : Nat} (h : s.formed κ) : (s.barWrite port vfn off v).formed κ := by
  grind [State.barWrite, formed_writeQueue, formed_writeFb]

end Sys2Proof.Machine
end

section
/-! The form of storage: the operations of Machine/TenantEvents.lean. -/
namespace Sys2Proof.Machine

variable {κ : Storage} {s : State}

theorem formed_descStep {lease n : Nat} {states : List Nat} {k : State → State} (h : s.formed κ)
    (hk : ∀ t, t.formed κ → (k t).formed κ) : (s.descStep lease n states k).formed κ :=
  formed_ite (hk s h) h

theorem formed_registerWrite {who : Writer} {offset value : Nat} (h : s.formed κ) :
    (s.registerWrite who offset value).formed κ := by
  unfold State.registerWrite
  grind [formed_cfgWrite, formed_barWrite]

theorem formed_stopCohort {gid cid : Nat} (h : s.formed κ) : (s.stopCohort gid cid).formed κ := by
  grind [State.stopCohort, formed_leave, formed_goOn, formed_setPcs, formed_asCohort, formed_act]

theorem formed_stopLanes {part : Nat} (h : s.formed κ) : (s.stopLanes part).formed κ := by
  grind [State.stopLanes, formed_stopCohort, formed_lapseMonitors, formed_publishPins, formed_foldl]

theorem formed_saveTeam {id : Nat} {t : Team} (h : s.formed κ) : (s.saveTeam id t).formed κ :=
  formed_foldl (fun _ _ hu => formed_onCore hu fun _ hc => wipe_formed hc) (formed_setTeam h)

/-- What a partition holds of a quad is saved: its tiles in every array. -/
theorem formed_saveQuad {part : Nat} {d : Dom} {q : Nat} (h : s.formed κ) : (s.saveQuad part d q).formed κ := by
  refine formed_onPart (formed_onQuad (formed_foldl (fun _ _ ht => formed_onCore ht (by exact fun _ hc => hc)) h)
    fun x hx => ?_) fun t ht => tenant_saved (forall_assocSet ht q ?_)
  · exact List.forall_mem_map.mpr fun a ha => without_formed (hx a ha)
  · exact List.forall_mem_map.mpr fun a ha e =>
      ⟨tiles_canon (quad_formed h a ha e) part, fun _ hp => absurd hp List.not_mem_nil, fun _ hw => absurd hw
        List.not_mem_nil⟩

theorem formed_vacate {part : Nat} {d : Dom} {q : Nat} (h : s.formed κ) : (s.vacate part d q).formed κ := by
  grind [State.vacate, formed_saveTeam, formed_saveQuad, formed_foldl]

theorem formed_restoreAll {lease n : Nat} (h : s.formed κ) : (s.restoreAll lease n).formed κ := by
  grind [State.restoreAll, formed_returnQuads]

theorem formed_resume {lease n : Nat} (h : s.formed κ) : (s.resume lease n).formed κ := by
  grind [State.resume, formed_onTenant, formed_answerHw, formed_foldl, Tenant.formed]

end Sys2Proof.Machine
end

section
/-! The form of storage: the operations of Machine/PlatformEvents.lean. -/
namespace Sys2Proof.Machine

variable {κ : Storage} {s : State}

theorem formed_settlePart {part : Nat} (h : s.formed κ) : (s.settlePart part).formed κ := by
  grind [State.settlePart, formed_combine, formed_lapseMonitors, formed_publishPins, formed_foldl]

theorem formed_haltUnplaced {lease : Nat} {tenant : Option Nat} {part : Nat} {ids : List Nat} (h : s.formed κ) :
    (s.haltUnplaced lease tenant part ids).formed κ := by
  grind [State.haltUnplaced, formed_haltEntry, formed_onTeam, formed_stopTeam, formed_foldl]

theorem formed_dropQuadCaches {q : Nat} (h : s.formed κ) : (s.dropQuadCaches q).formed κ := by
  grind [State.dropQuadCaches, formed_combineCores, formed_spliceOut, formed_onCore, formed_foldl, Core.formed]

theorem formed_followGangs (h : s.formed κ) : (s.followGangs).formed κ := by
  grind [State.followGangs, formed_iff, State.formed.stored]

theorem formed_moveOff {d : Dom} {part : Nat} {voids : List Nat} (h : s.formed κ) :
    (s.moveOff d part voids).formed κ := by
  grind [State.moveOff, formed_returnCluster, formed_onPart, formed_returnLone, formed_followGangs, formed_vacate,
    formed_foldl, Tenant.formed]

theorem formed_rebase {quad : Nat} {f : Quad → Quad} (h : s.formed κ) (hf : ∀ x : Quad, x.formed κ → (f x).formed κ) :
    (s.rebase quad f).formed κ :=
  formed_onQuad h fun x hx => by exact hf x hx

theorem formed_movePlatform {f : Nat} {old new : List Nat} (h : s.formed κ) : (s.movePlatform f old new).formed κ :=
  formed_foldl (fun _ _ ht => formed_ite ht (formed_rebase ht (by exact fun _ hx => hx))) h

theorem formed_breakRoutes {p : Lease → Route → Option Nat} (h : s.formed κ) : (s.breakRoutes p).formed κ := by
  refine formed_mapTenants h fun t ht => ?_
  split
  · exact ht
  · exact ht

theorem formed_fixEngines (h : s.formed κ) : s.fixEngines.formed κ :=
  formed_foldl (fun _ _ ht => formed_onQuad ht (by exact fun _ hq => hq)) (formed_mapQuads h (by exact fun _ hq => hq))

theorem formed_installMap {f : Nat} {x : Field} (h : s.formed κ) : (s.installMap f x).formed κ := by
  refine formed_fixEngines (formed_breakRoutes (formed_foldl (fun _ _ ht => formed_homesMoved ht) (formed_foldl
    (fun t l ht => ?_) (formed_foldl (fun _ _ ht => formed_dropQuadCaches ht) (formed_foldl (fun _ _ ht =>
      formed_powerOn ht)
    (formed_foldl (fun _ _ ht => formed_moveOff ht) (formed_foldl (fun _ _ ht => formed_moveOff ht) (formed_movePlatform
    (formed_same (formed_foldl (fun _ _ ht => formed_settlePart ht) (formed_foldl (fun _ _ ht =>
      formed_onTenant (formed_settlePart ht) (by exact fun _ hx => hx)) h)) rfl)))))))))
  dsimp only
  split
  · exact formed_setLease (formed_bumpMap ht)
  · exact formed_bumpMap ht

theorem formed_retireQuad {f p : Nat} (h : s.formed κ) : (s.retireQuad f p).formed κ := by
  grind [State.retireQuad, formed_installMap, formed_iff, State.formed.stored]

theorem formed_retireOrphans {n : Nat} (h : s.formed κ) : (s.retireOrphans n).formed κ := by
  induction n generalizing s with
  | zero => exact h
  | succ n ih =>
    unfold State.retireOrphans
    split
    · exact h
    · exact ih (formed_retireQuad h)

theorem formed_oneChange {u : State} (hu : u.formed κ) : (s.oneChange u).formed κ :=
  formed_foldl (fun _ _ ht => formed_haltUnplaced ht) (formed_same hu rfl)

theorem formed_retireFailed (h : s.formed κ) : (s.retireFailed).formed κ := by
  grind [State.retireFailed, formed_retireQuad, formed_oneChange, formed_retireOrphans, formed_foldl]

theorem formed_quiesceStop (h : s.formed κ) : (s.quiesceStop).formed κ := by
  grind [State.quiesceStop, formed_onTenant, formed_iff, State.formed.stored, formed_foldl, Tenant.formed]

theorem formed_goOnAfter {lease n : Nat} (h : s.formed κ) : (s.goOnAfter lease n).formed κ := by
  grind [State.goOnAfter, formed_onTenant, formed_raiseViews, formed_answerHw, formed_foldl, Tenant.formed]

theorem formed_quiesceEnd (h : s.formed κ) : s.quiesceEnd.formed κ :=
  formed_foldl (fun _ _ ht => formed_goOnAfter ht)
    (formed_same (formed_retireFailed (formed_foldl (fun _ _ ht => formed_stopLanes ht) h)) rfl)

theorem formed_failQuad {f p : Nat} (h : s.formed κ) : (s.failQuad f p).formed κ := by
  grind [State.failQuad, formed_quiesceStop, formed_iff, State.formed.stored]

theorem formed_latRelease {lease : Nat} {l : Lease} (h : s.formed κ) : (s.latRelease lease l).formed κ := by
  grind [State.latRelease, formed_fireMonitors, formed_iff, State.formed.stored]

theorem formed_linkHealth {link j : Nat} (h : s.formed κ) : (s.linkHealth link j).formed κ := by
  grind [State.linkHealth, formed_setLease, formed_foldl]

theorem formed_reroute {link : Nat} (h : s.formed κ) : (s.reroute link).formed κ := by
  grind [State.reroute, formed_iff, State.formed.stored]

theorem formed_killLink {link : Nat} (h : s.formed κ) : (s.killLink link).formed κ := by
  grind [State.killLink, formed_post, formed_reroute, formed_breakRoutes, formed_linkHealth, formed_iff,
    State.formed.stored]

theorem formed_tdispAnswer {port vfn : Nat} {ok : Bool} {new : Nat} (h : s.formed κ) :
    (s.tdispAnswer port vfn ok new).formed κ := by
  grind [State.tdispAnswer, formed_iff, State.formed.stored]

theorem formed_l1Failure {core line : Nat} (h : s.formed κ) : (s.l1Failure core line).formed κ := by
  grind [State.l1Failure, formed_laneError, formed_machineError, formed_onCore, Core.formed]

theorem formed_l2Failure {line : Nat} (h : s.formed κ) : (s.l2Failure line).formed κ := by
  grind [State.l2Failure, formed_leaveL2, formed_machineError, formed_iff, State.formed.stored]

theorem formed_upset {quad u : Nat} (h : s.formed κ) : (s.upset quad u).formed κ := by
  unfold State.upset
  dsimp only
  split
  · exact formed_machineError h
  · exact formed_onArray h (by exact fun _ ha => ha)
  · exact formed_onArray h (by exact fun _ ha => ha)
  · exact formed_countAt h
  · exact formed_onCore h (by exact fun _ hc => hc)
  · exact formed_onCore h (by exact fun _ hc => hc)
  · exact formed_onArray h (by exact fun _ ha => ha)
  · exact formed_same h rfl
  · exact formed_l1Failure h
  · exact formed_l2Failure h
  · exact h

end Sys2Proof.Machine
end

section
/-! The form of storage: the operations of Machine/System.lean. -/
namespace Sys2Proof.Machine

variable {κ : Storage} {s : State}

theorem formed_setVector {t : Team} {level v : Nat} {high : Bool} (h : s.formed κ) :
    (s.setVector t level v high).formed κ := by
  unfold State.setVector
  grind [formed_onTenant, formed_setLease, formed_iff, State.formed.stored, Tenant.formed]

theorem formed_setHostmask {t : Team} {level v : Nat} (h : s.formed κ) : (s.setHostmask t level v).formed κ := by
  unfold State.setHostmask
  grind [formed_onTenant, formed_setLease, Tenant.formed]

theorem formed_onFrame {gid l : Nat} {f : Frame → Frame} (h : s.formed κ) : (s.onFrame gid l f).formed κ := by
  grind [State.onFrame, formed_onGang]

theorem formed_setSysReg {a : Acting} {l n v : Nat} (h : s.formed κ) : (s.setSysReg a l n v).formed κ := by
  unfold State.setSysReg
  dsimp only
  split
  · exact formed_onFrame h
  · exact formed_onFrame h
  · exact formed_setVector h
  · exact formed_setVector h
  · split
    · split
      · exact formed_onCore h (by exact fun _ hc => hc)
      · exact h
    · exact h
  · exact formed_onPart h (by exact fun _ ht => ht)
  · exact formed_onFrame h
  · exact formed_setHostmask h
  · exact formed_ite (formed_onFrame h) h

theorem formed_privileged {k : Acting → State} (h : s.formed κ) (hk : ∀ a, (k a).formed κ) : (s.privileged k).formed κ :=
  formed_act h fun a => formed_ite (formed_trapWord h) (hk a)

theorem formed_cfgLane {x : Acting} {l off v : Nat} (h : s.formed κ) : (s.cfgLane x l off v).formed κ := by
  grind [State.cfgLane, formed_releaseLanes, formed_cfgWrite, formed_releasePins, formed_iff, State.formed.stored]

theorem formed_cfgwWord {a b : Fin 128} (h : s.formed κ) : (s.cfgwWord a b).formed κ := by
  grind [State.cfgwWord, formed_issue, formed_trapEach, formed_finish, formed_cfgLane, formed_act, formed_foldl]

theorem formed_tlbi {form : Nat} {addr tenant : Acting → Nat → Nat} (h : s.formed κ) :
    (s.tlbi form addr tenant).formed κ := by
  grind [State.tlbi, formed_dropWalks, formed_trapWord, formed_issue, formed_finish, formed_dropTlb,
    formed_privileged, formed_onCohort, formed_foldl]

theorem formed_eretLane {a : Acting} {l : Nat} (h : s.formed κ) : (s.eretLane a l).formed κ := by
  grind [State.eretLane, formed_leave, formed_onGang]

theorem formed_haltTeams {lease : Nat} {tenant : Option Nat} {lvl code : Nat} {teams : List (Nat × Team)} (h :
    s.formed κ) : (s.haltTeams lease tenant lvl code teams).formed κ := by
  unfold State.haltTeams
  grind [formed_haltEntry, formed_stopTeam, formed_foldl]

theorem formed_haltLaunches {lease n : Nat} (h : s.formed κ) : (s.haltLaunches lease n).formed κ := by
  grind [State.haltLaunches, formed_endBlock, formed_iff, State.formed.stored, formed_foldl]

theorem formed_haltTenantNow {lease n lvl code : Nat} (h : s.formed κ) : (s.haltTenantNow lease n lvl code).formed κ := by
  grind [State.haltTenantNow, formed_haltTeams, formed_haltLaunches]

end Sys2Proof.Machine
end

section
/-! The form of storage: the operations of Machine/Agents.lean. -/
namespace Sys2Proof.Machine

variable {κ : Storage} {s : State}

theorem formed_wakeUp {gid w : Nat} (h : s.formed κ) : (s.wakeUp gid w).formed κ := by
  grind [State.wakeUp, formed_rehold, formed_routeWake, formed_mwaitWake, formed_roundWake, formed_unpark,
    formed_enterFrame, formed_answerPage, formed_semWake, formed_fenceWake]

theorem formed_queueUp {gid cid : Nat} (h : s.formed κ) : (s.queueUp gid cid).formed κ := by
  grind [State.queueUp, formed_onGang]

theorem formed_issuedAt {gid : Nat} {old : Gang} {c : Cohort} {n : Nat} (h : s.formed κ) :
    (s.issuedAt gid old c n).formed κ := by
  grind [State.issuedAt, formed_setGang, formed_onCore, formed_foldl, Core.formed]

theorem formed_passTime (h : s.formed κ) : (s.passTime).formed κ := by
  grind [State.passTime, formed_iff, State.formed.stored, formed_foldl]

end Sys2Proof.Machine
end

section
/-! The form of storage: words and steps whose effect is written out in their meaning. -/
namespace Sys2Proof.Machine

variable {κ : Storage} {s : State}

/-! ### Answers -/

/-- A next state keeps its form; a fault or a refusal leaves none. -/
def answerFormed (κ : Storage) : Host.Outcome State Fault Refusal → Prop
  | .next t => t.formed κ
  | .fault _ => True
  | .refused _ => True

/-- What a word goes on with, in a word that has no other answer. -/
theorem formed_answer {o : Host.Outcome State Fault Refusal} (h : s.formed κ) (ho : answerFormed κ o) :
    (match o with
     | .next t => t
     | _ => s).formed κ := by
  cases o with
  | next => exact ho
  | fault => exact h
  | refused => exact h

theorem formed_guard {p : Prop} [Decidable p] {f : Fault} {o : Host.Outcome State Fault Refusal} (ho : answerFormed κ o) :
    answerFormed κ (if p then .fault f else o) := by
  split
  · trivial
  · exact ho

theorem formed_fst {α : Type} {p : State × α} {t : State} {y : α} (hp : p.1.formed κ) (e : p = (t, y)) : t.formed κ := by
  rw [e] at hp
  exact hp

/-- The same as `formed_foldl_fst`, of what each element answers. -/
theorem formed_foldl_eq {α β : Type} {f : State × β → α → State × β} {y : β} {xs : List α}
    (hf : ∀ t y x u z, t.formed κ → f (t, y) x = (u, z) → u.formed κ) (h : s.formed κ) :
    (xs.foldl f (s, y)).1.formed κ :=
  formed_foldl_fst (r := (s, y)) (fun r x hr => hf r.1 r.2 x _ _ hr rfl) h

theorem formed_preciseWord {g : GWord} (h : s.formed κ) : answerFormed κ (s.preciseWord g) := by
  refine formed_guard (formed_act h fun a => formed_act ?_ fun b => formed_ite (formed_settleHold ?_) (formed_finish ?_))
  all_goals
    refine formed_trapEach (formed_foldl_fst (fun r l hr => ?_) (formed_issue h))
    have checked : (r.1.checkLane a g l).1.formed κ := formed_checkLane hr
    split <;> (rename_i e; rw [e] at checked)
    · exact checked
    · rename_i u x
      have begun : (u.beginPrecise a g l x).1.formed κ := formed_beginPrecise checked
      split <;> (rename_i e; rw [e] at begun; exact begun)

theorem formed_imprecise {g : GWord} (h : s.formed κ) : answerFormed κ (s.imprecise g) := by
  refine formed_guard (formed_storeWord h fun t a ls ht => formed_foldl (fun _ _ hu => formed_sendLate hu)
    (formed_foldl_fst (fun r l hr => ?_) ht))
  have checked : (r.1.checkLane a g l).1.formed κ := formed_checkLane hr
  split <;> (rename_i e; rw [e] at checked)
  · exact formed_failStore checked
  · exact checked

theorem formed_atom {fn : Nat} {o sc : Fin 4} {d a b : Fin 128} (h : s.formed κ) :
    answerFormed κ (s.atom fn o sc d a b) := by
  unfold State.atom
  dsimp only
  split
  · exact formed_guard (formed_atRelease (formed_beginWord h) fun t ht => formed_answer ht (formed_preciseWord ht))
  · exact formed_preciseWord h

theorem formed_red {i : Nat} {o sc : Fin 4} {a b : Fin 128} (h : s.formed κ) : answerFormed κ (s.red i o sc a b) := by
  unfold State.red
  dsimp only
  split
  · exact formed_guard (formed_atRelease (formed_beginWord h) fun t ht => formed_answer ht (formed_imprecise ht))
  · exact formed_imprecise h

theorem formed_sacc {float : Bool} {a b : Fin 128} (h : s.formed κ) : answerFormed κ (s.sacc float a b) := by
  refine formed_guard (formed_storeWord h fun t x ls ht => formed_foldl (fun u l hu => ?_) ht)
  split <;> rename_i e <;> have checked := formed_fst (formed_checkLane hu) e
  · exact formed_failStore checked
  · exact formed_ite (formed_failStore checked)
      (formed_ite (formed_ite (formed_sendLate checked) (formed_addPartial checked)) (formed_sendLate checked))

theorem formed_copyWord {op : Nat} {d : Fin 128} {x : Option Nat} (h : s.formed κ) : answerFormed κ (s.copyWord op d x) :=
  formed_atRelease (formed_beginWord (formed_takeDue h)) fun _ ht => formed_cmdWord ht

theorem formed_execSreg {d : Fin 128} {i : Fin 2048} (h : s.formed κ) : answerFormed κ (execSreg d i s) := by
  unfold execSreg
  grind [answerFormed, formed_laneValue, formed_act, formed_onGang, formed_iff, State.formed.stored]

theorem formed_execSregw {a : Fin 128} {i : Fin 2048} (h : s.formed κ) : answerFormed κ (execSregw a i s) := by
  unfold execSregw
  grind [answerFormed, formed_issue, formed_finish, formed_act, formed_onGang, formed_iff, State.formed.stored]

theorem formed_execCall {a : Fin 128} {o : Fin 262144} (h : s.formed κ) : answerFormed κ (execCall a o s) := by
  unfold execCall
  grind [answerFormed, formed_issue, formed_linkNow, formed_transfer, formed_act, formed_iff, State.formed.stored,
    formed_foldl]

theorem formed_execJpush (h : s.formed κ) : answerFormed κ (execJpush s) := by
  refine formed_act h fun a => ?_
  split
  · exact formed_spillTrap (formed_issue h)
  · rename_i e
    exact formed_finish (formed_commitStack (formed_pushEntry (formed_issue h) e))

theorem bind_eq_ok {α β : Type} {x : Except SpillFault α} {f : α → Except SpillFault β} {y : β} (e : x.bind f = .ok y) :
    ∃ v, x = .ok v ∧ f v = .ok y := by
  cases x with
  | error => cases e
  | ok v => exact ⟨v, rfl, e⟩

theorem formed_execJwait (h : s.formed κ) : answerFormed κ (execJwait s) := by
  refine formed_act h fun a => ?_
  split
  all_goals
    split
    · exact formed_spillTrap (formed_issue h)
    · rename_i e
      obtain ⟨t, through, settled⟩ := bind_eq_ok e
      exact formed_finish (formed_commitStack (formed_onGang (formed_setPcs (formed_leave
        (formed_settle (formed_writeThrough (formed_issue h) through) settled)))))

theorem formed_execJdrop {k : Fin 64} (h : s.formed κ) : answerFormed κ (execJdrop k s) := by
  refine formed_act h fun a => ?_
  split
  · exact formed_spillTrap (formed_issue h)
  · rename_i dropped
    split
    · exact formed_spillTrap (formed_issue h)
    · rename_i settled
      exact formed_finish (formed_commitStack (formed_settle (formed_dropFrom (formed_issue h) dropped) settled))

theorem formed_execJdepth {d : Fin 128} (h : s.formed κ) : answerFormed κ (execJdepth d s) := by
  unfold execJdepth
  grind [answerFormed, formed_issue, formed_finish, formed_act, formed_onGang, formed_iff, State.formed.stored,
    formed_foldl]

theorem formed_execBar (h : s.formed κ) : answerFormed κ (execBar s) :=
  formed_atRelease (formed_takeDue h) fun _ ht => formed_act ht fun _ => formed_barrier (formed_onGang (formed_setPcs
    (formed_endCohort (formed_onTeam (formed_releaseLanes (formed_issue ht))))))

theorem formed_execRefill {d : Fin 128} (h : s.formed κ) : answerFormed κ (execRefill d s) :=
  formed_act h fun _ => formed_ite h (formed_ite
    (formed_finish (formed_park (formed_setPcs (formed_leave (formed_takeItems (formed_issue (formed_deliver
      (formed_leave h))))))))
    (formed_finish (formed_exitLanes (formed_leave (formed_takeItems (formed_issue (formed_deliver (formed_leave h))))))))

theorem formed_execTrapv {c : Fin 262144} (h : s.formed κ) : answerFormed κ (execTrapv c s) := by
  unfold execTrapv
  grind [answerFormed, formed_issue, formed_act, formed_trap, formed_iff, State.formed.stored]

theorem formed_execYield (h : s.formed κ) : answerFormed κ (execYield s) := by
  unfold execYield
  grind [answerFormed, formed_issue, formed_finish, formed_act, formed_onGang, formed_iff, State.formed.stored]

theorem formed_execNop (h : s.formed κ) : answerFormed κ (execNop s) := by
  unfold execNop
  grind [answerFormed, formed_issue, formed_finish, formed_iff, State.formed.stored]

theorem formed_execRep {c : Fin 64} {x y z : Fin 4} (h : s.formed κ) : answerFormed κ (execRep c x y z s) := by
  unfold execRep
  grind [answerFormed, formed_trapWord, formed_issue, formed_setPcs, formed_act, formed_onCohort, formed_iff,
    State.formed.stored]

theorem formed_execRadv {d : Fin 128} {k : Fin 32} (h : s.formed κ) : answerFormed κ (execRadv d k s) := by
  refine formed_atRelease h fun t ht => formed_act ht fun a => ?_
  have released : (((t.issue.releaseLanes a.gid a.co.mask).2).releasePins a.gang.team a.gang.core 2
      (t.leadClock a.gid a.co.mask)).formed κ := formed_releasePins (formed_releaseLanes (formed_issue ht))
  exact formed_ite (formed_trap released) (formed_finish (formed_foldl (fun _ _ hu => formed_pendLane hu)
    (formed_obtainRound (formed_onPart released (by exact fun _ hx => hx)))))

theorem formed_execRacq {d va : Fin 128} {k : Fin 32} (h : s.formed κ) : answerFormed κ (execRacq d va k s) := by
  unfold execRacq
  grind [answerFormed, formed_issue, formed_roundEffect, formed_finish, formed_parkAt, formed_act, formed_iff,
    State.formed.stored, formed_foldl]

theorem formed_execMon {va : Fin 128} (h : s.formed κ) : answerFormed κ (execMon va s) := by
  unfold execMon
  dsimp only
  split
  · trivial
  · refine formed_act h fun a => formed_ite h (formed_ite (formed_onCohort ?_) (formed_finish (formed_trapEach
    (formed_issue ?_))))
    all_goals
      refine formed_foldl (fun t p ht => ?_) (formed_foldl_fst (fun _ _ ht => formed_monCheck ht) h)
      obtain ⟨l, v, e | y⟩ := p
      · exact ht
      · exact formed_ite ht (formed_armMonitor ht)

theorem formed_execMunarm (h : s.formed κ) : answerFormed κ (execMunarm s) := by
  unfold execMunarm
  grind [answerFormed, formed_issue, formed_finish, formed_act, formed_unarm, formed_iff, State.formed.stored,
    formed_foldl]

theorem formed_execCinv {va : Fin 128} (h : s.formed κ) : answerFormed κ (execCinv va s) := by
  unfold execCinv
  grind [answerFormed, formed_cacheWord, formed_combineCores, formed_spliceOut, formed_iff, State.formed.stored]

theorem formed_execPfetch {va : Fin 128} (h : s.formed κ) : answerFormed κ (execPfetch va s) := by
  unfold execPfetch
  grind [answerFormed, formed_sendCache, formed_cacheWord, formed_iff, State.formed.stored]

theorem formed_execPfl2 {va : Fin 128} (h : s.formed κ) : answerFormed κ (execPfl2 va s) := by
  unfold execPfl2
  grind [answerFormed, formed_sendCache, formed_cacheWord, formed_iff, State.formed.stored]

theorem formed_execPdisc {d va : Fin 128} (h : s.formed κ) : answerFormed κ (execPdisc d va s) := by
  refine formed_act h fun a => formed_ite h (formed_finish (formed_trapEach (formed_foldl_eq (fun t y l u z ht e => ?_)
    (formed_issue h))))
  extract_lets v at e
  clear_value v
  split at e
  · exact (Prod.mk.inj e).1 ▸ ht
  · have walked : (t.walkNow a.ctx v 1 false).1.formed κ := formed_walkNow ht
    split at e <;> (rename_i ew; rw [ew] at walked)
    · exact (Prod.mk.inj e).1 ▸ formed_migrateHint walked
    · split at e
      · exact (Prod.mk.inj e).1 ▸ walked
      · exact (Prod.mk.inj e).1 ▸ formed_pendLane (formed_discardPage (formed_markLeaves walked))

theorem formed_execSinc {n b : Fin 128} (h : s.formed κ) : answerFormed κ (execSinc n b s) :=
  formed_semWord h fun _ _ _ ht => formed_ite (formed_trap (formed_issue ht)) (formed_atRelease ht fun _ hu =>
    formed_act hu fun _ => formed_ite (formed_trap (formed_issue hu))
      (formed_finish (formed_setSem (formed_releasePins (formed_releaseLanes (formed_issue hu))))))

theorem formed_execSset {n b : Fin 128} (h : s.formed κ) : answerFormed κ (execSset n b s) := by
  unfold execSset
  grind [answerFormed, formed_issue, formed_setSem, formed_finish, formed_semWord, formed_iff, State.formed.stored]

theorem formed_execSget {d n : Fin 128} {w : Fin 16} (h : s.formed κ) : answerFormed κ (execSget d n w s) := by
  unfold execSget
  grind [answerFormed, formed_laneValue, formed_semWord, formed_iff, State.formed.stored]

theorem formed_execQueueAppend {dom : Dom} {q addr bytes : Nat} (h : s.formed κ) :
    answerFormed κ (execQueueAppend dom q addr bytes s) := by
  unfold execQueueAppend
  grind [answerFormed, formed_hostQueue, formed_append, formed_onQueue, formed_iff, State.formed.stored]

theorem formed_execQueueEnable {dom : Dom} {q ctl : Nat} (h : s.formed κ) :
    answerFormed κ (execQueueEnable dom q ctl s) := by
  unfold execQueueEnable
  grind [answerFormed, formed_hostQueue, formed_queueCtl, formed_iff, State.formed.stored]

theorem formed_execQueueDisable {dom : Dom} {q ctl : Nat} (h : s.formed κ) :
    answerFormed κ (execQueueDisable dom q ctl s) := by
  unfold execQueueDisable
  grind [answerFormed, formed_hostQueue, formed_queueCtl, formed_iff, State.formed.stored]

theorem formed_execQueueClr {dom : Dom} {q : Nat} (h : s.formed κ) : answerFormed κ (execQueueClr dom q s) := by
  unfold execQueueClr
  grind [answerFormed, formed_hostQueue, formed_queueClear, formed_iff, State.formed.stored]

theorem formed_execDispatchTake {dom : Dom} {q : Nat} (h : s.formed κ) : answerFormed κ (execDispatchTake dom q s) := by
  unfold execDispatchTake
  grind [answerFormed, formed_takeEntry, formed_iff, State.formed.stored]

theorem formed_execTeamRelease {dom : Dom} (h : s.formed κ) : answerFormed κ (execTeamRelease dom s) :=
  formed_ite (formed_getD h fun _ => formed_release h) h

theorem formed_execCoopBlock {dom : Dom} (h : s.formed κ) : answerFormed κ (execCoopBlock dom s) := by
  unfold execCoopBlock
  grind [answerFormed, formed_beginBlock, formed_iff, State.formed.stored]

theorem formed_execItemChunkDeal {core launch : Nat} (h : s.formed κ) :
    answerFormed κ (execItemChunkDeal core launch s) := by
  unfold execItemChunkDeal
  grind [answerFormed, formed_setLaunch, formed_onCore, formed_iff, State.formed.stored, Core.formed]

theorem formed_execTeamExit {team : Nat} (h : s.formed κ) : answerFormed κ (execTeamExit team s) := by
  unfold execTeamExit
  grind [answerFormed, formed_exitTeam, formed_iff, State.formed.stored]

theorem formed_execSuccessorJoin {launch : Nat} (h : s.formed κ) : answerFormed κ (execSuccessorJoin launch s) := by
  unfold execSuccessorJoin
  grind [answerFormed, formed_endLaunch, formed_joinSuccessor, formed_iff, State.formed.stored]

theorem formed_execMfence (h : s.formed κ) : answerFormed κ (execMfence s) :=
  formed_act (formed_takeDue h) fun _ => formed_finish (formed_issue (formed_foldl
    (fun _ _ ht => formed_ite ht (formed_onArray ht (by exact fun _ ha => ha))) (formed_foldl
    (fun _ _ ht => formed_ite ht (formed_onCore ht (by exact fun _ hc => hc))) (formed_landScratch (formed_takeDue h)))))

theorem formed_execAcrd {d va : Fin 128} {x : Fin 2} (h : s.formed κ) : answerFormed κ (execAcrd d va x s) := by
  unfold execAcrd
  grind [answerFormed, formed_laneError, formed_issue, formed_takeDue, formed_claimArray, formed_laneWord, formed_act,
    formed_iff, State.formed.stored]

/-- A word written into a C-store, and into what `acrd` may return from before. -/
theorem formed_execAcwr {d va : Fin 128} {x : Fin 2} (h : s.formed κ) : answerFormed κ (execAcwr d va x s) :=
  formed_act (formed_takeDue h) fun _ => formed_finish (formed_trapEach (formed_foldl
    (fun _ _ ht => formed_ite (formed_onArray ht fun _ ha e => ⟨memCanon_memPut (ha e).1 _ _ _, (ha e).2.1,
      List.forall_mem_map.mpr fun w hw => memCanon_memPut ((ha e).2.2 w hw) _ _ _⟩) ht)
    (formed_issue (formed_claimArray (formed_takeDue h)))))

theorem formed_execAcst {d : Fin 128} {k : Fin 64} (h : s.formed κ) : answerFormed κ (execAcst d k s) := by
  unfold execAcst
  grind [answerFormed, formed_takeDue, formed_claimArray, formed_laneValue, formed_act, formed_iff,
    State.formed.stored, formed_foldl]

theorem formed_execShset {d va b : Fin 128} (h : s.formed κ) : answerFormed κ (execShset d va b s) := by
  refine formed_act (formed_takeDue h) fun a => ?_
  have issued : s.takeDue.issue.formed κ := formed_issue (formed_takeDue h)
  have given : ∀ {t : State} {v : Nat}, t.formed κ →
      ((a.lanes.foldl (fun s l => s.pendLane a.gid l false [(d.val, BitVec.ofNat 32 v)]) t).finish).formed κ :=
    fun ht => formed_finish (formed_foldl (fun _ _ hu => formed_pendLane hu) ht)
  refine formed_ite (formed_trap issued) ?_
  extract_lets addr ctx
  have read : (s.takeDue.issue.hwLoad ctx addr 64 3 (.atomic 13)).1.formed κ := formed_hwLoad issued
  split <;> (rename_i e; rw [e] at read)
  · exact formed_trap read
  · rename_i t bs
    refine formed_ite (given (formed_dropShape read)) ?_
    have stored : (t.hwStore ctx addr (s.takeDue.issue.shapeBytes a va.val ((words16 bs).getD 15 0 % 2 ^ 12 + 1))
      3).1.formed κ :=
      formed_hwStore read
    split <;> (rename_i e; rw [e] at stored)
    · exact formed_trap stored
    · exact given (formed_dropShape stored)

theorem formed_execShinv {va : Fin 128} (h : s.formed κ) : answerFormed κ (execShinv va s) := by
  unfold execShinv
  grind [answerFormed, formed_issue, formed_takeDue, formed_finish, formed_act, formed_dropShape, formed_iff,
    State.formed.stored]

theorem formed_execRtsend {r : Fin 64} {va : Fin 128} {n : Fin 8} (h : s.formed κ) :
    answerFormed κ (execRtsend r va n s) := by
  unfold execRtsend
  grind [answerFormed, formed_routePut, formed_finish, formed_parkAt, formed_routeWord, formed_iff, State.formed.stored]

theorem formed_execRtrecv {d : Fin 128} {r : Fin 64} {n : Fin 8} (h : s.formed κ) :
    answerFormed κ (execRtrecv d r n s) := by
  unfold execRtrecv
  grind [answerFormed, formed_finish, formed_routeTake, formed_parkAt, formed_routeWord, formed_giveWords, formed_iff,
    State.formed.stored]

theorem formed_execRtsendq {d va : Fin 128} {r : Fin 64} (h : s.formed κ) : answerFormed κ (execRtsendq d va r s) := by
  unfold execRtsendq
  grind [answerFormed, formed_routePut, formed_finish, formed_pendLane, formed_routeWord, formed_iff,
    State.formed.stored, formed_foldl]

theorem formed_execRtrecvq {d : Fin 128} {r : Fin 64} (h : s.formed κ) : answerFormed κ (execRtrecvq d r s) := by
  unfold execRtrecvq
  grind [answerFormed, formed_finish, formed_routeTake, formed_pendLane, formed_routeWord, formed_iff,
    State.formed.stored, formed_foldl]

theorem formed_execWpush {d va b : Fin 128} (h : s.formed κ) : answerFormed κ (execWpush d va b s) := by
  refine formed_atRelease (formed_takeDue h) fun t ht => formed_act ht fun a => formed_finish (formed_trapEach
    (formed_foldl_eq (fun u y l v z hu e => ?_) (formed_releasePins (formed_releaseLanes (formed_issue ht)))))
  extract_lets addr q at e
  have pushed : (u.appendCode a.team.dom q addr).1.formed κ := formed_appendCode hu
  clear_value addr q
  split at e <;> (rename_i ep; rw [ep] at pushed)
  · exact (Prod.mk.inj e).1 ▸ pushed
  · exact (Prod.mk.inj e).1 ▸ formed_pendLane (formed_appendAs pushed)

theorem formed_execWjoin {d va : Fin 128} (h : s.formed κ) : answerFormed κ (execWjoin d va s) :=
  formed_guard (formed_atRelease (formed_beginWord (formed_takeDue h)) fun _ ht => formed_answer ht
    (formed_preciseWord ht))

theorem formed_execIpush {d va : Fin 128} (h : s.formed κ) : answerFormed κ (execIpush d va s) := by
  unfold execIpush
  grind [answerFormed, formed_issue, formed_takeDue, formed_finish, formed_pendLane, formed_act, formed_onCore,
    formed_iff, State.formed.stored, formed_foldl, Core.formed]

theorem formed_execEngineAccept {gang cohort : Nat} (h : s.formed κ) :
    answerFormed κ (execEngineAccept gang cohort s) := by
  unfold execEngineAccept
  grind [answerFormed, formed_asCohort, formed_acceptCmd, formed_act, formed_onCohort, formed_iff, State.formed.stored]

theorem formed_execCopyBlock {quad uid : Nat} (h : s.formed κ) : answerFormed κ (execCopyBlock quad uid s) := by
  unfold execCopyBlock
  grind [answerFormed, formed_copyBlockNow, formed_iff, State.formed.stored]

theorem formed_execCopyComplete {quad uid : Nat} (h : s.formed κ) : answerFormed κ (execCopyComplete quad uid s) := by
  unfold execCopyComplete
  grind [answerFormed, formed_peerStop, formed_copyEnd, formed_iff, State.formed.stored]

theorem formed_execChurnStep {quad arr : Nat} (h : s.formed κ) : answerFormed κ (execChurnStep quad arr s) := by
  unfold execChurnStep
  grind [answerFormed, formed_churn, formed_iff, State.formed.stored]

theorem formed_execMatrixComplete {quad uid : Nat} (h : s.formed κ) : answerFormed κ (execMatrixComplete quad uid s) := by
  unfold execMatrixComplete
  grind [answerFormed, formed_retireCmd, formed_iff, State.formed.stored]

theorem formed_execRouteBreak {lease tenant rt seg : Nat} (h : s.formed κ) :
    answerFormed κ (execRouteBreak lease tenant rt seg s) := by
  unfold execRouteBreak
  grind [answerFormed, formed_onRoute, formed_iff, State.formed.stored]

theorem formed_execCohortForm {gang slice : Nat} (h : s.formed κ) : answerFormed κ (execCohortForm gang slice s) := by
  unfold execCohortForm
  grind [answerFormed, formed_startCohort, formed_setGang, formed_iff, State.formed.stored]

theorem formed_execPrewaitRelease {gang wait : Nat} (h : s.formed κ) :
    answerFormed κ (execPrewaitRelease gang wait s) := by
  unfold execPrewaitRelease
  grind [answerFormed, formed_unpark, formed_iff, State.formed.stored]

theorem formed_execSwitchParkEnd {gang wait : Nat} (h : s.formed κ) : answerFormed κ (execSwitchParkEnd gang wait s) := by
  unfold execSwitchParkEnd
  grind [answerFormed, formed_unpark, formed_deliverEach, formed_iff, State.formed.stored]

theorem formed_execStoreFaultReport {acc : Nat} (h : s.formed κ) : answerFormed κ (execStoreFaultReport acc s) := by
  unfold execStoreFaultReport
  grind [answerFormed, formed_placeRecord, formed_dropAccess, formed_iff, State.formed.stored]

theorem formed_execSkidCountDeliver {gang cohort : Nat} (h : s.formed κ) :
    answerFormed κ (execSkidCountDeliver gang cohort s) := by
  unfold execSkidCountDeliver
  grind [answerFormed, formed_leave, formed_asCohort, formed_deliver, formed_act, formed_iff, State.formed.stored]

theorem formed_execHomeStoreApply {acc : Nat} (h : s.formed κ) : answerFormed κ (execHomeStoreApply acc s) := by
  unfold execHomeStoreApply
  grind [answerFormed, formed_follow, formed_arrive, formed_iff, State.formed.stored]

theorem formed_execL1Fill {acc : Nat} (h : s.formed κ) : answerFormed κ (execL1Fill acc s) := by
  unfold execL1Fill
  grind [answerFormed, formed_fillL1, formed_withAccess, formed_iff, State.formed.stored]

theorem formed_execSharerUpdate {acc : Nat} (h : s.formed κ) : answerFormed κ (execSharerUpdate acc s) := by
  unfold execSharerUpdate
  grind [answerFormed, formed_withAccess, formed_updateSharer, formed_iff, State.formed.stored]

theorem formed_execStoreAck {acc : Nat} (h : s.formed κ) : answerFormed κ (execStoreAck acc s) := by
  unfold execStoreAck
  grind [answerFormed, formed_withAccess, formed_ackStore, formed_iff, State.formed.stored]

theorem formed_execListSplice {core line : Nat} (h : s.formed κ) : answerFormed κ (execListSplice core line s) := by
  unfold execListSplice
  grind [answerFormed, formed_spliceOut, formed_iff, State.formed.stored]

theorem formed_execL2Evict {line : Nat} (h : s.formed κ) : answerFormed κ (execL2Evict line s) :=
  formed_ite (formed_getD h fun _ => formed_evictL2 h) h

theorem formed_execPageFillDone {page : Nat} (h : s.formed κ) : answerFormed κ (execPageFillDone page s) := by
  unfold execPageFillDone
  grind [answerFormed, formed_endFill, formed_fillTokens, formed_iff, State.formed.stored]

theorem formed_execTokenRefill (h : s.formed κ) : answerFormed κ (execTokenRefill s) := by
  unfold execTokenRefill
  grind [answerFormed, formed_iff, State.formed.stored]

theorem formed_execViewBroadcast {lease tenant idx : Nat} (h : s.formed κ) :
    answerFormed κ (execViewBroadcast lease tenant idx s) := by
  refine formed_onTenant h fun t ht => ?_
  split
  · exact ht
  · exact ht

theorem formed_execMwaitDeadline {gang wait : Nat} (h : s.formed κ) : answerFormed κ (execMwaitDeadline gang wait s) := by
  unfold execMwaitDeadline
  grind [answerFormed, formed_mwaitWake, formed_iff, State.formed.stored]

theorem formed_execHostCompletion {acc : Nat} {ok : Bool} (h : s.formed κ) :
    answerFormed κ (execHostCompletion acc ok s) := by
  unfold execHostCompletion
  grind [answerFormed, formed_completeHost, formed_failHost, formed_copyAnswer, formed_iff, State.formed.stored,
    formed_foldl]

theorem formed_execHostTimeout {acc : Nat} (h : s.formed κ) : answerFormed κ (execHostTimeout acc s) := by
  unfold execHostTimeout
  grind [answerFormed, formed_failHost, formed_copyAnswer, formed_iff, State.formed.stored, formed_foldl]

theorem formed_execWalkaheadTranslate {quad uid : Nat} (h : s.formed κ) :
    answerFormed κ (execWalkaheadTranslate quad uid s) := by
  unfold execWalkaheadTranslate
  dsimp only [answerFormed]
  split <;> grind [formed_onQuad, formed_markLeaves, formed_walkNow, formed_iff, State.formed.stored, Quad.formed]

theorem formed_execDescConfigure {lease tenant : Nat} (h : s.formed κ) :
    answerFormed κ (execDescConfigure lease tenant s) := by
  unfold execDescConfigure
  grind [answerFormed, formed_descStep, formed_descConfigure, formed_iff, State.formed.stored]

theorem formed_execDescCommit {lease tenant : Nat} (h : s.formed κ) : answerFormed κ (execDescCommit lease tenant s) := by
  unfold execDescCommit
  grind [answerFormed, formed_descCommit, formed_descStep, formed_iff, State.formed.stored]

theorem formed_execDescUncommit {lease tenant : Nat} (h : s.formed κ) :
    answerFormed κ (execDescUncommit lease tenant s) := by
  unfold execDescUncommit
  grind [answerFormed, formed_descUncommit, formed_descStep, formed_iff, State.formed.stored]

theorem formed_execDescRun {lease tenant : Nat} (h : s.formed κ) : answerFormed κ (execDescRun lease tenant s) := by
  unfold execDescRun
  grind [answerFormed, formed_descStep, formed_descRun, formed_iff, State.formed.stored]

theorem formed_execDescPreempt {lease tenant : Nat} (h : s.formed κ) :
    answerFormed κ (execDescPreempt lease tenant s) := by
  unfold execDescPreempt
  grind [answerFormed, formed_descPreempt, formed_descStep, formed_iff, State.formed.stored]

theorem formed_execDescRestore {lease tenant : Nat} (h : s.formed κ) :
    answerFormed κ (execDescRestore lease tenant s) := by
  unfold execDescRestore
  grind [answerFormed, formed_descStep, formed_descRestore, formed_iff, State.formed.stored]

theorem formed_execDescHoldOut {lease tenant : Nat} (h : s.formed κ) :
    answerFormed κ (execDescHoldOut lease tenant s) := by
  unfold execDescHoldOut
  grind [answerFormed, formed_descHoldOut, formed_descStep, formed_iff, State.formed.stored]

theorem formed_execDescFree {lease tenant : Nat} (h : s.formed κ) : answerFormed κ (execDescFree lease tenant s) := by
  unfold execDescFree
  grind [answerFormed, formed_descFree, formed_descStep, formed_iff, State.formed.stored]

theorem formed_execDescRecover {lease tenant : Nat} (h : s.formed κ) :
    answerFormed κ (execDescRecover lease tenant s) := by
  unfold execDescRecover
  grind [answerFormed, formed_descFree, formed_descStep, formed_descConfigure, formed_iff, State.formed.stored]

theorem formed_execQuantumWrite {lease tenant value : Nat} (h : s.formed κ) :
    answerFormed κ (execQuantumWrite lease tenant value s) := by
  unfold execQuantumWrite
  grind [answerFormed, formed_writeQuantum, formed_iff, State.formed.stored]

theorem formed_execAttrEntryWrite {lease tenant i value : Nat} (h : s.formed κ) :
    answerFormed κ (execAttrEntryWrite lease tenant i value s) := by
  unfold execAttrEntryWrite
  grind [answerFormed, formed_writeAttr, formed_iff, State.formed.stored]

theorem formed_execS1rootWrite {lease tenant value : Nat} (h : s.formed κ) :
    answerFormed κ (execS1rootWrite lease tenant value s) := by
  unfold execS1rootWrite
  grind [answerFormed, formed_writeS1root, formed_iff, State.formed.stored]

theorem formed_execS2rootWrite {lease tenant value : Nat} (h : s.formed κ) :
    answerFormed κ (execS2rootWrite lease tenant value s) := by
  unfold execS2rootWrite
  grind [answerFormed, formed_writeS2root, formed_iff, State.formed.stored]

theorem formed_execRouteEnable {lease tenant rt value : Nat} (h : s.formed κ) :
    answerFormed κ (execRouteEnable lease tenant rt value s) := by
  unfold execRouteEnable
  grind [answerFormed, formed_routeWrite, formed_iff, State.formed.stored]

theorem formed_execRouteDisable {lease tenant rt value : Nat} (h : s.formed κ) :
    answerFormed κ (execRouteDisable lease tenant rt value s) := by
  unfold execRouteDisable
  grind [answerFormed, formed_routeWrite, formed_iff, State.formed.stored]

theorem formed_execRegisterWrite {who : Writer} {offset value : Nat} (h : s.formed κ) :
    answerFormed κ (execRegisterWrite who offset value s) := by
  unfold execRegisterWrite
  grind [answerFormed, formed_registerWrite, formed_iff, State.formed.stored]

theorem formed_execFaultResponse {fb : FbRef} {value : Nat} (h : s.formed κ) :
    answerFormed κ (execFaultResponse fb value s) := by
  unfold execFaultResponse
  grind [answerFormed, formed_respond, formed_iff, State.formed.stored]

theorem formed_execFbheadWrite {fb : FbRef} {value : Nat} (h : s.formed κ) :
    answerFormed κ (execFbheadWrite fb value s) := by
  unfold execFbheadWrite
  grind [answerFormed, formed_writeFbHead, formed_iff, State.formed.stored]

theorem formed_execClrovfWrite {fb : FbRef} {value : Nat} (h : s.formed κ) :
    answerFormed κ (execClrovfWrite fb value s) := by
  unfold execClrovfWrite
  grind [answerFormed, formed_writeFbCtl, formed_iff, State.formed.stored]

theorem formed_execPreemptHardStop {lease tenant : Nat} (h : s.formed κ) :
    answerFormed κ (execPreemptHardStop lease tenant s) := by
  unfold execPreemptHardStop
  grind [answerFormed, formed_onTenant, formed_iff, State.formed.stored, Tenant.formed]

theorem formed_execEngineStopAck {lease tenant cls : Nat} (h : s.formed κ) :
    answerFormed κ (execEngineStopAck lease tenant cls s) := by
  unfold execEngineStopAck
  grind [answerFormed, formed_onTenant, formed_stopLanes, formed_iff, State.formed.stored, Tenant.formed]

theorem formed_execSaveDone {lease tenant us : Nat} (h : s.formed κ) :
    answerFormed κ (execSaveDone lease tenant us s) := by
  unfold execSaveDone
  grind [answerFormed, formed_onTenant, formed_vacate, formed_iff, State.formed.stored, formed_foldl, Tenant.formed]

theorem formed_execPreemptKill {lease tenant : Nat} (h : s.formed κ) :
    answerFormed κ (execPreemptKill lease tenant s) := by
  unfold execPreemptKill
  grind [answerFormed, formed_post, formed_onTenant, formed_discardSaved, formed_discard, formed_iff,
    State.formed.stored, Tenant.formed]

theorem formed_execRestoreDone {lease tenant : Nat} (h : s.formed κ) :
    answerFormed κ (execRestoreDone lease tenant s) := by
  unfold execRestoreDone
  grind [answerFormed, formed_onTenant, formed_resume, formed_restoreAll, formed_reshape, formed_iff,
    State.formed.stored, Tenant.formed]

theorem formed_execQuantumExpire {lease tenant : Nat} (h : s.formed κ) :
    answerFormed κ (execQuantumExpire lease tenant s) := by
  unfold execQuantumExpire
  grind [answerFormed, formed_onTenant, formed_tally, formed_iff, State.formed.stored, Tenant.formed]

theorem formed_execBoot {defects : List Nat} (h : s.formed κ) : answerFormed κ (execBoot defects s) := by
  unfold execBoot
  grind [answerFormed, formed_iff, State.formed.stored]

theorem formed_execQuadFailure {field prow pcol : Nat} (h : s.formed κ) :
    answerFormed κ (execQuadFailure field prow pcol s) := by
  unfold execQuadFailure
  grind [answerFormed, formed_failQuad, formed_iff, State.formed.stored]

theorem formed_execBypassFailure {quad : Nat} (h : s.formed κ) : answerFormed κ (execBypassFailure quad s) := by
  unfold execBypassFailure
  grind [answerFormed, formed_failQuad, formed_iff, State.formed.stored]

theorem formed_execEngineDead {quad : Nat} (h : s.formed κ) : answerFormed κ (execEngineDead quad s) := by
  unfold execEngineDead
  grind [answerFormed, formed_onQuad, formed_failQuad, formed_iff, State.formed.stored, Quad.formed]

theorem formed_execLatmatSweep {lease : Nat} {ns : List Nat} (h : s.formed κ) :
    answerFormed κ (execLatmatSweep lease ns s) := by
  unfold execLatmatSweep
  grind [answerFormed, formed_setLease, formed_latRelease, formed_latWrite, formed_iff, State.formed.stored, formed_foldl]

theorem formed_execTrimFailure {quad cap : Nat} (h : s.formed κ) : answerFormed κ (execTrimFailure quad cap s) :=
  formed_rebase h (by exact fun _ hq => hq)

theorem formed_execCapRaise {quad cap : Nat} (h : s.formed κ) : answerFormed κ (execCapRaise quad cap s) :=
  formed_rebase h (by exact fun _ hq => hq)

theorem formed_execPowerWaitExpire {quad : Nat} (h : s.formed κ) : answerFormed κ (execPowerWaitExpire quad s) := by
  unfold execPowerWaitExpire
  grind [answerFormed, formed_onQuad, formed_iff, State.formed.stored, Quad.formed]

theorem formed_execQuadPowerReady {quad : Nat} (h : s.formed κ) : answerFormed κ (execQuadPowerReady quad s) := by
  unfold execQuadPowerReady
  grind [answerFormed, formed_onQuad, formed_iff, State.formed.stored, Quad.formed]

theorem formed_execQuadGate {quad : Nat} (h : s.formed κ) : answerFormed κ (execQuadGate quad s) := by
  unfold execQuadGate
  grind [answerFormed, formed_onQuad, formed_iff, State.formed.stored, Quad.formed]

theorem formed_execLeaseCreation {lease : Nat} {spec : LeaseSpec} (h : s.formed κ) :
    answerFormed κ (execLeaseCreation lease spec s) :=
  formed_ite h (formed_setLease ⟨{ h.stored with tenants := fun t ht => h.stored.tenants t (mem_assocErase ht) }⟩)

theorem formed_execFlitAck {link packet : Nat} (h : s.formed κ) : answerFormed κ (execFlitAck link packet s) := by
  unfold execFlitAck
  grind [answerFormed, formed_iff, State.formed.stored]

theorem formed_execFlitReplay {link : Nat} (h : s.formed κ) : answerFormed κ (execFlitReplay link s) := by
  unfold execFlitReplay
  grind [answerFormed, formed_killLink, formed_linkHealth, formed_iff, State.formed.stored]

theorem formed_execPacketTagDrop {lease : Nat} (h : s.formed κ) : answerFormed κ (execPacketTagDrop lease s) := by
  unfold execPacketTagDrop
  grind [answerFormed, formed_setLease, formed_iff, State.formed.stored]

theorem formed_execPeerLinkLost {link : Nat} (h : s.formed κ) : answerFormed κ (execPeerLinkLost link s) := by
  unfold execPeerLinkLost
  grind [answerFormed, formed_peerStop, formed_iff, State.formed.stored, formed_foldl]

theorem formed_execPeerAccessReceive {link : Nat} {write : Bool} {addr : Nat} {data : List Nat} (h : s.formed κ) :
    answerFormed κ (execPeerAccessReceive link write addr data s) := by
  unfold execPeerAccessReceive
  grind [answerFormed, formed_hwLoad, formed_hwStore, formed_iff, State.formed.stored]

theorem formed_execSpdmGetMeasurements {port vfn index : Nat} (h : s.formed κ) :
    answerFormed κ (execSpdmGetMeasurements port vfn index s) := by
  unfold execSpdmGetMeasurements
  grind [answerFormed, formed_iff, State.formed.stored]

theorem formed_execTdispLockInterface {port vfn : Nat} (h : s.formed κ) :
    answerFormed κ (execTdispLockInterface port vfn s) := by
  unfold execTdispLockInterface
  grind [answerFormed, formed_tdispAnswer, formed_iff, State.formed.stored]

theorem formed_execVoltageSample {quad mv : Nat} (h : s.formed κ) : answerFormed κ (execVoltageSample quad mv s) := by
  unfold execVoltageSample
  grind [answerFormed, formed_onQuad, formed_upset, formed_iff, State.formed.stored, Quad.formed]

theorem formed_execVminReset {quad : Nat} (h : s.formed κ) : answerFormed κ (execVminReset quad s) :=
  formed_onQuad h (by exact fun _ hq => hq)

theorem formed_execPowerSample {watts decidegrees : Nat} (h : s.formed κ) :
    answerFormed κ (execPowerSample watts decidegrees s) := by
  unfold execPowerSample
  grind [answerFormed, formed_iff, State.formed.stored]

theorem formed_execSysr {d n : Fin 128} (h : s.formed κ) : answerFormed κ (execSysr d n s) := by
  unfold execSysr
  grind [answerFormed, formed_laneValue, formed_privileged, formed_iff, State.formed.stored]

theorem formed_execSysw {a n : Fin 128} (h : s.formed κ) : answerFormed κ (execSysw a n s) := by
  unfold execSysw
  grind [answerFormed, formed_trapWord, formed_issue, formed_finish, formed_privileged, formed_setSysReg, formed_iff,
    State.formed.stored, formed_foldl]

theorem formed_execCfgr {d a : Fin 128} (h : s.formed κ) : answerFormed κ (execCfgr d a s) := by
  unfold execCfgr
  grind [answerFormed, formed_laneWord, formed_privileged, formed_iff, State.formed.stored]

theorem formed_execCfgw {a b : Fin 128} (h : s.formed κ) : answerFormed κ (execCfgw a b s) := by
  unfold execCfgw
  grind [answerFormed, formed_leave, formed_cfgwWord, formed_deliver, formed_privileged, formed_iff, State.formed.stored]

theorem formed_execEret (h : s.formed κ) : answerFormed κ (execEret s) := by
  unfold execEret
  grind [answerFormed, formed_issue, formed_trapEach, formed_privileged, formed_eretLane, formed_park, formed_iff,
    State.formed.stored, formed_foldl]

theorem formed_execTrlane {d n b : Fin 128} (h : s.formed κ) : answerFormed κ (execTrlane d n b s) := by
  unfold execTrlane
  grind [answerFormed, formed_laneWord, formed_privileged, formed_iff, State.formed.stored]

theorem formed_execTwlane {n b d : Fin 128} (h : s.formed κ) : answerFormed κ (execTwlane n b d s) := by
  unfold execTwlane
  grind [answerFormed, formed_issue, formed_trapEach, formed_finish, formed_privileged, formed_onGang, formed_iff,
    State.formed.stored, formed_foldl]

theorem formed_execHalt {b : Fin 128} (h : s.formed κ) : answerFormed κ (execHalt b s) := by
  unfold execHalt
  grind [answerFormed, formed_issue, formed_haltTeams, formed_act, formed_iff, State.formed.stored]

theorem formed_execHaltLaunch {b : Fin 128} (h : s.formed κ) : answerFormed κ (execHaltLaunch b s) := by
  unfold execHaltLaunch
  grind [answerFormed, formed_issue, formed_haltTeams, formed_privileged, formed_iff, State.formed.stored]

theorem formed_execHaltTenant {b : Fin 128} (h : s.formed κ) : answerFormed κ (execHaltTenant b s) := by
  unfold execHaltTenant
  grind [answerFormed, formed_haltTenantNow, formed_trapWord, formed_issue, formed_privileged, formed_iff,
    State.formed.stored]

theorem formed_execHaltOther {a b : Fin 128} (h : s.formed κ) : answerFormed κ (execHaltOther a b s) := by
  unfold execHaltOther
  dsimp only [answerFormed]
  split <;> grind [formed_haltTenantNow, formed_trapWord, formed_issue, formed_setPcs, formed_act, formed_endCohort,
    formed_park, formed_iff, State.formed.stored]

end Sys2Proof.Machine
end

section
/-! The form of storage: every instruction, every step; O55 and O56. -/
namespace Sys2Proof.Machine

variable {κ : Storage} {s : State}

/-- Every instruction keeps the form: a word of a lane by the rule of its class, a step of another agent by its own. -/
theorem formed_exec {i : Instr} (h : s.formed κ) : answerFormed κ (exec i s) := by
  cases i with
  | iadd | isub | imul | imulh | umulh | imad | imin | imax | umin | umax | idiv | udiv | irem | urem | andv | orv |
    xorv | andn | orn | xnor | shl | shr | sar | rotl | sel | icmp | fcpsgn | dp4i | dp4n => exact formed_f3 h
  | iabs | ineg | popc | clz | ctz | brev | mov | iaddi | andi | ori | xori | shli | shri | sari | icmpi | bfx | bfi |
    imuli | fabs | fneg | fclass | n2f | sx8 | sx16 | sat8 | satz8 | sat16 | satz16 => exact formed_f2 h
  | fadd | fsub | fmul | fma | fms | fnma | fmin | fmax | fdiv | dp2h | dp2b | dp4e | dp4f => exact formed_fp3 h
  | atomAdd | atomMin | atomMax | atomUmin | atomUmax | atomAnd | atomOr | atomXor | atomXchg | atomCas | atomFadd |
    atomAdd64 => exact formed_atom h
  | hadd2 | hsub2 | hmul2 | hfma2 | hmin2 | hmax2 | badd2 | bsub2 | bmul2 | bfma2 | bmin2 | bmax2 =>
    exact formed_packedWord h
  | scaAdd | scaMin | scaMax | scaUmin | scaUmax | scaAnd | scaOr | scaXor | scaXchg | scaCas | scaFadd =>
    exact formed_sca h
  | ldB | ldBs | ldH | ldHs | ldW | ldD | ldQ | ldbW | ldbD | ldbQ => exact formed_preciseWord h
  | vany | vall | redadd | redmin | redmax | bcast | redand | redor | redxor => exact formed_collective h
  | acmpeq | acmplt | movi | movh | laneid | gwidth | rview | rviewCnt => exact formed_laneValue h
  | aadd | aaddz | asub | amov | ashl | amul | aaddi | cohort => exact formed_pairWord h
  | frcp | frsq | fexp2 | flog2 | fsinpi | fcospi | ftanh | fsig => exact formed_transWord h
  | redAdd | redMin | redMax | redAnd | redOr | redXor | redFadd => exact formed_red h
  | cpy | cpg | cps | cpxw | cpxr | cpf => exact formed_copyWord h
  | frnd | fsqrt | fsat | i2f | f2i | f2n => exact formed_fp1 h
  | pkh | pkb | pk8e | pk8f | pk6 | pk4 => exact formed_packWord h
  | unh | unb | un8e | un8f | un6 | un4 => exact formed_unpackWord h
  | mmul | mmulw | mmsp | mzero | mepi => exact formed_cmdWord (formed_takeDue h)
  | stB | stH | stW | stD | stQ => exact formed_imprecise h
  | homeReadMiss | homeAtomic | pinRefusalRetry | roundRefetch => exact formed_arrive h
  | ldaH | ldaW | ldaQ | ldwQ => exact formed_scratchLoad h
  | staH | staW | staQ | stwQ => exact formed_scratchStore h
  | shfl | shup | shdn | shxor => exact formed_shuffleWord h
  | br | brnz | brz => exact formed_branch h
  | fredadd | fredmin | fredmax => exact formed_fpCollective h
  | swapOutEligible | swapOutForced | swapIn => exact formed_swap h
  | tlbiVa | tlbiTa | tlbiAll => exact formed_tlbi h
  | fence | sdrain => exact formed_fenceWord h
  | fcmp | fxf => exact formed_fpWord h
  | jmp | jmpl => exact formed_jump h
  | ballot | matchEq => exact formed_maskWord h
  | mwait | mwaitTrap => exact formed_mwaitWord h
  | saccW | saccF => exact formed_sacc h
  | swait | sdec => exact formed_semWait h
  | holdListDrain => exact formed_drainHeld h
  | acrd => exact formed_execAcrd h
  | acst => exact formed_execAcst h
  | acwr => exact formed_execAcwr h
  | attrEntryWrite => exact formed_execAttrEntryWrite h
  | bar => exact formed_execBar h
  | boot => exact formed_execBoot h
  | bypassFailure => exact formed_execBypassFailure h
  | call => exact formed_execCall h
  | capRaise => exact formed_execCapRaise h
  | cfgr => exact formed_execCfgr h
  | cfgw => exact formed_execCfgw h
  | churnStep => exact formed_execChurnStep h
  | cinv => exact formed_execCinv h
  | clrovfWrite => exact formed_execClrovfWrite h
  | cohortForm => exact formed_execCohortForm h
  | coopBlock => exact formed_execCoopBlock h
  | copyBlock => exact formed_execCopyBlock h
  | copyComplete => exact formed_execCopyComplete h
  | descCommit => exact formed_execDescCommit h
  | descConfigure => exact formed_execDescConfigure h
  | descFree => exact formed_execDescFree h
  | descHoldOut => exact formed_execDescHoldOut h
  | descPreempt => exact formed_execDescPreempt h
  | descRecover => exact formed_execDescRecover h
  | descRestore => exact formed_execDescRestore h
  | descRun => exact formed_execDescRun h
  | descUncommit => exact formed_execDescUncommit h
  | dispatchTake => exact formed_execDispatchTake h
  | engineAccept => exact formed_execEngineAccept h
  | engineDead => exact formed_execEngineDead h
  | engineStopAck => exact formed_execEngineStopAck h
  | eret => exact formed_execEret h
  | faultResponse => exact formed_execFaultResponse h
  | fbheadWrite => exact formed_execFbheadWrite h
  | flitAck => exact formed_execFlitAck h
  | flitReplay => exact formed_execFlitReplay h
  | halt => exact formed_execHalt h
  | haltLaunch => exact formed_execHaltLaunch h
  | haltOther => exact formed_execHaltOther h
  | haltTenant => exact formed_execHaltTenant h
  | homeStoreApply => exact formed_execHomeStoreApply h
  | hostCompletion => exact formed_execHostCompletion h
  | hostTimeout => exact formed_execHostTimeout h
  | ipush => exact formed_execIpush h
  | itemChunkDeal => exact formed_execItemChunkDeal h
  | jdepth => exact formed_execJdepth h
  | jdrop => exact formed_execJdrop h
  | jpush => exact formed_execJpush h
  | jwait => exact formed_execJwait h
  | l1Fill => exact formed_execL1Fill h
  | l2Evict => exact formed_execL2Evict h
  | latmatSweep => exact formed_execLatmatSweep h
  | leaseCreation => exact formed_execLeaseCreation h
  | listSplice => exact formed_execListSplice h
  | matrixComplete => exact formed_execMatrixComplete h
  | mfence => exact formed_execMfence h
  | mon => exact formed_execMon h
  | munarm => exact formed_execMunarm h
  | mwaitDeadline => exact formed_execMwaitDeadline h
  | nop => exact formed_execNop h
  | packetTagDrop => exact formed_execPacketTagDrop h
  | pageFillDone => exact formed_execPageFillDone h
  | pdisc => exact formed_execPdisc h
  | peerAccessReceive => exact formed_execPeerAccessReceive h
  | peerLinkLost => exact formed_execPeerLinkLost h
  | pfetch => exact formed_execPfetch h
  | pfl2 => exact formed_execPfl2 h
  | powerSample => exact formed_execPowerSample h
  | powerWaitExpire => exact formed_execPowerWaitExpire h
  | preemptHardStop => exact formed_execPreemptHardStop h
  | preemptKill => exact formed_execPreemptKill h
  | prewaitRelease => exact formed_execPrewaitRelease h
  | quadFailure => exact formed_execQuadFailure h
  | quadGate => exact formed_execQuadGate h
  | quadPowerReady => exact formed_execQuadPowerReady h
  | quantumExpire => exact formed_execQuantumExpire h
  | quantumWrite => exact formed_execQuantumWrite h
  | queueAppend => exact formed_execQueueAppend h
  | queueClr => exact formed_execQueueClr h
  | queueDisable => exact formed_execQueueDisable h
  | queueEnable => exact formed_execQueueEnable h
  | racq => exact formed_execRacq h
  | radv => exact formed_execRadv h
  | refill => exact formed_execRefill h
  | registerWrite => exact formed_execRegisterWrite h
  | rep => exact formed_execRep h
  | restoreDone => exact formed_execRestoreDone h
  | routeBreak => exact formed_execRouteBreak h
  | routeDisable => exact formed_execRouteDisable h
  | routeEnable => exact formed_execRouteEnable h
  | rtrecv => exact formed_execRtrecv h
  | rtrecvq => exact formed_execRtrecvq h
  | rtsend => exact formed_execRtsend h
  | rtsendq => exact formed_execRtsendq h
  | s1rootWrite => exact formed_execS1rootWrite h
  | s2rootWrite => exact formed_execS2rootWrite h
  | saveDone => exact formed_execSaveDone h
  | sget => exact formed_execSget h
  | sharerUpdate => exact formed_execSharerUpdate h
  | shinv => exact formed_execShinv h
  | shset => exact formed_execShset h
  | sinc => exact formed_execSinc h
  | skidCountDeliver => exact formed_execSkidCountDeliver h
  | spdmGetMeasurements => exact formed_execSpdmGetMeasurements h
  | sreg => exact formed_execSreg h
  | sregw => exact formed_execSregw h
  | sset => exact formed_execSset h
  | storeAck => exact formed_execStoreAck h
  | storeFaultReport => exact formed_execStoreFaultReport h
  | successorJoin => exact formed_execSuccessorJoin h
  | switchParkEnd => exact formed_execSwitchParkEnd h
  | sysr => exact formed_execSysr h
  | sysw => exact formed_execSysw h
  | tdispLockInterface => exact formed_execTdispLockInterface h
  | teamExit => exact formed_execTeamExit h
  | teamRelease => exact formed_execTeamRelease h
  | tokenRefill => exact formed_execTokenRefill h
  | trapv => exact formed_execTrapv h
  | trimFailure => exact formed_execTrimFailure h
  | trlane => exact formed_execTrlane h
  | twlane => exact formed_execTwlane h
  | viewBroadcast => exact formed_execViewBroadcast h
  | vminReset => exact formed_execVminReset h
  | voltageSample => exact formed_execVoltageSample h
  | walkaheadTranslate => exact formed_execWalkaheadTranslate h
  | wjoin => exact formed_execWjoin h
  | wpush => exact formed_execWpush h
  | yield => exact formed_execYield h
  | exitv => exact formed_exitWord h
  | lossOfLock => exact formed_killLink h
  | rtstat => exact formed_laneValue (formed_takeDue h)
  | resultWrite => exact formed_onGang h
  | routeWordArrive => exact formed_onRoute h
  | tdispStartInterface => exact formed_tdispAnswer h

/-! ### Steps -/

theorem formed_runWord {w : Nat} (h : s.formed κ) : answerFormed κ (runWord w s) := by
  unfold runWord
  split
  · exact formed_exec h
  · exact formed_trapWord h

theorem formed_issueWord {gid cid : Nat} (h : s.formed κ) : answerFormed κ (s.issueWord gid cid) := by
  unfold State.issueWord
  split
  · exact h
  · split
    · exact h
    · rename_i c _
      have ran : answerFormed κ (runWord c.word { s.queueUp gid cid with cur := (gid, cid) }) :=
        formed_runWord (formed_same (formed_queueUp h) rfl)
      generalize runWord c.word { s.queueUp gid cid with cur := (gid, cid) } = o at ran ⊢
      cases o with
      | next t => exact formed_issuedAt ran
      | fault => trivial
      | refused => trivial

theorem formed_takeInput (h : s.formed κ) : answerFormed κ s.takeInput := by
  unfold State.takeInput
  split
  · exact h
  · split
    · exact formed_same h rfl
    · exact formed_exec (formed_same h rfl)

theorem formed_perform {a : Act} (h : s.formed κ) : answerFormed κ (s.perform a) := by
  cases a with
  | input => exact formed_takeInput h
  | word => exact formed_issueWord h
  | settle => exact formed_settleHold (formed_queueUp h)
  | wake => exact formed_wakeUp h
  | cohortForm => exact formed_execCohortForm h
  | prewaitRelease => exact formed_execPrewaitRelease h
  | switchParkEnd => exact formed_execSwitchParkEnd h
  | resultWrite => exact formed_onGang h
  | storeFaultReport => exact formed_execStoreFaultReport h
  | skidCountDeliver => exact formed_execSkidCountDeliver h
  | swapOutEligible | swapOutForced | swapIn => exact formed_swap h
  | homeReadMiss | roundRefetch | homeAtomic | pinRefusalRetry => exact formed_arrive h
  | homeStoreApply => exact formed_execHomeStoreApply h
  | coreRetry => exact formed_coreRetry h
  | l1Fill => exact formed_execL1Fill h
  | sharerUpdate => exact formed_execSharerUpdate h
  | storeAck => exact formed_execStoreAck h
  | scratchApply => exact formed_scratchApply h
  | listSplice => exact formed_execListSplice h
  | l2Evict => exact formed_execL2Evict h
  | pageFillDone => exact formed_execPageFillDone h
  | tokenRefill => exact formed_execTokenRefill h
  | viewBroadcast => exact formed_execViewBroadcast h
  | mwaitDeadline => exact formed_execMwaitDeadline h
  | hostCompletion => exact formed_execHostCompletion h
  | hostTimeout => exact formed_execHostTimeout h
  | walkaheadTranslate => exact formed_execWalkaheadTranslate h
  | engineAccept => exact formed_execEngineAccept (formed_queueUp h)
  | copyBlock => exact formed_execCopyBlock h
  | copyComplete => exact formed_execCopyComplete h
  | churnStep => exact formed_execChurnStep h
  | matrixComplete => exact formed_execMatrixComplete h
  | routeWordArrive => exact formed_onRoute h
  | dispatchTake => exact formed_execDispatchTake h
  | teamRelease => exact formed_execTeamRelease h
  | coopBlock => exact formed_execCoopBlock h
  | holdListDrain => exact formed_drainHeld h
  | itemChunkDeal => exact formed_execItemChunkDeal h
  | teamExit => exact formed_execTeamExit h
  | successorJoin => exact formed_execSuccessorJoin h
  | preemptHardStop => exact formed_execPreemptHardStop h
  | engineStopAck => exact formed_execEngineStopAck h
  | saveDone => exact formed_execSaveDone h
  | preemptKill => exact formed_execPreemptKill h
  | restoreDone => exact formed_execRestoreDone h
  | quantumExpire => exact formed_execQuantumExpire h
  | powerWaitExpire => exact formed_execPowerWaitExpire h
  | quadPowerReady => exact formed_execQuadPowerReady h
  | quiesceStop => exact formed_quiesceStop h
  | quiesceEnd => exact formed_quiesceEnd h

theorem formed_choose {as : List Act} (h : s.formed κ) : answerFormed κ (s.choose as) := by
  unfold State.choose
  split
  · exact h
  · exact formed_perform h
  · exact formed_perform h

/-- A step keeps the form of either storage. -/
theorem formed_step (h : s.formed κ) : answerFormed κ (step s) := formed_choose (formed_passTime h)

/-- Settles O55: with the storage of DRAM and the host's pages, by the rule of a step. -/
theorem stepKeepsMemoryForm : Obligations.StepKeepsMemoryForm := by
  intro s t h e
  have kept := formed_step ((formed_memory_iff s).mpr h)
  rw [e] at kept
  exact (formed_memory_iff t).mp kept

/-- Settles O56: with the storage of buffers and C-stores, by the rule of a step. -/
theorem stepKeepsBufferForm : Obligations.StepKeepsBufferForm := by
  intro s t h e
  have kept := formed_step ((formed_buffers_iff s).mpr h)
  rw [e] at kept
  exact (formed_buffers_iff t).mp kept

end Sys2Proof.Machine
end

section
/-! The buffers of a core: bytes that a party writes after every write that comes before it (08 R172, 09 R203 to R205). -/
namespace Sys2Proof.Machine

/-! ### Little-endian bytes -/

theorem leBytes_eq_map (n x : Nat) : leBytes n x = (List.range n).map (fun i => BitVec.ofNat 8 (x / 2 ^ (8 * i))) := by
  induction n generalizing x with
  | zero => rfl
  | succ n ih =>
    rw [leBytes, ih, List.range_succ_eq_map, List.map_cons, List.map_map]
    congr 1
    · exact BitVec.eq_of_toNat_eq (by simp)
    · refine List.map_congr_left fun i _ => congrArg (BitVec.ofNat 8) ?_
      rw [Nat.div_div_eq_div_mul, Nat.mul_succ, Nat.add_comm (8 * i) 8, Nat.pow_add]

theorem leBytes_length (n x : Nat) : (leBytes n x).length = n := by simp [leBytes_eq_map]

theorem leBytes_take {m n : Nat} (h : m ≤ n) (x : Nat) : (leBytes n x).take m = leBytes m x := by
  rw [leBytes_eq_map, leBytes_eq_map, ← List.map_take, List.take_range, Nat.min_eq_left h]

/-- A word below more bytes. -/
theorem leBytes_word (n y : Nat) (v : Word) :
    leBytes (4 + n) (v.toNat + 2 ^ 32 * y) = leBytes 4 v.toNat ++ leBytes n y := by
  have hv := v.isLt
  rw [Nat.add_comm 4 n]
  simp only [leBytes, List.cons_append, List.nil_append]
  refine List.cons_eq_cons.mpr ⟨congrArg _ (by omega), List.cons_eq_cons.mpr ⟨congrArg _ (by omega),
    List.cons_eq_cons.mpr ⟨congrArg _ (by omega), List.cons_eq_cons.mpr ⟨congrArg _ (by omega), congrArg _ (by omega)⟩⟩⟩⟩

/-- The bytes of registers are those of the number in them. -/
theorem regBytes_eq (s : State) (x : Acting) (l r n : Nat) :
    s.regBytes x.gang l r n = leBytes (4 * n) (regsNat s x l r n) := by
  induction n generalizing r with
  | zero => rfl
  | succ n ih =>
    rw [State.regBytes, regsNat, ih, Nat.mul_succ, Nat.add_comm (4 * n) 4, leBytes_word]

/-! ### Bytes set one after another -/

/-- Bytes of a memory set one after another. -/
def setCells (m : Mem) (cells : List Host.Cell) : Mem := cells.foldl (fun m c => memSet m c.1 c.2) m

theorem setCells_append (m : Mem) (xs ys : List Host.Cell) : setCells m (xs ++ ys) = setCells (setCells m xs) ys :=
  List.foldl_append ..

/-- What a canonical memory holds after bytes were set that agree with one function of the address. -/
theorem memByte_setCells {m : Mem} (h : memCanon m = true) {cells : List Host.Cell} {f : Nat → Byte}
    (agree : ∀ c ∈ cells, c.2 = f c.1) (k : Nat) :
    memByte (setCells m cells) k = if k ∈ cells.map (·.1) then f k else memByte m k := by
  induction cells generalizing m with
  | nil => rfl
  | cons c cells ih =>
    have first := agree c List.mem_cons_self
    have later := ih (memCanon_memSet h c.1 c.2) (fun d hd => agree d (List.mem_cons_of_mem _ hd))
    refine later.trans ?_
    simp only [List.map_cons, List.mem_cons]
    by_cases again : k ∈ cells.map (·.1)
    · rw [if_pos again, if_pos (.inr again)]
    · rw [if_neg again]
      by_cases here : k = c.1
      · rw [if_pos (.inl here), here, memByte_memSet_self h, first]
      · rw [memByte_memSet_ne _ _ here, if_neg (fun e => e.elim here again)]

/-! ### Writes of a party into a buffer -/

/-- One buffer of a core. -/
def Core.buffer (c : Core) (wbuf : Bool) : Mem := if wbuf then c.wbuf else c.abuf

/-- A party has set bytes of one buffer of a core: of the other buffer and the other cores nothing has changed, and what came
before the party still does. -/
structure BufferPut (s t : State) (w : BufParty) (wbuf : Bool) (core : Nat) (cells : List Host.Cell) : Prop where
  rest : t = { s with cores := t.cores }
  others : ∀ c, c ≠ core → t.core c = s.core c
  buffer : (t.core core).buffer wbuf = setCells ((s.core core).buffer wbuf) cells
  other : (t.core core).buffer (!wbuf) = (s.core core).buffer (!wbuf)
  olds : (∀ e ∈ (s.core core).olds, e.before w.gang w.vc = true) → ∀ e ∈ (t.core core).olds, e.before w.gang w.vc = true

namespace BufferPut
variable {s t u : State} {w : BufParty} {wbuf : Bool} {core : Nat}

theorem refl (s : State) : BufferPut s s w wbuf core [] := ⟨rfl, fun _ _ => rfl, rfl, rfl, fun h => h⟩

theorem trans {xs ys : List Host.Cell} (h : BufferPut s t w wbuf core xs) (k : BufferPut t u w wbuf core ys) :
    BufferPut s u w wbuf core (xs ++ ys) where
  rest := by rw [k.rest, h.rest]
  others c hc := (k.others c hc).trans (h.others c hc)
  buffer := by rw [k.buffer, h.buffer, setCells_append]
  other := k.other.trans h.other
  olds before := k.olds (h.olds before)

end BufferPut

theorem bufferPut_onCore (s : State) {w : BufParty} {wbuf : Bool} {core : Nat} {cells : List Host.Cell} {f : Core → Core}
    (buffer : (f (s.core core)).buffer wbuf = setCells ((s.core core).buffer wbuf) cells)
    (other : (f (s.core core)).buffer (!wbuf) = (s.core core).buffer (!wbuf))
    (olds : (∀ e ∈ (s.core core).olds, e.before w.gang w.vc = true) →
      ∀ e ∈ (f (s.core core)).olds, e.before w.gang w.vc = true) :
    BufferPut s (s.onCore core f) w wbuf core cells := by
  have new : (s.onCore core f).core core = f (s.core core) := assocGet_assocSet_self ..
  exact ⟨rfl, fun c hc => assocGet_assocSet_ne _ _ _ hc, new ▸ buffer, new ▸ other, new ▸ olds⟩

theorem bufWrite_puts (s : State) (w : BufParty) (wbuf : Bool) (core o : Nat) (b : Byte) :
    BufferPut s (s.bufWrite wbuf core o [b]) w wbuf core [(o, b)] := by
  cases wbuf
  · exact bufferPut_onCore s rfl rfl fun h => h
  · exact bufferPut_onCore s rfl rfl fun h => h

/-- Writes by one party, one after another. -/
theorem BufferPut.foldl {α : Type} {w : BufParty} {wbuf : Bool} {core : Nat} {f : State → α → State}
    {cells : α → List Host.Cell} {as : List α} {s t : State} {xs : List Host.Cell} (h : BufferPut s t w wbuf core xs)
    (hf : ∀ u, (∀ e ∈ (u.core core).olds, e.before w.gang w.vc = true) →
      ∀ a ∈ as, BufferPut u (f u a) w wbuf core (cells a))
    (before : ∀ e ∈ (s.core core).olds, e.before w.gang w.vc = true) :
    BufferPut s (as.foldl f t) w wbuf core (xs ++ as.flatMap cells) := by
  induction as generalizing t xs with
  | nil => simpa using h
  | cons a as ih =>
    rw [List.foldl_cons, List.flatMap_cons, ← List.append_assoc]
    exact ih (h.trans (hf t (h.olds before) a List.mem_cons_self))
      fun u hu b hb => hf u hu b (List.mem_cons_of_mem _ hb)

/-- Where every write comes before the party, its own write of a unit is the newest one. -/
theorem unitPut_puts {s : State} {w : BufParty} {wbuf : Bool} {core : Nat}
    (before : ∀ e ∈ (s.core core).olds, e.before w.gang w.vc = true) (unit : Nat) (part : List (Nat × Byte))
    (atomic : Bool) :
    BufferPut s (s.unitPut w wbuf core unit part atomic) w wbuf core (part.map (fun p => (4 * unit + p.1, p.2))) := by
  obtain ⟨new, gang, put⟩ : ∃ new : OldUnit, new.gang = w.gang ∧ s.unitPut w wbuf core unit part atomic =
      (part.foldl (fun s p => s.bufWrite wbuf core (4 * unit + p.1) [p.2]) s).onCore core
        (fun c => { c with olds := (s.core core).olds ++ [new] }) := by
    refine ⟨{ wbuf := wbuf, unit := unit, bytes := s.bufRead wbuf core (4 * unit) 4, mask := part.map (·.1),
              gang := w.gang, party := w.party, clk := w.clk, atomic := atomic }, rfl, ?_⟩
    unfold State.unitPut
    dsimp only
    split
    · rfl
    · rename_i e last
      have old : e ∈ (s.core core).olds := (List.mem_filter.mp (List.mem_of_getLast? last)).1
      have seen : e.seenBy w.gang w.vc = true := Bool.or_eq_true_iff.mpr (.inr (before e old))
      simp only [seen, Bool.not_true, Bool.and_false, Bool.false_and, Bool.false_eq_true, if_false]
  have cells := (BufferPut.refl (w := w) (wbuf := wbuf) (core := core) s).foldl
    (f := fun s p => s.bufWrite wbuf core (4 * unit + p.1) [p.2]) (cells := fun p => [(4 * unit + p.1, p.2)]) (as := part)
    (fun u _ p _ => bufWrite_puts u w wbuf core _ _) before
  rw [List.nil_append, ← List.map_eq_flatMap] at cells
  rw [put, ← List.append_nil (part.map _)]
  refine cells.trans (bufferPut_onCore _ rfl rfl fun _ e he => ?_)
  rcases List.mem_append.mp he with he | he
  · exact before e he
  · rw [List.mem_singleton.mp he]
    exact Bool.or_eq_true_iff.mpr (.inl (beq_iff_eq.mpr gang))

/-- Bytes that a party writes where every write comes before it. -/
theorem bufPut_puts {s : State} {w : BufParty} {wbuf : Bool} {core : Nat}
    (before : ∀ e ∈ (s.core core).olds, e.before w.gang w.vc = true) (o : Nat) (bs : List Byte) (atomic : Bool) :
    ∃ cells, BufferPut s (s.bufPut w wbuf core o bs atomic) w wbuf core cells ∧
      ∀ c, c ∈ cells ↔ c ∈ bs.zipIdx.map (fun p => (o + p.2, p.1)) := by
  refine ⟨_, (BufferPut.refl s).foldl (fun u hu unit _ => unitPut_puts hu unit _ atomic) before, fun c => ?_⟩
  generalize bs.zipIdx.map (fun p => (o + p.2, p.1)) = all
  simp only [List.nil_append, List.mem_flatMap, List.mem_dedup, List.mem_map, List.mem_filter, beq_iff_eq]
  constructor
  · rintro ⟨unit, -, p, ⟨q, ⟨hq, rfl⟩, rfl⟩, rfl⟩
    rwa [Nat.div_add_mod]
  · exact fun hc => ⟨c.1 / 4, ⟨c, hc, rfl⟩, (c.1 % 4, c.2), ⟨c, ⟨hc, rfl⟩, rfl⟩, by rw [Nat.div_add_mod]⟩

/-- What a buffer holds after a party has written a number, where every write comes before it. -/
theorem bufPut_bytes {s : State} {w : BufParty} {wbuf : Bool} {core : Nat}
    (before : ∀ e ∈ (s.core core).olds, e.before w.gang w.vc = true)
    (canon : memCanon ((s.core core).buffer wbuf) = true) (o n v : Nat) (atomic : Bool) (k : Nat) :
    memByte (((s.bufPut w wbuf core o (leBytes n v) atomic).core core).buffer wbuf) k =
      if o ≤ k ∧ k < o + n then BitVec.ofNat 8 (v / 2 ^ (8 * (k - o))) else memByte ((s.core core).buffer wbuf) k := by
  obtain ⟨cells, stored, mem⟩ := bufPut_puts (w := w) (wbuf := wbuf) before o (leBytes n v) atomic
  have written (c : Host.Cell) : c ∈ cells ↔ ∃ i < n, c = (o + i, BitVec.ofNat 8 (v / 2 ^ (8 * i))) := by
    rw [mem c, leBytes_eq_map]
    simp only [List.mem_map, List.mem_zipIdx_iff_getElem?, List.getElem?_map, Option.map_eq_some_iff, Prod.exists]
    constructor
    · rintro ⟨b, i, ⟨j, hj, rfl⟩, rfl⟩
      obtain ⟨hi, rfl⟩ := List.getElem?_eq_some_iff.mp hj
      rw [List.getElem_range]
      exact ⟨i, by simpa using hi, rfl⟩
    · rintro ⟨i, hi, rfl⟩
      exact ⟨_, i, ⟨i, List.getElem?_range hi, rfl⟩, rfl⟩
  rw [stored.buffer, memByte_setCells canon (f := fun k => BitVec.ofNat 8 (v / 2 ^ (8 * (k - o))))]
  · refine if_congr ?_ rfl rfl
    simp only [List.mem_map, written]
    constructor
    · rintro ⟨-, ⟨i, hi, rfl⟩, rfl⟩
      exact ⟨Nat.le_add_right .., Nat.add_lt_add_left hi _⟩
    · rintro ⟨lo, hi⟩
      exact ⟨_, ⟨k - o, by omega, rfl⟩, by dsimp only; omega⟩
  · intro c hc
    obtain ⟨i, -, rfl⟩ := (written c).mp hc
    rw [Nat.add_sub_cancel_left]

/-! ### A store word of one lane -/

theorem popCount_maskOf_single : ∀ l < 64, popCount 64 (maskOf [l]).toNat = 1 := by decide

/-- A cohort of one lane issues its store as one part when a record is free (09 R200). -/
theorem part_of_single {s : State} {x : Acting} {l : Nat} (hl : x.lanes = [l]) (hdone : x.co.done = 0)
    (free : 1 ≤ s.sfqFree x.gang.core) :
    partOf (x.co.mask &&& ~~~x.co.done) (s.sfqEver x) = x.co.mask ∧ popCount 64 x.co.mask.toNat = 1 := by
  have one : popCount 64 x.co.mask.toNat = 1 := by
    rw [show x.co.mask = maskOf [l] from hl ▸ (maskOf_lanesOf _).symm]
    exact popCount_maskOf_single l (lane_lt_64 (hl ▸ List.mem_singleton_self l))
  have ever : 1 ≤ s.sfqEver x := by
    have held := List.length_filter_le (fun r : SfRec => r.gang == x.gid && x.co.mask.getLsbD r.lane)
      (s.core x.gang.core).sfq
    unfold State.sfqFree at free
    unfold State.sfqEver
    omega
  refine ⟨?_, one⟩
  unfold partOf
  rw [hdone, and_not_zero, if_pos (one.trans_le ever)]

/-- A cohort that has issued its store for all its lanes. -/
def Cohort.storing (c : Cohort) (num : Nat) : Cohort := { c with done := c.done ||| c.mask, num := num }

/-- The state in which the stores of a cohort are done, when they are done as one part. -/
def State.storing (s : State) (x : Acting) : State :=
  s.issue.onCohort (fun c => { c with done := c.done ||| x.co.mask, num := x.wordSeq })

theorem storing_becomes {s : State} {x : Acting} (hx : s.acting = some x) : ∃ g, GangBecomes s (s.storing x) x.gid g ∧
    (x.issued s).Moves g (fun _ p => p) ∧ assocGet? g.cohorts s.cur.2 = some (x.co.storing x.wordSeq) := by
  obtain ⟨-, -, hc, -⟩ := acting_gang hx
  exact ⟨_, (becomes_issue hx).onCohort _, onCohort_moves .., onCohort_cohort (g := x.issued s) hc _⟩

/-- A store of one lane whose stores change the cores alone: the lane goes on, and no result is outstanding for it. -/
theorem storeWord_goes_on {s : State} {x : Acting} {l : Nat} (hx : s.acting = some x) (hplain : x.plain)
    (hl : x.lanes = [l]) (hdone : x.co.done = 0) (free : 1 ≤ s.sfqFree x.gang.core)
    {k : State → Acting → List Nat → State} {cs : List (Nat × Core)}
    (cores : k (s.storing x) x [l] = { s.storing x with cores := cs }) :
    ∃ h, GangBecomes { s with cores := cs } (s.storeWord k) x.gid h ∧ NoResult (s.storeWord k) x ∧
      Stand x h (fun _ => x.co.nextPc) ∧ ∀ i, (x.gang.lane i).sameBut (h.lane i) := by
  obtain ⟨-, -, -, ht⟩ := acting_gang hx
  obtain ⟨part, one⟩ := part_of_single hl hdone free
  obtain ⟨g, stores, moves, cohort⟩ := storing_becomes hx
  have becomes := stores.withCores cs
  rw [← cores] at becomes
  have finishes : s.storeWord k = (k (s.storing x) x [l]).finish := by
    unfold State.storeWord
    rw [act_of_acting hx]
    dsimp only
    rw [part, one, if_pos free, if_pos hdone, show lanesOf x.co.mask = [l] from hl]
    refine (act_of_acting (acting_of_becomes becomes cohort (moves.keeps.team ▸ ht)) _).trans (if_pos ?_)
    simp [Cohort.storing, hdone]
  obtain ⟨h, ends, goes⟩ := finish_becomes becomes cohort hplain.2 (moves.keeps.team ▸ ht)
  rw [← finishes] at ends
  have whole := moves.trans goes
  exact ⟨h, ends, noResult_of ends.gang whole.seq whole.results, stand_of_pcs whole.pcs,
    ((issued_keeps s x).trans whole.keeps).lanes⟩

/-! ### Scratch offsets (08 R172) -/

/-- A cohort without A-buffer atomics in flight has none to follow. -/
theorem afterScratch_eq {s : State} {x : Acting} (hx : s.acting = some x)
    (landed : ∀ y ∈ s.accesses, y.2.scratchOf x.gid x.co.mask = false) (f : Acting → State → State) :
    s.afterScratch f = f x s := by
  have quiet : s.accesses.filter (fun p => p.2.scratchOf x.gid x.co.mask) = [] :=
    List.filter_eq_nil_iff.mpr fun y hy => Bool.eq_false_iff.mp (landed y hy)
  unfold State.afterScratch
  rw [act_of_acting hx]
  unfold State.landScratch
  rw [quiet]
  exact act_of_acting hx _

/-- An offset of a lane, as the statements write it. -/
def Acting.scratchAt (s : State) (x : Acting) (l : Nat) (a : Fin 128) (i : Fin 2048) (size : Nat) : Int :=
  (V s x l a).toNat + (BitVec.ofNat 11 i.val).toInt * size

theorem imm11_eq (i : Fin 2048) : imm11 i = (BitVec.ofNat 11 i.val).toInt := sext_eq_toInt 11 _ (by decide)

theorem scratchOff_eq (s : State) (x : Acting) (l : Nat) (a : Fin 128) (i : Fin 2048) (size : Nat) :
    scratchOff s x l a (imm11 i * size) = x.scratchAt s l a i size := by rw [imm11_eq]; rfl

/-- The first byte and the size of a team's own window of a buffer. -/
def Team.windowBase (t : Team) (wbuf : Bool) : Nat := if wbuf then t.wbase else t.abase
def Team.windowSize (t : Team) (wbuf : Bool) : Nat := if wbuf then t.wsize else t.asize

theorem scratchLoc_own {x : Acting} (own : x.gang.core = x.team.core) {wbuf : Bool} {o : Int}
    (within : 0 ≤ o ∧ o < x.team.windowSize wbuf) :
    scratchLoc x.team x.gang.core wbuf o = some (x.gang.core, x.team.windowBase wbuf + o.toNat) := by
  unfold scratchLoc
  rw [if_pos own]
  exact if_pos within

theorem scratchLoc_outside {x : Acting} (unpaired : x.team.paired = false) {wbuf : Bool} {o : Int}
    (outside : ¬ (0 ≤ o ∧ o < x.team.windowSize wbuf)) : scratchLoc x.team x.gang.core wbuf o = none := by
  unfold scratchLoc
  dsimp only
  rw [if_neg (show ¬ (0 ≤ o ∧ o < ((if wbuf then x.team.wsize else x.team.asize : Nat) : Int)) from outside), if_neg]
  rw [unpaired]
  simp

theorem scratchCheck_own {s : State} {x : Acting} (own : x.gang.core = x.team.core) {l : Nat} {a : Fin 128}
    {i : Fin 2048} {size : Nat} {wbuf : Bool} (aligned : x.scratchAt s l a i size % size = 0)
    (within : 0 ≤ x.scratchAt s l a i size ∧ x.scratchAt s l a i size < x.team.windowSize wbuf) :
    scratchCheck s x l a (imm11 i * size) size wbuf =
      .ok (x.gang.core, x.team.windowBase wbuf + (x.scratchAt s l a i size).toNat) := by
  unfold scratchCheck
  rw [scratchOff_eq]
  dsimp only
  rw [if_neg (not_not.mpr aligned), scratchLoc_own own within]

/-- A scratch store of one lane that every write of the buffer comes before (09 R203 to R205). -/
theorem scratchStore_does {s : State} {x : Acting} {l : Nat} {d a : Fin 128} {i : Fin 2048} (hx : s.acting = some x)
    (hplain : x.plain) (own : x.gang.core = x.team.core) (hl : x.lanes = [l]) (hdone : x.co.done = 0)
    (free : 1 ≤ s.sfqFree x.gang.core) (landed : ∀ y ∈ s.accesses, y.2.scratchOf x.gid x.co.mask = false)
    (before : ∀ e ∈ (s.core x.gang.core).olds, e.before x.gid (x.gang.lane l).vc = true) (wbuf : Bool) (size kind : Nat)
    (canon : memCanon ((s.core x.gang.core).buffer wbuf) = true) (aligned : x.scratchAt s l a i size % size = 0)
    (within : 0 ≤ x.scratchAt s l a i size ∧ x.scratchAt s l a i size < x.team.windowSize wbuf) :
    let t := s.scratchStore wbuf size kind d a i
    let o := x.team.windowBase wbuf + (x.scratchAt s l a i size).toNat
    t.mem = s.mem ∧ t.host = s.host ∧ NoResult t x ∧ (∀ c, c ≠ x.gang.core → t.core c = s.core c) ∧
      (∀ k, memByte ((t.core x.gang.core).buffer wbuf) k =
        if o ≤ k ∧ k < o + size then BitVec.ofNat 8 (regsNat s x l d.val ((size + 3) / 4) / 2 ^ (8 * (k - o)))
        else memByte ((s.core x.gang.core).buffer wbuf) k) ∧
      (t.core x.gang.core).buffer (!wbuf) = (s.core x.gang.core).buffer (!wbuf) ∧
      Then t x.gid (fun h => Stand x h (fun _ => x.co.nextPc) ∧ ∀ k, (x.gang.lane k).sameBut (h.lane k)) := by
  intro t o
  obtain ⟨g, stores, -, -⟩ := storing_becomes hx
  have same (c : Nat) : (s.storing x).core c = s.core c := by
    unfold State.core
    rw [stores.only.cores]
  have regs (l r : Nat) : (s.storing x).reg x.gang l r = s.reg x.gang l r := by
    unfold State.reg
    rw [show (s.storing x).tick = s.tick by rw [stores.rest]]
  have at_ : x.scratchAt (s.storing x) l a i size = x.scratchAt s l a i size := by
    unfold Acting.scratchAt V
    rw [regs]
  have value (n r : Nat) : regsNat (s.storing x) x l r n = regsNat s x l r n := by
    induction n generalizing r with
    | zero => rfl
    | succ n ih => rw [regsNat, regsNat, regs, ih]
  have check := scratchCheck_own (s := s.storing x) (wbuf := wbuf) own (at_.symm ▸ aligned) (at_.symm ▸ within)
  rw [at_] at check
  let w := (x.gang.lane l).bufParty x.gid l
  let v := regsNat s x l d.val ((size + 3) / 4)
  have before' : ∀ e ∈ ((s.storing x).core x.gang.core).olds, e.before w.gang w.vc = true := by
    rw [same]
    exact before
  have bytes : ((s.storing x).regBytes x.gang l d.val ((size + 3) / 4)).take size = leBytes size v := by
    rw [regBytes_eq, value, leBytes_take (by omega)]
  obtain ⟨cells, stored, -⟩ := bufPut_puts (w := w) (wbuf := wbuf) before' o (leBytes size v) false
  have held := bufPut_bytes (w := w) (wbuf := wbuf) before' ((same _).symm ▸ canon) o size v false
  obtain ⟨k, result, puts⟩ : ∃ k, t = s.storeWord k ∧
      k (s.storing x) x [l] = (s.storing x).bufPut w wbuf x.gang.core o (leBytes size v) false := by
    refine ⟨_, afterScratch_eq hx landed _, ?_⟩
    rw [List.foldl_cons, List.foldl_nil]
    dsimp only
    rw [check, bytes]
  obtain ⟨h, ends, noResult, stand, lanes⟩ := storeWord_goes_on hx hplain hl hdone free (puts.trans stored.rest)
  rw [← result] at ends noResult
  have cores (c : Nat) : t.core c = ((s.storing x).bufPut w wbuf x.gang.core o (leBytes size v) false).core c := by
    unfold State.core
    rw [ends.only.cores]
  refine ⟨ends.only.mem, by rw [ends.rest], noResult, fun c hc => ?_, fun k => ?_, ?_, h, ends.gang, stand, lanes⟩
  · rw [cores, ← same c]
    exact stored.others c hc
  · rw [cores, ← same]
    exact held k
  · rw [cores, ← same]
    exact stored.other

/-- Settles O35: the offset lies in the lane's own window, and every byte is the newest of its unit. -/
theorem scratchStores : Obligations.ScratchStores := by
  unfold Obligations.ScratchStores
  intro d a i s x l hx hplain unpaired own hl hdone free landed before
  have stores := fun wbuf size kind => scratchStore_does (d := d) (a := a) (i := i) hx hplain own hl hdone free landed
    before wbuf size kind
  simp only [List.forall_mem_cons]
  exact ⟨fun canon aligned low high => ⟨_, rfl, stores false 2 _ canon aligned ⟨low, high⟩⟩,
    fun canon aligned low high => ⟨_, rfl, stores false 4 _ canon aligned ⟨low, high⟩⟩,
    fun canon aligned low high => ⟨_, rfl, stores false 16 _ canon aligned ⟨low, high⟩⟩,
    fun canon aligned low high => ⟨_, rfl, stores true 16 _ canon aligned ⟨low, high⟩⟩, nofun⟩

end Sys2Proof.Machine
end

section
/-! Scratch loads: the newest bytes of a window, the trap 0x05 outside it, and the halt at a double-bit error (08 R172, R173,
09 R203, R204, 17 R322). -/
namespace Sys2Proof.Machine

/-! ### Little-endian numbers that are read -/

theorem memRead_eq_map (m : Mem) (a n : Nat) : memRead m a n = (List.range n).map (fun i => memByte m (a + i)) := by
  induction n generalizing a with
  | zero => rfl
  | succ n ih =>
    rw [memRead, ih, List.range_succ_eq_map, List.map_cons, List.map_map]
    exact congrArg _ (List.map_congr_left fun i _ => congrArg _ (by omega))

theorem memRead_length (m : Mem) (a n : Nat) : (memRead m a n).length = n := by simp [memRead_eq_map]

theorem ofLeBytes_lt (bs : List Byte) : ofLeBytes bs < 2 ^ (8 * bs.length) := by
  induction bs with
  | nil => simp [ofLeBytes]
  | cons b bs ih =>
    have hb := b.isLt
    rw [ofLeBytes, List.length_cons, Nat.mul_succ, Nat.pow_add]
    omega

/-- What a load without sign gives its registers, as the model lists it. -/
theorem loadWords_loaded {size : Nat} (hsize : size ∈ [2, 4, 16]) (d : Nat) {bs : List Byte} (length : bs.length = size) :
    ((List.range ((size + 3) / 4)).zip (loadWords size false bs)).map (fun p => (d + p.1, some p.2)) =
      (loaded size false d bs).map (fun p => (p.1, some p.2)) := by
  have lt := ofLeBytes_lt bs
  rw [length] at lt
  unfold loaded
  rw [if_neg (fun h => Bool.false_ne_true h.2), Nat.mod_eq_of_lt lt]
  simp only [List.mem_cons, List.not_mem_nil, or_false] at hsize
  rcases hsize with rfl | rfl | rfl
  · simp [loadWords, Nat.mod_eq_of_lt (show ofLeBytes bs < 65536 from lt)]
  · rfl
  · rfl

/-! ### What a buffer shows -/

/-- The poisoned units of one buffer of a core, and its bytes with double-bit errors. -/
def Core.bad (c : Core) (wbuf : Bool) : List Nat := if wbuf then c.wBad else c.aBad
def Core.err (c : Core) (wbuf : Bool) : List Nat := if wbuf then c.wErr else c.aErr

/-- Where every write comes before the reader, a unit shows what it holds. -/
theorem unitViews_newest {s : State} {core : Nat} {gang : Nat} {vc : Clock}
    (before : ∀ e ∈ (s.core core).olds, e.before gang vc = true) (wbuf : Bool) (unit : Nat) :
    s.unitViews wbuf core unit (fun e => e.seenBy gang vc) = [s.bufRead wbuf core (4 * unit) 4] := by
  have seen : (unitOlds (s.core core).olds wbuf unit).reverse.takeWhile (fun e => !e.seenBy gang vc) = [] := by
    refine List.takeWhile_eq_nil_iff.mpr fun some hidden => ?_
    have old := List.mem_reverse.mp (List.getElem_mem some)
    have newest : OldUnit.seenBy _ gang vc = true :=
      Bool.or_eq_true_iff.mpr (.inr (before _ (List.mem_filter.mp old).1))
    rw [List.get_eq_getElem, newest] at hidden
    exact Bool.false_ne_true hidden
  unfold State.unitViews unitChoices
  rw [seen]
  rfl

/-- Where every write comes before the reader, it finds the bytes that the buffer holds. -/
theorem bufSeen_newest {s : State} {core : Nat} {gang : Nat} {vc : Clock}
    (before : ∀ e ∈ (s.core core).olds, e.before gang vc = true) (wbuf : Bool) (o n tag : Nat) :
    s.bufSeen wbuf core o n tag (fun e => e.seenBy gang vc) = memRead ((s.core core).buffer wbuf) o n := by
  rw [memRead_eq_map]
  unfold State.bufSeen
  refine List.map_congr_left fun i _ => ?_
  dsimp only
  rw [unitViews_newest before]
  dsimp only
  unfold State.bufRead
  rw [memRead_eq_map]
  have low := Nat.mod_lt (o + i) (by decide : 4 > 0)
  rw [List.getD_eq_getElem _ _ (by simpa using low), List.getElem_map, List.getElem_range, Nat.div_add_mod]
  rfl

/-! ### Results of loads -/

theorem pend_rest (l : Nat) (long isLoad pair : Bool) (ws : List (Nat × Option Word)) (n : Nat) (g : Gang) :
    g.pend n l long isLoad pair ws = { g with results := (g.pend n l long isLoad pair ws).results } := by
  induction ws generalizing n g with
  | nil => rfl
  | cons w ws ih =>
    rw [Gang.pend]
    exact ih _ _

/-- A gang of which lanes have been given results, and in which nothing else has changed. -/
structure Gang.Given (g h : Gang) (given : Nat × Pending → Prop) : Prop where
  rest : h = { g with results := h.results }
  kept : ∀ r ∈ g.results, r ∈ h.results
  new : ∀ r ∈ h.results, r ∈ g.results ∨ given r

/-- One lane is given the values of its load. -/
def State.giveLoad (s : State) (k l : Nat) (ws : List (Nat × Option Word)) : State :=
  { s.onGang k (fun g => g.pend s.nextId l false true false ws) with nextId := s.nextId + ws.length }

/-- Values of loads are given to lanes, one after another (06 R114). -/
theorem loads_become {s u : State} {k : Nat} {g : Gang} (h : GangBecomes s u k g) (ls : List Nat)
    (ws : Nat → List (Nat × Option Word)) :
    ∃ g', GangBecomes s (ls.foldl (fun s l => s.giveLoad k l (ws l)) u) k g' ∧
      g.Given g' (fun r => ∃ l ∈ ls, ∃ p ∈ ws l, r.2 = ⟨l, p.1, g.seq, p.2, false, true, false, none⟩) ∧
      ∀ l ∈ ls, ∀ p ∈ ws l, ∃ id, (id, (⟨l, p.1, g.seq, p.2, false, true, false, none⟩ : Pending)) ∈ g'.results := by
  induction ls generalizing u g with
  | nil => exact ⟨g, h, ⟨rfl, fun _ hr => hr, fun _ hr => .inl hr⟩, nofun⟩
  | cons l ls ih =>
    obtain ⟨seq, kept, given, new⟩ := pend_results l false true false (ws l) u.nextId g
    have rest := pend_rest l false true false (ws l) u.nextId g
    have next := (h.onGang (fun g => g.pend u.nextId l false true false (ws l))).nextId (u.nextId + (ws l).length)
    obtain ⟨g', becomes, later, values⟩ := ih next
    rw [seq] at later values
    refine ⟨g', becomes, ⟨?_, fun r hr => later.kept r (kept r hr), fun r hr => ?_⟩, ?_⟩
    · rw [later.rest, rest]
    · rcases later.new r hr with hr | ⟨j, hj, value⟩
      · exact (new r hr).imp_right fun value => ⟨l, List.mem_cons_self, value⟩
      · exact .inr ⟨j, List.mem_cons_of_mem _ hj, value⟩
    · intro j hj p hp
      rcases List.mem_cons.mp hj with rfl | hj
      · obtain ⟨id, hid⟩ := given p hp
        exact ⟨id, later.kept _ hid⟩
      · exact values j hj p hp

/-- A word that issues with the values of loads and lets its cohort go on. -/
theorem loads_go_on {s : State} {x : Acting} (hx : s.acting = some x) (hplain : x.plain) (out : Nat → List (Nat × Word)) :
    let t := (x.lanes.foldl (fun s l => s.giveLoad x.gid l ((out l).map (fun p => (p.1, some p.2)))) s.issue).finish
    GangStep s t x.gid ∧ Wrote t x out := by
  obtain ⟨-, hg, hc, -⟩ := acting_gang hx
  obtain ⟨g, becomes, ⟨rest, kept, new⟩, values⟩ :=
    loads_become (becomes_issue hx) x.lanes (fun l => (out l).map (fun p => (p.1, some p.2)))
  obtain ⟨h, ends, moves⟩ := goes_on hx hplain becomes (by rw [rest]; exact hc) (by rw [rest]; rfl)
  have keeps : GangKeeps x.gang g := by
    rw [rest]
    exact ⟨fun _ => rfl, rfl, rfl, rfl, rfl, rfl, rfl, rfl, rfl, rfl, rfl⟩
  have seq : g.seq = x.gang.seq + 1 := by rw [rest]; rfl
  refine ⟨ends.step hg (keeps.trans moves.keeps), fun l hl p hp => ?_, h, ends.gang, moves.seq.trans seq,
    fun r hr => moves.results ▸ kept r hr, fun r hr => ?_⟩
  · obtain ⟨id, hid⟩ := values l hl (p.1, some p.2) (List.mem_map.mpr ⟨p, hp, rfl⟩)
    exact ⟨h, ends.gang, id, _, _, _, moves.results ▸ hid⟩
  · refine (new r (moves.results ▸ hr)).imp_right fun ⟨l, hl, q, hq, value⟩ => ?_
    obtain ⟨p, hp, rfl⟩ := List.mem_map.mp hq
    exact ⟨l, hl, p, hp, by rw [value], by rw [value], by rw [value]⟩

/-! ### A halt of the acting team (17 R322, R331) -/

theorem onGangs_teams (s : State) (ks : List Nat) (f : Gang → Gang) :
    (ks.foldl (fun s k => s.onGang k f) s).teams = s.teams := by
  induction ks generalizing s with
  | nil => rfl
  | cons k ks ih => rw [List.foldl_cons, ih, onGang_rest]

theorem stopTeam_halts {s : State} {t : Nat} {tm : Team} (h : s.team? t = some tm) :
    (s.stopTeam t).team? t = some { tm with halted := true } := by
  have stays (u : State) (teams : u.teams = s.teams) :
      (u.onTeam t (fun x => { x with halted := true })).team? t = some { tm with halted := true } := by
    unfold State.onTeam State.team? at *
    rw [teams, h]
    exact assocGet?_assocSet_self ..
  unfold State.stopTeam
  rw [h]
  dsimp only
  split
  · exact stays _ ((onGangs_teams ..).trans (coherenceStep_publishPins ..).teams)
  · exact stays _ ((onGangs_teams ..).trans (coherenceStep_publishPins ..).teams)

theorem haltEntry_teams (s : State) (lease : Nat) (tenant : Option Nat) (lvl code core : Nat) :
    (s.haltEntry lease tenant lvl code core).teams = s.teams := by
  unfold State.haltEntry
  split
  · rw [(postStep_post ..).teams, onTenant_rest]
  · exact (postStep_post ..).teams

theorem hwHalt_halts {s : State} {t : Nat} {tm : Team} (h : s.team? t = some tm) (code : Nat) :
    (s.hwHalt t code).team? t = some { tm with halted := true } := by
  have stops := stopTeam_halts h
  unfold State.hwHalt
  rw [h]
  unfold State.team? at stops ⊢
  rw [haltEntry_teams, stops]

/-- A double-bit error halts the team of the lane that it reaches. -/
theorem laneError_halts {s : State} {t : Nat} {tm : Team} (h : s.team? t = some tm) (core : Nat) :
    (s.laneError core t).team? t = some { tm with halted := true } := by
  refine hwHalt_halts ?_ _
  unfold State.team? State.machineError State.countAt at *
  exact (congrArg (assocGet? · t) (postStep_post ..).teams).trans h

/-! ### A trap that ends its cohort -/

/-- A cohort outside every handler that has trapped as a whole is no more. -/
theorem trap_ends {s u : State} {x : Acting} {g : Gang} (hx : s.acting = some x) (h : GangBecomes s u x.gid g)
    (lanes : g.lanes = x.gang.lanes) (frames : g.frames = x.gang.frames) (team : g.team = x.gang.team)
    (hc : assocGet? g.cohorts s.cur.2 = some x.co) (htrap : x.mayTrap) (hm : x.co.mask ≠ 0) {i : TrapInfo}
    (noPage : i.cause < 0x06) : (u.trap x.co.mask i).acting = none := by
  obtain ⟨-, -, -, ht⟩ := acting_gang hx
  have left := h.leave x.co.mask
  have gone : assocGet? (g.leaving s.cur.2 x.co.mask).cohorts s.cur.2 = none := by
    rw [leaving_cohort hc, if_pos (BitVec.and_not_self _)]
  have still := leaving_moves g s.cur.2 x.co.mask
  have lane (l : Nat) : (g.leaving s.cur.2 x.co.mask).lane l = x.gang.lane l := by
    have same : (g.leaving s.cur.2 x.co.mask).lanes = g.lanes := by
      unfold Gang.leaving
      split
      · rfl
      · split <;> rfl
    unfold Gang.lane
    rw [same, lanes]
  have leftTeam : (u.leave x.co.mask).team? (g.leaving s.cur.2 x.co.mask).team = some x.team := by
    rw [left.rest, still.keeps.team, team]
    exact ht
  have trap : u.trap x.co.mask i =
      (u.leave x.co.mask).enterFrame x.gid x.co.mask x.pc x.co.repIdx x.co.word false i := by
    unfold State.trap
    rw [act_of_acting (acting_of_becomes h hc (team ▸ ht)), BitVec.and_self, if_neg hm]
    exact trapLanes_enters left.gang leftTeam noPage ..
  rw [trap, enterFrame_enters left.gang leftTeam ((congrArg Lane.frame (lane _)).trans (htrap.1 x.leader (leader_mem hm)))
    (by rw [still.keeps.frames, frames]; exact htrap.2)]
  exact acting_ended ((left.nextId _).setGang _) gone

/-- The trap of a cohort of one lane at the end of its word. -/
theorem trapEach_single {s : State} {x : Acting} {l : Nat} (hx : s.acting = some x) (hl : x.lanes = [l])
    (htrap : x.mayTrap) {i : TrapInfo} (noPage : i.cause < 0x06) :
    TookTrap s (s.issue.trapEach [(l, i)]).finish x (maskOf [l]) i.cause i.tinfo i.taddr := by
  obtain ⟨-, -, hc, -⟩ := acting_gang hx
  have mask : maskOf [l] = x.co.mask := by rw [← hl]; exact maskOf_lanesOf _
  have some : x.co.mask ≠ 0 := mask_ne_zero (hl ▸ List.mem_singleton_self l)
  have each : s.issue.trapEach [(l, i)] = s.issue.trap x.co.mask i := by rw [← mask]; rfl
  rw [each, mask, finish_ended (trap_ends hx (becomes_issue hx) rfl rfl rfl hc htrap some noPage)]
  exact (trap_takes hx (becomes_issue hx) rfl rfl rfl hc htrap some (by omega)).1

/-! ### The words -/

section
variable {s : State} {x : Acting} {d a : Fin 128} {i : Fin 2048} {wbuf : Bool} {size : Nat}

/-- An aligned offset within the team's own window. -/
def Acting.inWindow (s : State) (x : Acting) (a : Fin 128) (i : Fin 2048) (wbuf : Bool) (size l : Nat) : Prop :=
  x.scratchAt s l a i size % size = 0 ∧ 0 ≤ x.scratchAt s l a i size ∧
    x.scratchAt s l a i size < x.team.windowSize wbuf

/-- The byte of the buffer that an offset within the window names. -/
def Acting.windowByte (s : State) (x : Acting) (a : Fin 128) (i : Fin 2048) (wbuf : Bool) (size l : Nat) : Nat :=
  x.team.windowBase wbuf + (x.scratchAt s l a i size).toNat

theorem inWindow_check (own : x.gang.core = x.team.core) {l : Nat} (h : x.inWindow s a i wbuf size l) :
    scratchCheck s x l a (imm11 i * size) size wbuf = .ok (x.gang.core, x.windowByte s a i wbuf size l) :=
  scratchCheck_own own h.1 h.2

theorem scratchCheck_outside (unpaired : x.team.paired = false) {l : Nat}
    (aligned : x.scratchAt s l a i size % size = 0)
    (outside : ¬ (0 ≤ x.scratchAt s l a i size ∧ x.scratchAt s l a i size < x.team.windowSize wbuf)) :
    scratchCheck s x l a (imm11 i * size) size wbuf =
      .error { cause := 0x05, tinfo := spaceInfo (if wbuf then 2 else 1) size,
               taddr := wrap 64 (x.scratchAt s l a i size) } := by
  unfold scratchCheck
  rw [scratchOff_eq]
  dsimp only
  rw [if_neg (not_not.mpr aligned), scratchLoc_outside unpaired outside]

/-- What a scratch load gives one lane: its registers, or its trap. -/
def scratchOut (s : State) (x : Acting) (wbuf : Bool) (size : Nat) (d a : Fin 128) (i : Fin 2048) (l : Nat) :
    Except TrapInfo (List (Nat × Option Word)) :=
  match scratchCheck s x l a (imm11 i * size) size wbuf with
  | .error e => .error e
  | .ok (c, o) =>
    if s.bufBad wbuf c o then .error { cause := 0x12, taddr := wrap 64 (scratchOff s x l a (imm11 i * size)) }
    else .ok (((List.range ((size + 3) / 4)).zip
      (loadWords size false (s.bufSeen wbuf c o size l (fun e => e.seenBy x.gid (x.gang.lane l).vc)))).map
        (fun p => (d.val + p.1, some p.2)))

/-- A scratch load of a cohort without A-buffer atomics in flight, in terms of what it gives each lane. -/
theorem scratchLoad_eq (hx : s.acting = some x) (landed : ∀ y ∈ s.accesses, y.2.scratchOf x.gid x.co.mask = false) :
    s.scratchLoad wbuf size d a i =
      if s.anyErr wbuf size (x.lanes.filterMap (fun l =>
        (scratchCheck s x l a (imm11 i * size) size wbuf).toOption)) then s.issue.laneError x.gang.core x.gang.team
      else
        (((x.lanes.map (fun l => (l, scratchOut s x wbuf size d a i l))).foldl (fun s p => match p.2 with
          | .ok ws => s.giveLoad x.gid p.1 ws
          | .error _ => s) s.issue).trapEach
          ((x.lanes.map (fun l => (l, scratchOut s x wbuf size d a i l))).filterMap (fun p => match p.2 with
            | .ok _ => none
            | .error e => some (p.1, e)))).finish := afterScratch_eq hx landed _

/-- A load of lanes within their window, without errors there. -/
theorem scratchLoad_gives (hx : s.acting = some x) (hplain : x.plain) (own : x.gang.core = x.team.core)
    (landed : ∀ y ∈ s.accesses, y.2.scratchOf x.gid x.co.mask = false)
    (before : ∀ e ∈ (s.core x.gang.core).olds, ∀ l ∈ x.lanes, e.before x.gid (x.gang.lane l).vc = true)
    (hsize : size ∈ [2, 4, 16]) (within : ∀ l ∈ x.lanes, x.inWindow s a i wbuf size l)
    (good : ∀ l ∈ x.lanes, s.bufBad wbuf x.gang.core (x.windowByte s a i wbuf size l) = false ∧
      s.bufErr wbuf x.gang.core (x.windowByte s a i wbuf size l) size = false) :
    GangStep s (s.scratchLoad wbuf size d a i) x.gid ∧ Wrote (s.scratchLoad wbuf size d a i) x (fun l =>
      loaded size false d.val (memRead ((s.core x.gang.core).buffer wbuf) (x.windowByte s a i wbuf size l) size)) := by
  have fine : s.anyErr wbuf size (x.lanes.filterMap (fun l =>
      (scratchCheck s x l a (imm11 i * size) size wbuf).toOption)) = false := by
    refine List.any_eq_false.mpr fun p hp => ?_
    obtain ⟨l, hl, here⟩ := List.mem_filterMap.mp hp
    rw [inWindow_check own (within l hl)] at here
    cases here
    exact Bool.eq_false_iff.mp (good l hl).2
  have outs : x.lanes.map (fun l => (l, scratchOut s x wbuf size d a i l)) = x.lanes.map (fun l => (l, .ok
      ((loaded size false d.val (memRead ((s.core x.gang.core).buffer wbuf)
        (x.windowByte s a i wbuf size l) size)).map (fun p => (p.1, some p.2))))) := by
    refine List.map_congr_left fun l hl => congrArg _ ?_
    unfold scratchOut
    rw [inWindow_check own (within l hl)]
    dsimp only
    rw [if_neg (Bool.eq_false_iff.mp (good l hl).1), bufSeen_newest (fun e he => before e he l hl),
      loadWords_loaded hsize _ (memRead_length ..)]
  rw [scratchLoad_eq hx landed, if_neg (Bool.eq_false_iff.mp fine), outs]
  simp only [List.foldl_map, List.filterMap_map, Function.comp_def, List.filterMap_none, trapEach_nil]
  exact loads_go_on hx hplain _

/-- A load of which a lane meets a double-bit error in its window halts the team. -/
theorem scratchLoad_halts (hx : s.acting = some x) (own : x.gang.core = x.team.core)
    (landed : ∀ y ∈ s.accesses, y.2.scratchOf x.gid x.co.mask = false) {l : Nat} (hl : l ∈ x.lanes)
    (within : x.inWindow s a i wbuf size l)
    (err : s.bufErr wbuf x.gang.core (x.windowByte s a i wbuf size l) size = true) :
    ∃ tm, (s.scratchLoad wbuf size d a i).team? x.gang.team = some tm ∧ tm.halted = true := by
  obtain ⟨-, -, -, ht⟩ := acting_gang hx
  have met : s.anyErr wbuf size (x.lanes.filterMap (fun l =>
      (scratchCheck s x l a (imm11 i * size) size wbuf).toOption)) = true := by
    refine List.any_eq_true.mpr ⟨(_, _), List.mem_filterMap.mpr ⟨l, hl, ?_⟩, err⟩
    rw [inWindow_check own within]
    rfl
  have team : s.issue.team? x.gang.team = some x.team := by
    unfold State.team?
    rw [(becomes_issue hx).only.teams]
    exact ht
  rw [scratchLoad_eq hx landed, if_pos met]
  exact ⟨_, laneError_halts team _, rfl⟩

/-- A load of one lane outside the windows traps. -/
theorem scratchLoad_traps (hx : s.acting = some x) (unpaired : x.team.paired = false)
    (landed : ∀ y ∈ s.accesses, y.2.scratchOf x.gid x.co.mask = false) (htrap : x.mayTrap) {l : Nat}
    (hl : x.lanes = [l]) (aligned : x.scratchAt s l a i size % size = 0)
    (outside : ¬ (0 ≤ x.scratchAt s l a i size ∧ x.scratchAt s l a i size < x.team.windowSize wbuf)) :
    TookTrap s (s.scratchLoad wbuf size d a i) x (maskOf [l]) 0x05 (spaceInfo (if wbuf then 2 else 1) size)
      (wrap 64 (x.scratchAt s l a i size)) := by
  have check := scratchCheck_outside (s := s) (wbuf := wbuf) unpaired aligned outside
  have fine : s.anyErr wbuf size ([l].filterMap (fun l =>
      (scratchCheck s x l a (imm11 i * size) size wbuf).toOption)) = false := by
    rw [List.filterMap_cons, check]
    rfl
  rw [scratchLoad_eq hx landed, hl, if_neg (Bool.eq_false_iff.mp fine), List.map_singleton]
  unfold scratchOut
  rw [check]
  exact trapEach_single hx hl htrap (show 0x05 < 0x06 by decide)

end

/-- Settles O34: the checks decide what each lane gets; no write is hidden from the lanes. -/
theorem scratchLoads : Obligations.ScratchLoads := by
  unfold Obligations.ScratchLoads
  intro d a i s x hx hplain unpaired own landed before
  have loads (wbuf : Bool) {size : Nat} (hsize : size ∈ [2, 4, 16]) (v : Instr)
      (run : exec v s = .next (s.scratchLoad wbuf size d a i)) :
      ((∀ l ∈ x.lanes, x.inWindow s a i wbuf size l ∧
          x.windowByte s a i wbuf size l / 64 ∉ (s.core x.gang.core).bad wbuf ∧
          errIn ((s.core x.gang.core).err wbuf) (x.windowByte s a i wbuf size l) size = false) →
        ∃ t, exec v s = .next t ∧ GangStep s t x.gid ∧ Wrote t x (fun l => loaded size false d.val
          (memRead ((s.core x.gang.core).buffer wbuf) (x.windowByte s a i wbuf size l) size))) ∧
      ((∃ l ∈ x.lanes, x.inWindow s a i wbuf size l ∧
          errIn ((s.core x.gang.core).err wbuf) (x.windowByte s a i wbuf size l) size = true) →
        ∃ t tm, exec v s = .next t ∧ t.team? x.gang.team = some tm ∧ tm.halted = true) ∧
      ∀ l, x.lanes = [l] → x.mayTrap → x.scratchAt s l a i size % size = 0 →
        ¬ (0 ≤ x.scratchAt s l a i size ∧ x.scratchAt s l a i size < x.team.windowSize wbuf) →
        ∃ t, exec v s = .next t ∧ TookTrap s t x (maskOf [l]) 0x05 ((if wbuf then 2 else 1) + 16 * Nat.log2 size)
          (x.scratchAt s l a i size % 2 ^ 64).toNat := by
    refine ⟨fun fine => ⟨_, run, ?_⟩, fun ⟨l, hl, within, err⟩ => ?_, fun l hl htrap aligned outside => ⟨_, run, ?_⟩⟩
    · refine scratchLoad_gives hx hplain own landed before hsize (fun l hl => (fine l hl).1) fun l hl => ?_
      obtain ⟨-, good, err⟩ := fine l hl
      exact ⟨List.any_eq_false.mpr fun u hu same => good (beq_iff_eq.mp same ▸ hu), err⟩
    · obtain ⟨tm, team, halted⟩ := scratchLoad_halts hx own landed hl within err
      exact ⟨_, tm, run, team, halted⟩
    · rw [Nat.mul_comm]
      exact scratchLoad_traps hx unpaired landed htrap hl aligned outside
  simp only [List.forall_mem_cons]
  exact ⟨loads false (by decide) _ rfl, loads false (by decide) _ rfl, loads false (by decide) _ rfl,
    loads true (by decide) _ rfl, nofun⟩

end Sys2Proof.Machine
end

section
/-! The deadline of a monitor, and O48 (12 R292, 05 R86). -/
namespace Sys2Proof.Machine

/-- A gang whose one lane waits in `mwait`, under the identifier 2, and is to park for a switch when it wakes. -/
def crossedGang : Gang where
  team := 0
  g := 0
  core := 0
  slot := 0
  width := 8
  nregs := 8
  lanes := [{ pc := ⟨0, 0⟩, sw := true, monitor := some { line := 0, va := 0 } }]
  waits := [(2, { mask := maskOf [0], kind := .monitor 0 false 0, next := ⟨0, 0⟩ })]

/-- The reset state with that gang. The next identifiers are 1 and 2, so the identifier of the wait is one that has not
been given out. -/
def crossed : State := { State.reset with gangs := [(0, crossedGang)] }

/-- The result of `mwait` takes the identifier 1 and the switch park of the woken lane the identifier 2. -/
theorem crossed_wakes : ∃ t h x, exec (.mwaitDeadline 0 2) crossed = .next t ∧ t.gang? 0 = some h ∧
    assocGet? h.waits 2 = some x ∧ x.kind = .switchPark :=
  ⟨_, _, _, rfl, rfl, rfl, rfl⟩

/-- Refutes O48: its clause on `mwait` says that after the deadline the gang has no wait under the identifier of the wait that
ended. A lane that is to park for a switch when it wakes (05 R86) gets a wait under a fresh identifier at once, and the clause
does not ask that the old identifier differ from that one, as it does in every state that gives identifiers out in order. -/
theorem not_memorySteps : ¬ Obligations.MemorySteps := by
  unfold Obligations.MemorySteps
  rintro ⟨-, steps⟩
  obtain ⟨-, -, -, -, -, deadline, -⟩ := steps crossed
  obtain ⟨t, wakes, -, -, h, hh, gone⟩ := deadline 0 crossedGang 2 0 0 0 _ _ rfl rfl rfl (by decide) rfl (le_refl 0) rfl rfl
    (.inl rfl)
  obtain ⟨u, g, x, wakes', hg, parked, -⟩ := crossed_wakes
  cases wakes.symm.trans wakes'
  cases hh.symm.trans hg
  exact absurd (gone.symm.trans parked) nofun

end Sys2Proof.Machine
end
